-- ==== Sys2Proof/Word.lean ====
section
/-! DEFINITION. The word types of the part: registers are 32-bit words (R67, R91 and every field table of
the specification), memory is bytes (R222 of spec/09_memory_tier.md). -/
namespace Sys2Proof

/-- A register word. -/
abbrev Word := BitVec 32

/-- A byte of Tier M, of a frame or of a bus transfer. -/
abbrev Byte := BitVec 8

end Sys2Proof
end

