-- ==== Sys2Proof/Syntax.lean ====
section
/-! DEFINITION. The commands of the part: one constructor of `Instr` for each row of the specification's table
of operations and events (spec/opcode_table.json), with the operands that the governing rules give the
operation or event.  What happens inside a command is in Machine/. -/
namespace Sys2Proof

/-- Side of a through-path (R32). -/
inductive Side where
  | a | b
  deriving DecidableEq, Repr

/-- The reference inputs with a monitor (R40), and OSC_IN, which the timebase PLL also accepts (R145). -/
inductive RefIn where
  | refclkA | refclkB | oscIn
  deriving DecidableEq, Repr

/-- The loss indications of R87. -/
inductive LossCause where
  | cdr | codeGroup | blockLock | deskew | signal | idleExit
  deriving DecidableEq, Repr

/-- The transmit taps of R43. -/
inductive Tap where
  | cm3 | cm2 | cm1 | c0 | cp1
  deriving DecidableEq, Repr

/-- The LTSSM states that CS_PCI_STS.LTSSM_x reports (Table 5.9). -/
inductive Ltssm where
  | detect | polling | configuration | l0 | recovery | l0s | l1 | hotReset | disabled | loopback | compliance
  deriving DecidableEq, Repr

/-- What the part reads and rewrites in a TS1 or TS2 ordered set (R125, R129, R130, R133).  `rates` has bit 0
for 2.5 GT/s up to bit 4 for 32.0 GT/s.  `partner` is the LTSSM state that the ordered set shows its sender in.
`width` is the negotiated link width once Configuration has settled it, else 0. `phase` is the equalisation phase (0 to 3) that the ordered set shows, and `phaseEnd` that its sender ends that phase. -/
structure TsFields where
  isTs2 : Bool
  partner : Ltssm
  rates : BitVec 5
  retimerPresent : Bool
  twoRetimers : Bool
  nFts : BitVec 8
  inverted : Bool
  width : Fin 17
  eq : Bool
  phase : Fin 4
  phaseEnd : Bool
  fs : BitVec 6
  lf : BitVec 6
  /-- in an EQ TS1 or TS2: the transmitter presets that it communicates for the Upstream and the Downstream
  Pseudo Port -/
  presets : Option (Fin 11 × Fin 11) := none
  deriving DecidableEq, Repr

/-- A request of a PCI Express partner for the part's transmitter (R134); coefficients in 1/63. -/
inductive EqRequest where
  | preset (p : Fin 16)
  | coefficients (cm1 c0 cp1 : Fin 64)
  deriving DecidableEq, Repr

/-- The lane margining commands of a Control SKP ordered set (R135 to R137). -/
inductive MarginCmd where
  | reportCapabilities
  | stepTiming (right : Bool) (steps : Fin 64)
  | stepVoltage (down : Bool) (steps : Fin 128)
  | goToNormal
  | clearErrorLog
  deriving DecidableEq, Repr

/-- The margining capabilities of Table 5.4: offsets in percent of UI and in mV, the sampling rate in samples of 64. -/
structure MarginCaps where
  voltage : Bool
  upDown : Bool
  leftRight : Bool
  errorSampler : Bool
  countReported : Bool
  timingSteps : Nat
  maxTiming : Nat
  voltageSteps : Nat
  maxVoltage : Nat
  samplingRate : Nat
  lanes : Nat
  deriving DecidableEq, Repr

/-- What the part answers to a margining command (R135 to R137): the capabilities, a step under way with its error count, NAK, or that
the receiver is back to normal or its log cleared. -/
inductive MarginAnswer where
  | capabilities (c : MarginCaps)
  | margining (errors : BitVec 6)
  | nak
  | normal
  | cleared
  deriving DecidableEq, Repr

/-- The margin payload of a Control SKP ordered set: none, a command for a receiver, or a receiver's answer (Table 5.3). -/
inductive MarginPayload where
  | none
  | command (rcvr : Fin 8) (cmd : MarginCmd)
  | answer (rcvr : Fin 8) (ans : MarginAnswer)
  deriving DecidableEq, Repr

/-- The ordered sets and data that a PCI Express course's receivers meet (Tables 5.3 and 5.5). -/
inductive OrderedSet where
  | ts (f : TsFields)
  | skp (payload : MarginPayload)
  | eios | eieos | fts | sds | logicalIdle
  deriving DecidableEq, Repr

/-- The timebase registers that the host or the timing engine writes (R147). -/
inductive TbReg where
  | adj | setSLo | setSHi | setNs | stepNs | stepFrac
  deriving DecidableEq, Repr

/-- What the SECDED decoder finds in a 256-bit word as it is read (R224): no error, a single error in the
bit with this syndrome, or an uncorrectable error with this syndrome. -/
inductive EccSeen where
  | clean
  | single (synd : BitVec 16)
  | double (synd : BitVec 16)
  deriving DecidableEq, Repr

/-- A frame at a receive ball (R150, R151, R186, R188): its octets from the destination address to the FCS, the
interpolator's fraction of its ingress latch in 1/1024 ns, the position of its timestamp point in whole UI, the octet at which
a received error was found, if any, whether the classifier's result is late, and what the SECDED decoder finds in
the bucket words read, in order, and in the page table entries that a record of it takes. -/
structure FrameIn where
  bytes : List Byte
  interp : Fin 1024
  pin : Nat
  errorAt : Option Nat
  late : Bool
  seen : List EccSeen
  pte : List EccSeen
  deriving DecidableEq, Repr

/-- A serial time-of-day message on PPS_IN's companion input (R173), as its ITU-T G.8271 format decodes:
whether it decodes without error, the second that it names, its clock-class field, and how many microseconds
after the last pulse it starts. -/
structure TimeMessage where
  decodes : Bool
  second : BitVec 48
  clockClass : BitVec 8
  sinceUs : Nat
  deriving DecidableEq, Repr

/-- A word of a lane gutter (R203, Table 8.4): 512 bits of data, the CTL flags, and the BND and ERR marks. -/
structure GutterWord where
  data : BitVec 512
  ctl : BitVec 64
  bnd : Bool
  err : Bool
  deriving DecidableEq, Repr

/-- A spar port of Tier M by master and port (Table 9.8). -/
structure SparPort where
  master : Fin 69
  port : Fin 8
  deriving DecidableEq, Repr

/-- One beat of a block write: 256 bits with a byte mask. -/
structure WriteBeat where
  mask : BitVec 32
  data : BitVec 256
  deriving DecidableEq, Repr

/-- One beat of a read or write response: its STATUS and 256 bits. -/
structure ReadBeat where
  status : Fin 4
  data : BitVec 256
  deriving DecidableEq, Repr

/-- A guarded block on a crossing of R240, by the bundle of Table 9.8 that carries it, with what its receiver holds of it. -/
inductive GuardedBlock where
  | request (port : SparPort) (tag : Fin 64) (op : Fin 4) (addr : BitVec 24) (beats : List WriteBeat)
  | response (port : SparPort) (tag : Fin 64) (beats : List ReadBeat)
  | gutterIn (tp : Fin 64) (side : Side) (word : GutterWord)
  | gutterOut (tp : Fin 64) (side : Side) (word : GutterWord)
  | record (u : Fin 128) (bytes : List (BitVec 8))
  | message (port : Fin 16) (region : Option (Fin 64)) (bytes : List (BitVec 8))
  | config (region : Fin 64) (bytes : List (BitVec 8))
  | pageIn (region : Fin 64) (port : Fin 8) (bytes : List (BitVec 8))
  deriving DecidableEq, Repr

/-- The initiators of transactions (Table 1.5). -/
inductive Initiator where
  | sequencer | dormer | host
  deriving DecidableEq, Repr

/-- One run of a calibration (R292, R293): the fields that it measured, in the order of Table 12.13, trims in their code; for TSDLY what
it measured of the marked symbol (R297), in 1/1024 ns and unit intervals: the CALREF edge's stamp, Δ, C_mod, the symbol's position at egress,
C_blk and its position at ingress; and the conditions of Table 12.5 as they stood before it (`before`: the run did not start) or after it: the
differential input in µV, VCAL in 100 µV, CALREF and PPS_IN present, the edges' distance in 100 ps, the frequency offset in
0.01 ppm. -/
structure CalRun where
  fields : List Int
  before : Bool
  input : Nat
  vcal : BitVec 16
  calref : Bool
  ppsIn : Bool
  phase : BitVec 16
  fofs : BitVec 12
  deriving DecidableEq, Repr

/-- A failing bit that memory BIST finds in the block under test (R304). -/
structure BitFail where
  word : Fin 8
  bit : Fin 272
  deriving DecidableEq, Repr

/-- What flash discovery finds (R346). -/
structure FlashFound where
  mode : Fin 4
  freq : BitVec 8
  density : BitVec 6
  deriving DecidableEq, Repr

/-- The image header's fields (Table 15.4), and whether HDRCRC is right, as the loader reads them from its 512 bytes. -/
structure ImageHeader where
  magic : BitVec 32
  format : BitVec 16
  hdrlen : BitVec 16
  part : BitVec 32
  imglen : BitVec 32
  nyealm : BitVec 16
  sigofs : BitVec 32
  build : BitVec 64
  version : BitVec 32
  crcOk : Bool
  deriving DecidableEq, Repr

/-- A sealed Dormer yealm as the Dormer reads it (R271): whether its signature and CRC-32C verify, the part and SC it is
for, its configuration, the lifecycle state that it requests, and K_SEAL where the wrapped key unwraps under K_DEV. -/
structure SealedYealm where
  valid : Bool
  serial : BitVec 64
  sc : BitVec 16
  interval : BitVec 8
  tmpen : Bool
  restok : Bool
  meters : BitVec 256
  ringsz : BitVec 16
  request : Option (Fin 5)
  key : Option (BitVec 256)
  deriving DecidableEq, Repr

/-- What the static contention rules of R352 give one owner: a multi-function pin, an Eaves timer, a queue, a spar or queue
port, a gutter, a service slot. -/
inductive Claimed where
  | pin | timer | queue | sparPort | gutter | service
  deriving DecidableEq, Repr

/-- What a yealm's payload sets (Table 15.6).  `word` is a register's word, `pll` and `course` the settings that wait for a
boundary (R354), `context` a resident context's initial storage values and logic BIST signature with its cell count,
`paged` a context store entry with its Tier M image, `store` the context store's page, `entry` a classifier entry, `trim` the words of a calibration value, `column` a region's Vote Board column and rows, `claim` a claim that R352
checks. -/
inductive Setting where
  | word (addr : BitVec 24) (data : BitVec 32)
  | pll (bay : Fin 8) (n : Fin 2) (family : Fin 16) (refsel : Bool) (ndiv : BitVec 10)
  | course (n : Fin 512) (ctl rate lanes0 lanes1 ctx sel cfg : BitVec 32)
  | context (region : Fin 64) (slot : Fin 8) (storage : Nat) (sig : BitVec 32) (cells : Nat)
  | paged (pnum : Fin 64) (image : List Byte) (storage : Nat) (sig : BitVec 32) (cells : Nat)
  | store (page : Fin 262144)
  | entry (index : Fin 65536) (bytes : List Byte)
  | column (region : Fin 64) (column : Fin 64) (rows : List (Fin 127))
  | claim (what : Claimed) (item : Nat)
  | trim (kind : Fin 8) (target : Fin 256) (param : Fin 32) (words : List (BitVec 32))
  | dormer (y : SealedYealm)
  deriving DecidableEq, Repr

/-- One yealm as the image holds it (R348): its 16 header bytes and its stored payload; then what no layout of the spec gives, the
output byte at which the decompression of a payload with Z = 1 fails, and what the payload sets. -/
structure YealmBytes where
  head : List Byte
  payload : List Byte
  decomp : Option Nat
  settings : List Setting
  deriving DecidableEq, Repr

/-- One yealm as the loader has read it (R348): its header's TYPE, INST, LEN and ULEN, whether its CRC is right, the output byte at which its
decompression failed, and what its payload sets. -/
structure Yealm where
  ty : BitVec 8
  inst : BitVec 16
  len : BitVec 32
  ulen : BitVec 32
  crcOk : Bool
  decomp : Option Nat
  settings : List Setting
  deriving DecidableEq, Repr

/-- The signature block as the image holds it (Table 15.7): its 256 bytes, the SHA-384 of its PUBKEY, and whether the signature
verifies under PUBKEY. -/
structure SigBytes where
  bytes : List Byte
  keyHash : BitVec 384
  verifies : Bool
  deriving DecidableEq, Repr

/-- The signature block as the loader has read it (R349): ALG, the SHA-384 of PUBKEY, and whether the signature verifies under PUBKEY. -/
structure SigBlock where
  alg : BitVec 16
  keyHash : BitVec 384
  verifies : Bool
  deriving DecidableEq, Repr

/-- One octet of a management bus transfer, with the I3C parity verdict. -/
structure BusByte where
  val : Byte
  parityOk : Bool
  deriving DecidableEq, Repr

/-- What happens to a pattern checker (R310). -/
inductive CheckEvent where
  | lock
  | lost
  | bits (count errors : Nat)
  | slip
  deriving DecidableEq, Repr


/-- The commands, one constructor per row of the table, in the table's order. -/
inductive Instr where
  /-- POWER_GOOD (R341): All four Eaves and Tier A rails come within range with RESET_N high, and start-up begins. -/
  | powerGood (bootSel : Fin 4) (profile : Fin 8) (addrSel : Fin 8)
  /-- RESET_N_LOW (R341): RESET_N held low for at least 1 µs resets every domain, waiting for any secure-region wipe in progress to complete. -/
  | resetNLow
  /-- REG_RDY (R332): On-die regulators report ready, and the power-up sequence moves to oscillators and PLLs. -/
  | regRdy
  /-- PLL_RDY (R332): Oscillator and reference buffers report running, and domains C and M are brought On. -/
  | pllRdy
  /-- MEM_RDY (R332): Domains C and M are On with hard repairs applied, the L and D domains rise, and the loader may start. -/
  | memRdy (flash : Option FlashFound)
  /-- LOGIC_RDY (R332): The voted L domains and domain D report On, ending the power-up order. -/
  | logicRdy (loadFailed : List (Fin 64))
  /-- SEQ_TIMEOUT (R332): A ready signal misses its bound, and the domain goes to Fault with FCODE 0x01. -/
  | seqTimeout (row : Fin 77)
  /-- VDD_CORE_FAIL (R389): VDD_CORE below 0.80 V for 1 µs clamps the domains of Tiers L, C and M and takes them to Off. -/
  | vddCoreFail
  /-- SYNTHESISER_LOCK (R14): The Eaves synthesiser locks to a returned REFCLK_A, and the tick moves back to it. -/
  | synthesiserLock
  /-- HEALTH_PUBLISH (R25): The owner of a group publishes its policy result within 1 µs of a member change and counts EVENTS. -/
  | healthPublish (id : Fin 4096)
  /-- REGISTER_WRITE (R5): A host write to a register that has no row of its own is applied under its access code. -/
  | registerWrite (addr : BitVec 24) (data : BitVec 32) (flash : Option FlashFound) (seen : List EccSeen)
  /-- COUNTER_READ (R68): A read of a clear-on-read counter returns its count and clears it, keeping any coincident event for the next read. -/
  | counterRead (addr : BitVec 24) (coincident : Bool) (seen : EccSeen)
  /-- UD_SNAP_ARM (R315): Writing ARMED arms a snapshot slot and clears VALID. -/
  | udSnapArm (id : Fin 4096)
  /-- SN_ARMALL (R315): Writing SN_ARMALL arms every unit and block snapshot slot at once. -/
  | snArmall
  /-- PLL_LOSS_OF_LOCK (R39): A bay PLL loses lock, and its lanes record FCODE 0x01, go to Fault and squelch their transmitters. -/
  | pllLossOfLock (bay : Fin 8) (n : Fin 2)
  /-- PLL_LOCK (R39): A bay PLL locks or relocks, and its lanes return to Acquire. -/
  | pllLock (bay : Fin 8) (n : Fin 2)
  /-- REF_EDGES_APPEAR (R40): Edges appear on a reference input, and its monitor begins identifying the frequency. -/
  | refEdgesAppear (ref : RefIn)
  /-- REF_IDENTIFIED (R40): The monitor identifies the reference frequency, sets REFID, and accepting PLLs relock with the matching N. -/
  | refIdentified (ref : RefIn) (refid : Fin 6) (hz : Nat)
  /-- REF_ABSENT (R40): After 1 µs without edges the monitor declares the input absent, and the PLLs that use it lose lock with FCODE 0x02. -/
  | refAbsent (ref : RefIn)
  /-- REF_FREQUENCY_CHANGE (R40): A frequency more than 1 % from nominal for 1 µs is treated as the input becoming absent, and identification starts again. -/
  | refFrequencyChange (ref : RefIn)
  /-- REF_SPREAD_CHANGE (R42): The monitor judges a reference spread or no longer spread, and judges the kind of spread. -/
  | refSpreadChange (ref : RefIn) (ppm : Nat) (above : Int)
  /-- LN_CTL_WRITE (R48): A host write to LN_CTL settles MANUAL first, then applies or discards the other fields and sets WREJ for a discard. -/
  | lnCtlWrite (tp : Fin 64) (side : Side) (data : BitVec 32)
  /-- LN_TX_FFE_WRITE (R48): A host write of transmit taps is accepted only with MANUAL set and taps in range summing to 64, and it applies at the next symbol boundary. -/
  | lnTxFfeWrite (tp : Fin 64) (side : Side) (data : BitVec 32)
  /-- LN_RX_EQ_WRITE (R49): A write of ADAPT is always accepted, and a write of CTLE is accepted only in Manual. -/
  | lnRxEqWrite (tp : Fin 64) (side : Side) (data : BitVec 32)
  /-- LN_RX_DFE_WRITE (R49): A host write of DFE taps takes effect only in Manual and in range, and is discarded with WREJ otherwise. -/
  | lnRxDfeWrite (tp : Fin 64) (side : Side) (j : Fin 3) (data : BitVec 32)
  /-- LN_RX_FFE_DATA_WRITE (R49): A host write of the selected DSP FFE tap is discarded for F0, out of range or outside Manual. -/
  | lnRxFfeDataWrite (tp : Fin 64) (side : Side) (data : BitVec 32)
  /-- CODE_GROUP_RECEIVED (R51): An 8b/10b code group is checked for disparity and validity, and comma alignment is tracked. -/
  | codeGroupReceived (tp : Fin 64) (side : Side) (group : BitVec 10) (phase : Fin 10)
  /-- SYNC_HEADER_RECEIVED (R55): A 64b/66b or 128b/130b sync header is checked, and block lock is tracked. -/
  | syncHeaderReceived (tp : Fin 64) (side : Side) (header : BitVec 2)
  /-- SIGNAL_DETECT_ASSERT (R58): A receiver's input rises above the assert threshold. -/
  | signalDetectAssert (tp : Fin 64) (side : Side)
  /-- SIGNAL_DETECT_DEASSERT (R58): A receiver's input falls below the deassert threshold. -/
  | signalDetectDeassert (tp : Fin 64) (side : Side) (lpi : Bool)
  /-- LANE_IDLE_EXIT_LOCK (R62): Lock is confirmed in Lane Idle exit, and the transmitter resumes with KSTATE Retime. -/
  | laneIdleExitLock (tp : Fin 64) (side : Side)
  /-- LANE_IDLE_EXIT_FAILURE (R62): The exit bound expires without lock, and the lane records FCODE 0x07 and enters the loss sequence. -/
  | laneIdleExitFailure (tp : Fin 64) (side : Side)
  /-- LANE_IDLE_QUIET_LIMIT (R60): LN_IDLE_TQ expires without a refresh, and the Ethernet lane leaves Lane Idle with FCODE 0x07 as lost signal. -/
  | laneIdleQuietLimit (tp : Fin 64) (side : Side)
  /-- SLICE_FAULT (R64): A primary receive slice is found failed, the lane goes to Fault with FCODE 0x05, and a stand-in claim is made. -/
  | sliceFault (tp : Fin 64) (side : Side)
  /-- STAND_IN_GRANT (R64): A waiting stand-in claim is granted the flashing slice, which begins acquiring with fresh adaptation. -/
  | standInGrant (bay : Fin 8) (side : Side)
  /-- STAND_IN_LOCK (R64): The stand-in slice locks and carries the lane as Retime-Flashing with OWNER 1. -/
  | standInLock (bay : Fin 8) (side : Side)
  /-- LOSS_INDICATION (R87): A loss indication appears on a lane's receive direction, and T_CONFIRM starts. -/
  | lossIndication (tp : Fin 64) (side : Side) (cause : LossCause)
  /-- LOSS_CONFIRMED (R87): T_CONFIRM expires with the indication present, LN_CNT_LOL counts, KSTATE becomes Reacquire and the lock-loss trigger source fires. -/
  | lossConfirmed (tp : Fin 64) (side : Side)
  /-- REACQUIRE_LOCK (R87): Fast re-acquisition from the stored phase succeeds, and KSTATE returns to Retime. -/
  | reacquireLock (tp : Fin 64) (side : Side)
  /-- T_REACQ_EXPIRY (R80): T_REACQ expires, and the lane is rescued on a granted flashing slice or squelched. -/
  | tReacqExpiry (tp : Fin 64) (side : Side)
  /-- RESCUE_LOCK (R87): The rescuing flashing slice locks, the output switches to it, and LN_CNT_RESCUE counts. -/
  | rescueLock (tp : Fin 64) (side : Side)
  /-- T_RESCUE_EXPIRY (R80): T_RESCUE expires without lock, and the lane is squelched. -/
  | tRescueExpiry (tp : Fin 64) (side : Side)
  /-- SQUELCHED_LANE_LOCK (R87): A squelched lane's primary slice locks again, and its transmitter resumes at a symbol boundary. -/
  | squelchedLaneLock (tp : Fin 64) (side : Side)
  /-- HANDOVER_SWITCH (R89): Both bit-exact conditions hold, and the output multiplexer switches slices at the next symbol boundary. -/
  | handoverSwitch (tp : Fin 64) (side : Side) (phaseOffset : Int)
  /-- T_SHADOW_EXPIRY (R89): T_SHADOW expires without a switch, and the handover is abandoned. -/
  | tShadowExpiry (tp : Fin 64) (side : Side)
  /-- T_ALLSQ_EXPIRY (R80): T_ALLSQ expires with every member lane squelched. -/
  | tAllsqExpiry (course : Fin 512)
  /-- T_HOLD_EXPIRY (R80): T_HOLD expires after one segment left Negotiate or Train. -/
  | tHoldExpiry (course : Fin 512)
  /-- BACKOFF_END (R82): A back-off step ends, BACKOFF increments, and the course evaluates Table 3.7 afresh. -/
  | backoffEnd (course : Fin 512)
  /-- CLAUSE73_PAGE (R95): A Clause 73 page is received on logical lane 0, forwarded within 100 ns, decoded and recorded. -/
  | clause73Page (course : Fin 512) (side : Side) (isNext : Bool) (page : BitVec 48) (began : Nat)
  /-- TRAINING_FRAME (R100): A training frame is received on a lane of a segment and is acted on locally. -/
  | trainingFrame (course : Fin 512) (side : Side) (lane : Fin 8) (trained partnerReady precoding : Bool)
  /-- COEFFICIENT_HOLD (R102): A hold request changes nothing and is answered not updated. -/
  | coefficientHold (tp : Fin 64) (side : Side)
  /-- COEFFICIENT_UPDATE (R102): An increment or decrement request moves a tap with a compensating c0 or c+1 change, or reports a limit. -/
  | coefficientUpdate (tp : Fin 64) (side : Side) (tap : Tap) (inc : Bool)
  /-- PRESET_REQUEST (R103): A preset request sets all taps to the preset values, or is answered not supported. -/
  | presetRequest (tp : Fin 64) (side : Side) (k : Fin 8)
  /-- INITIALIZE_REQUEST (R103): An initialize request sets the taps to the initialize values. -/
  | initializeRequest (tp : Fin 64) (side : Side)
  /-- PRECODER_REQUEST (R105): A partner request enables or disables the 1/(1+D) precoder on the part's PAM4 transmitter. -/
  | precoderRequest (tp : Fin 64) (side : Side) (on : Bool)
  /-- TNEG_EXPIRY (R109): The negotiation timeout of an Ethernet or CPRI segment expires, which counts as a timeout. -/
  | tnegExpiry (course : Fin 512) (side : Side)
  /-- PARTNER_SILENCE_EXPIRY (R109): Signal detect stays deasserted for the silence limit, and the partner is lost. -/
  | partnerSilenceExpiry (course : Fin 512) (side : Side)
  /-- TTRAIN_EXPIRY (R109): The training timeout of a segment expires. -/
  | ttrainExpiry (course : Fin 512) (side : Side)
  /-- T_DATA_EXPIRY (R109): T_DATA expires after RR_SENT without data starting. -/
  | tDataExpiry (course : Fin 512) (side : Side)
  /-- INCOMING_RATE_CHANGE (R112): The received CPRI symbol rate changes on a rate-following course, and measurement starts. -/
  | incomingRateChange (course : Fin 512) (side : Side)
  /-- RATE_IDENTIFIED (R112): The CPRI option of the measured rate is identified, and the part follows it or refuses it. -/
  | rateIdentified (course : Fin 512) (side : Side) (rate : Fin 256)
  /-- RATE_FOLLOW_LOCK (R112): The receiver locks and the opposite transmitter runs at the followed rate. -/
  | rateFollowLock (course : Fin 512) (side : Side)
  /-- HYPERFRAME_START (R86): A CPRI hyperframe start is received, maintaining HFNSYNC and marking a boundary. -/
  | hyperframeStart (course : Fin 512) (side : Side) (hfnsync : Bool)
  /-- HFNHOLD_EXPIRY (R115): HFNSYNC held for HFNHOLD makes a CPRI segment in Train Ready. -/
  | hfnholdExpiry (course : Fin 512) (side : Side) (latAb latBa : BitVec 24)
  /-- RECEIVER_DETECTION (R126): Every 12 ms in Detect, the part runs receiver detection on every member lane of both sides. -/
  | receiverDetection (course : Fin 512) (foundA foundB : BitVec 16)
  /-- ORDERED_SET_RECEIVED (R129): A PCI Express ordered set is forwarded with the rewrites of Table 5.3. -/
  | orderedSetReceived (course : Fin 512) (side : Side) (lane : Fin 16) (os : OrderedSet)
  /-- SPEED_CHANGE_READY (R132): After Recovery.Speed, the lanes are switched to the new rate and CS_RATE and CS_PCI_CNT_SPD are updated. -/
  | speedChangeReady (course : Fin 512) (rate : Fin 256)
  /-- EQ_REQUEST (R134): An equalisation request for the part's transmitter is applied within 500 ns or rejected. -/
  | eqRequest (tp : Fin 64) (side : Side) (req : EqRequest)
  /-- EQ_PRESET_EVALUATED (R134): The evaluation of one requested preset or coefficient set ends, and the part makes its next request or keeps the best. -/
  | eqPresetEvaluated (course : Fin 512) (side : Side) (lane : Fin 16) (errors : Nat)
  /-- MARGIN_COMMAND (R135): A margining command in a Control SKP for the part's receiver is answered using the flashing slice. -/
  | marginCommand (course : Fin 512) (side : Side) (lane : Fin 16) (rcvr : Fin 8) (cmd : MarginCmd)
  /-- TB_PLL_LOCK (R145): The timebase PLL locks to its reference, and TB_STS.LOCK becomes 1. -/
  | tbPllLock
  /-- TB_PLL_HOLD_EXPIRY (R146): The 10 s reference hold ends without the reference, LOCK falls and LOL is set. -/
  | tbPllHoldExpiry
  /-- LOAD (R148): TB_CMD LOAD sets OFS so that the time equals TB_SET_*, or is discarded. -/
  | tbLoad
  /-- STEP (R148): TB_CMD STEP adds TB_STEP_* to OFS with normalisation, or is discarded. -/
  | tbStep
  /-- CAPTURE (R148): TB_CMD CAPTURE latches the time and FREE into TB_CAP_*. -/
  | tbCapture
  /-- TIMEBASE_WRITE (R147): A host write to TB_ADJ, TB_SET_* or TB_STEP_* is accepted only when OWNER is 1. -/
  | timebaseWrite (reg : TbReg) (data : BitVec 32)
  /-- FRAME_INGRESS (R164): A frame's timestamp point crosses the receive ball, and it is stamped, classified, metered and judged for correction. -/
  | frameIngress (tp : Fin 64) (side : Side) (frame : FrameIn)
  /-- FRAME_CORRECTION (R158): At the correction stage, a candidate's field gets R × 64 added, with checksum and FCS updated, or passes counted as uncorrected. -/
  | frameCorrection (tp : Fin 64) (side : Side) (interp : Fin 1024) (pout : Nat)
  /-- LATENCY_REMEASURE (R156): After the timebase enters Fine, CS_LAT is measured again for every running latency-locked course. -/
  | latencyRemeasure (course : Fin 512) (latAb latBa : BitVec 24)
  /-- PPS_IN_EDGE (R174): A PPS_IN edge is latched, checked for period and measured for TE. -/
  | ppsInEdge (interp : Fin 1024)
  /-- PPS_IN_TIME_MESSAGE (R173): A time-of-day message on PPS_IN names the last pulse and counts toward qualification. -/
  | ppsInTimeMessage (msg : TimeMessage)
  /-- PPS_PULSE_TIMEOUT (R174): No pulse within 1.5 s disqualifies PPS_IN. -/
  | ppsPulseTimeout
  /-- PPS_MESSAGE_TIMEOUT (R174): No valid time message for 3 s disqualifies PPS_IN. -/
  | ppsMessageTimeout
  /-- PTP_SAMPLE (R171): A PTP service offset sample reaches the engine and drives qualification and the servo. -/
  | ptpSample (offset pathDelay : Int) (valid : Bool) (clockClass : Fin 256)
  /-- PTP_SAMPLE_TIMEOUT (R174): No PTP sample for 3 s disqualifies the PTP reference. -/
  | ptpSampleTimeout
  /-- QL_REPORT (R174): An ESMC QL report for a line slot reaches the engine. -/
  | qlReport (slot : Fin 16) (side : Side) (ql : Fin 16) (failed : Bool)
  /-- LINE_SLOT_WTR_EXPIRY (R174): A line slot's qualifying conditions hold for WTR, and the slot qualifies. -/
  | lineSlotWtrExpiry (slot : Fin 16)
  /-- LINE_SLOT_SECOND (R178): Each second, line-slot phases are measured, and holdover and synthesis steering runs. -/
  | lineSlotSecond (slot : Fin 16) (xPhase : Int) (zPhase : Int) (ppm100 : Int) (last : Bool)
  /-- LOCKT_EXPIRY (R170): |TE| stays within or beyond LOCKWIN throughout LOCKT, and the engine moves between Acquiring and Locked. -/
  | locktExpiry
  /-- HOLDOVER_LIMIT_EXPIRY (R170): TS_HOLD_T reaches ENS_LIMIT or LOC_LIMIT, and the engine enters Holdover-Expired. -/
  | holdoverLimitExpiry
  /-- FMEM_VALID (R172): Locked without a break for HAVG, the engine sets FMEM. -/
  | fmemValid
  /-- ENSEMBLE_MEMBER_JOIN (R178): A slot qualified for 3,600 s in Locked becomes an ensemble member. -/
  | ensembleMemberJoin (slot : Fin 16)
  /-- ENSEMBLE_GROUPING (R178): Every 100 s in Locked, members are grouped by correlation and weighted. -/
  | ensembleGrouping
  /-- TS_CTL_WRITE (R169): A write to TS_CTL changes the engine's enables and references, and the engine re-evaluates Table 7.1. -/
  | tsCtlWrite (data : BitVec 32)
  /-- LREF_CTL_WRITE (R197): A host write to TS_LREFk_CTL disqualifies slot k at once. -/
  | lrefCtlWrite (slot : Fin 16) (data : BitVec 32)
  /-- PPS_OUT_EDGE (R181): The time crosses a whole second plus TS_PPS_OFS, and PPS_OUT rises unless squelched or still high. -/
  | ppsOutEdge
  /-- PPS_OUT_PULSE_END (R181): PPS_W expires, and PPS_OUT falls. -/
  | ppsOutPulseEnd
  /-- TOD_OUT_MESSAGE (R182): TOD_OUT sends a time message naming the last PPS_OUT edge. -/
  | todOutMessage
  /-- CLS_INSERT (R187): TS_CLS_CMD insert writes the staged entry into its bucket. -/
  | clsInsert (replace : Bool)
  /-- CLS_DELETE (R187): TS_CLS_CMD delete clears a matching entry. -/
  | clsDelete
  /-- CLS_LOOKUP (R187): TS_CLS_CMD lookup returns a matching entry's action into TS_CLS_ACTj. -/
  | clsLookup
  /-- CLS_COMMAND_DONE (R187): A classifier command completes, clearing BUSY and setting RESULT. -/
  | clsCommandDone (seen : List EccSeen)
  /-- INSERTION_PLACE (R190): At a stream boundary with elastic room and credit, an insertion record's frame is placed. -/
  | insertionPlace (tp : Fin 64) (side : Side) (byteTimes deleted : Nat) (pte seen conf : List EccSeen)
  /-- INSERTED_FRAME_STAMP (R192): At the correction stage an inserted frame is stamped, corrected and confirmed per its FLAGS. -/
  | insertedFrameStamp (tp : Fin 64) (side : Side) (interp : Fin 1024) (pout : Nat) (conf : List EccSeen)
  /-- MAXWAIT_EXPIRY (R193): A record not placed within MAXWAIT of the queue head is dropped with STATUS 1. -/
  | maxwaitExpiry (tp : Fin 64) (side : Side) (pte seen conf : List EccSeen)
  /-- ENG_STATE (R194): The engine sends ENG_STATE to every service on change and every second. -/
  | engState
  /-- TIME_READ (R194): A service requests and receives the time and FREE. -/
  | timeRead (slot : Fin 8)
  /-- ESMC_INFO_PDU (R196): Every second the ESMC service sends an information PDU carrying the QL for the engine state. -/
  | esmcInfoPdu (course : Fin 512)
  /-- QL_FAILED (R196): 5 s without an information PDU sets QL-FAILED for the slot. -/
  | qlFailed (slot : Fin 16)
  /-- CST_READ (R211): A region reads a Course State Table word or entry through its service port share. -/
  | cstRead (region : Fin 64) (course : Fin 512) (offset : Fin 32) (whole : Bool)
  /-- TRIG_REQ (R211): A region fires the Ridge Trigger as its management write source. -/
  | trigReq (region : Fin 64)
  /-- CSW_REQ (R214): A region in Self mode requests a switch to a resident or paged context and gets a result. -/
  | cswReq (region : Fin 64) (paged : Bool) (ctx : Fin 64)
  /-- FB_PACE_WRITE (R201): A write of CAP is checked against FLOOR and may release a withheld voltage step. -/
  | fbPaceWrite (region : Fin 64) (data : BitVec 32)
  /-- PW_DOM_WRITE (R334): A VSET write on a domain row starts a voltage step, withheld while pace or rate forbids it. -/
  | pwDomWrite (row : Fin 127) (data : BitVec 32)
  /-- VOLTAGE_SETTLED (R334): The supply settles at VSET, and the pace limit of the new voltage takes effect. -/
  | voltageSettled (row : Fin 77)
  /-- GUTTER_INBOUND_WORD (R204): The shell writes a decoded word into the inbound gutter FIFO for the region. -/
  | gutterInboundWord (tp : Fin 64) (side : Side) (word : GutterWord) (took : Nat)
  /-- GUTTER_OUTBOUND_WORD (R204): The region hands a word to the outbound gutter FIFO. -/
  | gutterOutboundWord (tp : Fin 64) (side : Side) (word : GutterWord) (took : Nat)
  /-- GUTTER_UNDERRUN (R205): The shell finds the outbound FIFO empty and sends idle or an error indication. -/
  | gutterUnderrun (tp : Fin 64) (side : Side) (between : Bool)
  /-- SPAR_READ_WORD (R207): A spar port read-word request is acknowledged and issued to Tier M. -/
  | sparReadWord (port : SparPort) (tag : Fin 64) (addr : BitVec 29)
  /-- SPAR_WRITE_WORD (R207): A spar port write-word request is acknowledged and issued to Tier M. -/
  | sparWriteWord (port : SparPort) (tag : Fin 64) (addr : BitVec 29) (mask : BitVec 32) (data : BitVec 256)
  /-- SPAR_READ_BLOCK (R207): A spar port read-block request is acknowledged and issued to Tier M. -/
  | sparReadBlock (port : SparPort) (tag : Fin 64) (addr : BitVec 29)
  /-- SPAR_WRITE_BLOCK (R207): An eight-beat spar port block write is acknowledged and issued to Tier M. -/
  | sparWriteBlock (port : SparPort) (tag : Fin 64) (addr : BitVec 29) (beats : List WriteBeat)
  /-- SPAR_RESPONSE (R208): A Tier M operation completes, and its response beats with STATUS return to the master. -/
  | sparResponse (port : SparPort) (tag : Fin 64) (ecc : List EccSeen) (earlier : List (List EccSeen))
  /-- INFLIGHT_PLACE_FREED (R231): A freed in-flight place is given to the next waiting port in master order. -/
  | inflightPlaceFreed
  /-- CONTEXT_SWITCH (R212): At a handshake boundary, a region swaps configuration and storage to the selected context. -/
  | contextSwitch (region : Fin 64)
  /-- PAGE_IN_COMPLETE (R216): A page-in finishes copying a paged context into its frame and returns the spar ports. -/
  | pageInComplete (region : Fin 64) (poisoned crcOk : Bool) (seen : List (Fin 16384 × EccSeen))
  /-- PAGE_IN_RETRY (R217): Every 1 ms a pending selection retries its failed page-in. -/
  | pageInRetry (region : Fin 64)
  /-- PREFETCH (R221): FB_PGCMD PREFETCH pages a paged context into the region. -/
  | prefetch (region : Fin 64) (pnum : Fin 64)
  /-- PIN (R221): FB_PGCMD PIN pins a resident paged copy. -/
  | pagePin (region : Fin 64) (pnum : Fin 64)
  /-- UNPIN (R221): FB_PGCMD UNPIN unpins a resident paged copy. -/
  | pageUnpin (region : Fin 64) (pnum : Fin 64)
  /-- EVICT (R221): FB_PGCMD EVICT frees a paged copy's frame, or is refused. -/
  | evict (region : Fin 64) (pnum : Fin 64)
  /-- SCRUB (R228): Every SCRUB_INT × 10 µs, each bank scrubs its next row. -/
  | scrub (bank : Fin 512) (seen : EccSeen)
  /-- WINDOW_READ (R244): A register read in the management window reads 4 bytes of Tier M through master 66. -/
  | windowRead (addr : BitVec 20) (seen : EccSeen)
  /-- WINDOW_WRITE (R244): A register write in the management window writes 4 bytes of Tier M through master 66. -/
  | windowWrite (addr : BitVec 20) (data : BitVec 32) (seen : EccSeen)
  /-- GUARDED_BLOCK (R241): A receiver checks the CRC-32C of a guarded block, accepts it or requests a re-send. -/
  | guardedBlock (block : GuardedBlock) (crc : BitVec 32)
  /-- RESEND_REQUEST (R241): A re-send request makes the sender re-send from its retry buffer, and the fourth failure delivers the block poisoned. -/
  | resendRequest (sparPort : Fin 858) (block : GuardedBlock) (crc : BitVec 32)
  /-- COMPAT_CHANGE (R236): Once admitted operations complete, a committed change of COMPAT takes effect. -/
  | compatChange
  /-- WIPE_COMPLETE (R239): Every bank has zeroed its secure words, and WIPING clears with WIPED set. -/
  | wipeComplete
  /-- ENQ (R254): A queue port ENQ is admitted or dropped under quotas and written as a record. -/
  | enq (requester : Fin 320) (port : Fin 4) (queue : Fin 16384) (data : List (BitVec 8)) (pte : List EccSeen)
  /-- DEQ (R254): A queue port DEQ returns the selected record or EMPTY. -/
  | deq (requester : Fin 320) (port : Fin 4) (grp : Bool) (tgt : Fin 16384) (pte seen : List EccSeen)
  /-- NOTIFY (R254): A queue port NOTIFY waits for a record that the requester may take. -/
  | notify (requester : Fin 320) (port : Fin 4) (grp : Bool) (tgt : Fin 16384)
  /-- STATUS (R254): A queue port STATUS returns the queue's page and record counts. -/
  | queueStatus (requester : Fin 320) (port : Fin 4) (queue : Fin 16384)
  /-- QUEUE_SWEEP_DONE (R257): A queue sweep ends, and a pending EN of 1 takes effect. -/
  | queueSweepDone (queue : Fin 16384) (found : List (Fin 262144 × EccSeen))
  /-- OPEN (R261): TG_CMD OPEN takes the lowest free slot of the initiator's range, or fails. -/
  | gateOpen (initiator : Initiator)
  /-- STAGE (R262): TG_CMD STAGE adds a masked write to an open transaction, or is refused. -/
  | gateStage (initiator : Initiator) (slot : Fin 16) (addr : BitVec 24) (data mask : BitVec 32)
  /-- COMMIT_IMMEDIATE (R263): COMMIT in Immediate mode applies the staged writes within 2 µs. -/
  | commitImmediate (initiator : Initiator) (slot : Fin 16)
  /-- COMMIT_BOUNDARY (R263): COMMIT in Boundary mode waits for the named course's next boundary. -/
  | commitBoundary (initiator : Initiator) (slot : Fin 16) (course : Fin 512)
  /-- COMMIT_MARKER (R263): COMMIT in Marker mode waits for the named course's first protocol marker. -/
  | commitMarker (initiator : Initiator) (slot : Fin 16) (course : Fin 512)
  /-- ABORT (R266): TG_CMD ABORT cancels the initiator's transaction. -/
  | gateAbort (initiator : Initiator) (slot : Fin 16)
  /-- COMMIT_APPLY (R264): At the commit instant, staged writes are checked for conflict and value, then applied together or aborted. -/
  | commitApply (slot : Fin 16)
  /-- BOUNDARY_TIMEOUT (R263): No boundary or marker within 1 ms aborts the transaction with Boundary Timeout. -/
  | boundaryTimeout (slot : Fin 16)
  /-- INTERVAL_END (R276): A Dormer interval ends on its seconds multiple, FREE limit or vote withdrawal, and the next begins. -/
  | intervalEnd
  /-- RECORD_WRITE (R277): The interval's seal records are written to the ring, and DM_SEQ_NEW advances. -/
  | recordWrite (poisoned : Bool)
  /-- DM_SEL_WRITE (R280): Writing DM_SEL starts a copy of the named record into the window buffer. -/
  | dmSelWrite (seq : BitVec 32) (seen : List EccSeen)
  /-- RECORD_COPY_DONE (R280): The record copy completes, and READY or GONE is set. -/
  | recordCopyDone
  /-- TAMPER_N_CONFIRM (R282): TAMPER_N low for 1 µs confirms a tamper. -/
  | tamperNConfirm
  /-- EAVES_SUPPLY_GLITCH (R282): VDD_EAVES outside 0.66 V to 0.84 V for 20 ns confirms a tamper. -/
  | eavesSupplyGlitch
  /-- DIE_TEMPERATURE_SAMPLE (R282): A die temperature sample updates MG_TEMPt, and a second consecutive sample out of range confirms a tamper. -/
  | dieTemperatureSample (tier : Fin 4) (temp : BitVec 12)
  /-- TAMPER_EFUSE_PROGRAM (R283): Once domain C is On, the latched tamper count is programmed into eFuse. -/
  | tamperEfuseProgram
  /-- CL_MEASURE (R289): CL_CMD MEASURE checks, claims, isolates the target and runs measurement runs. -/
  | clMeasure (kind : Fin 8) (target : Fin 256) (nowait apply : Bool) (rept : Fin 8) (param : Fin 32)
  /-- CL_READ (R290): CL_CMD READ copies the values in force into CL_RES. -/
  | clRead (kind : Fin 8) (target : Fin 256) (param : Fin 32)
  /-- CL_WRITE (R290): CL_CMD WRITE applies CL_RES as a result at the kind's boundary. -/
  | clWrite (kind : Fin 8) (target : Fin 256) (param : Fin 32)
  /-- CL_CANCEL (R290): CL_CMD CANCEL ends the running command with ABORTED and restores the trims. -/
  | clCancel
  /-- CAL_SLICE_GRANT (R291): A waiting COFF command is granted the flashing slice and proceeds. -/
  | calSliceGrant
  /-- CAL_RUN_COMPLETE (R292): A calibration run ends, preconditions are rechecked, and the next run or the agreement test follows. -/
  | calRunComplete (run : CalRun)
  /-- MBIST_START (R304): ST_MCMD START begins a memory BIST pass. -/
  | mbistStart
  /-- MBIST_STOP (R304): ST_MCMD STOP ends the pass after the current block with RESULT Stopped. -/
  | mbistStop
  /-- MBIST_BLOCK_START (R302): After GAP, the next block's words are saved and pattern testing begins. -/
  | mbistBlockStart
  /-- MBIST_BLOCK_DONE (R302): A block's patterns and write-back complete, failures are counted and progress advances. -/
  | mbistBlockDone (yielded : Bool) (fails : List BitFail)
  /-- REPAIR_APPLY (R306): ST_MREP_CMD APPLY starts a soft row or column repair. -/
  | repairApply (bank : Fin 512) (column : Bool) (index : Fin 8192)
  /-- REPAIR_CLEAR (R306): ST_MREP_CMD CLEAR removes a bank's soft repairs. -/
  | repairClear (bank : Fin 512)
  /-- REPAIR_COMPLETE (R306): The repair copy ends, and the bank switches to the spare. -/
  | repairComplete
  /-- LBIST_START (R307): ST_LCMD START begins logic BIST on one region, or is refused. -/
  | lbistStart (region : Fin 64) (npat : Fin 32)
  /-- LBIST_STOP (R307): ST_LCMD STOP ends the logic BIST with Aborted. -/
  | lbistStop
  /-- LBIST_END (R308): The test ends, and its signature and count give Pass, Incomplete or Fail. -/
  | lbistEnd (sig : BitVec 32) (count : BitVec 21)
  /-- LBIST_WATCHDOG (R307): The watchdog ends the test after four times its nominal duration. -/
  | lbistWatchdog (sig : BitVec 32) (count : BitVec 21)
  /-- LANE_TEST_START (R309): Setting LN_PT_CTL.EN starts a PRBS lane test, or refuses it. -/
  | laneTestStart (tp : Fin 64) (side : Side) (data : BitVec 32)
  /-- LANE_TEST_STOP (R309): Clearing LN_PT_CTL.EN stops the lane test with RESULT Stopped. -/
  | laneTestStop (tp : Fin 64) (side : Side)
  /-- SNAP_IN_EDGE (R312): An active edge on SNAP_IN fires its trigger source. -/
  | snapInEdge (rising : Bool)
  /-- SN_FIRE (R312): A write to SN_FIRE fires the management write source. -/
  | snFire
  /-- TIME_MATCH (R317): The time reaches SN_MATCH, the PTP-time match source fires, and MATCH_EN clears. -/
  | timeMatch
  /-- SNAP_OUT_PULSE_END (R318): After 100 ns SNAP_OUT falls. -/
  | snapOutPulseEnd
  /-- REQ_ACTIVE (R327): PW_CTL requests Active, and DEV votes the active rows. -/
  | reqActive
  /-- REQ_NAP (R327): PW_CTL requests Nap, and DEV withdraws the Nap rows with a quiesce request. -/
  | reqNap
  /-- REQ_REST (R327): PW_CTL requests Rest, and DEV withdraws every row but Eaves. -/
  | reqRest
  /-- REQ_REST_WITH_TIMEKEEPING (R327): PW_CTL requests Rest with timekeeping, and DEV keeps AT. -/
  | reqRestWithTimekeeping
  /-- REQ_OFF (R327): PW_CTL requests Off, and DEV withdraws every row, AT included. -/
  | reqOff
  /-- HOST_VOTE_WRITE (R323): A write to PW_HVOTEj sets or clears the host's votes on the Vote Board. -/
  | hostVoteWrite (j : Fin 4) (data : BitVec 32)
  /-- DOMAIN_ENTRY_COMPLETE (R333): A domain reaches Retain or Off and publishes its KSTATE. -/
  | domainEntryComplete (row : Fin 77)
  /-- DOMAIN_EXIT_COMPLETE (R333): A domain reaches On after exit and releases isolation. -/
  | domainExitComplete (row : Fin 77) (loadOk : Bool)
  /-- REGION_QUIET (R325): Under a quiesce request, a region becomes quiet, and its column withdraws. -/
  | regionQuiet (region : Fin 64)
  /-- HOLDREP_EXPIRY (R328): PW_HOLDREP expires with domains still held, and the partial transition is reported. -/
  | holdrepExpiry
  /-- WAKE_N_LOW (R330): WAKE_N low for 100 ns requests Active as a wake source. -/
  | wakeNLow
  /-- EAVES_TIMER_EXPIRY (R330): An Eaves timer reaches 0, sets FIRED and, with WAKE set, requests Active. -/
  | eavesTimerExpiry (k : Fin 4)
  /-- PAD_RELEASE (R337): A write of PW_PADREL releases held pad groups. -/
  | padRelease (groups : BitVec 4)
  /-- FLASH_IO_TIMEOUT (R346): A flash read not answered within 10 µs fails the image with FLASH_IO. -/
  | flashIoTimeout (flashByte : BitVec 32)
  /-- YEALM_READ (R348): A yealm is streamed in, checked, decompressed and staged, or fails the image. -/
  | yealmRead (header : List Byte) (yealm : YealmBytes)
  /-- IMAGE_LAST_BYTE (R343): The last byte of the image is read, and signature and static checks follow. -/
  | imageLastByte (sig : SigBytes)
  /-- HANDOVER_DEADLINE (R354): 1 ms after step 9 without a boundary, the remaining course entries take effect. -/
  | handoverDeadline
  /-- RELOAD (R357): CF_CMD RELOAD reruns loading from flash in BOOT_SEL order. -/
  | reload (flash : Option FlashFound)
  /-- RECOVER (R356): CF_CMD RECOVER starts a recovery load over the management bus. -/
  | recover
  /-- KEYPROG (R358): CF_CMD KEYPROG blows a key slot with the staged hash while the Gate is unlocked. -/
  | keyprog (slot : Fin 4)
  /-- KEYREVOKE (R358): CF_CMD KEYREVOKE blows a key slot's revoke bit while the Gate is unlocked. -/
  | keyrevoke (slot : Fin 4)
  /-- RCVABORT (R352): CF_CMD RCVABORT abandons a recovery load with RCV_ABORT. -/
  | rcvabort
  /-- RECOVERY_DATA_WRITE (R356): A write to CF_RCV_DATA appends 4 image bytes, or overruns. -/
  | recoveryDataWrite (data : BitVec 32)
  /-- PRIVATE_WRITE (R371): An I3C or I2C private write sets the address and writes whole words in order. -/
  | privateWrite (i3c : Bool) (bytes : List BusByte) (full : List Nat) (flash : Option FlashFound) (seen : List EccSeen)
  /-- PRIVATE_READ (R371): A private read returns consecutive words once earlier writes apply and each word is ready. -/
  | privateRead (i3c : Bool) (words ready : Nat) (coincident : List Nat) (seen : List EccSeen)
  /-- ENEC (R370): CCC ENEC enables in-band interrupts. -/
  | enec (direct enint : Bool)
  /-- DISEC (R370): CCC DISEC disables in-band interrupts. -/
  | disec (direct enint : Bool)
  /-- RSTDAA (R370): CCC RSTDAA clears the dynamic address. -/
  | rstdaa
  /-- ENTDAA (R370): CCC ENTDAA assigns a dynamic address using PID, BCR and DCR. -/
  | entdaa (da : BitVec 7)
  /-- SETMWL (R370): CCC SETMWL sets the maximum write length. -/
  | setmwl (direct : Bool) (len : BitVec 16)
  /-- SETDASA (R370): CCC SETDASA assigns the dynamic address from the static address. -/
  | setdasa (static : BitVec 7) (da : BitVec 7)
  /-- GETMWL (R370): CCC GETMWL returns the maximum write length. -/
  | getmwl
  /-- GETPID (R370): CCC GETPID returns the provisional ID. -/
  | getpid
  /-- GETBCR (R370): CCC GETBCR returns 0x06. -/
  | getbcr
  /-- GETDCR (R370): CCC GETDCR returns 0x00. -/
  | getdcr
  /-- GETSTATUS (R370): CCC GETSTATUS returns status and clears PARITY. -/
  | getstatus
  /-- RSTACT (R370): CCC RSTACT sets the action of the next Target Reset Pattern. -/
  | rstact (direct : Bool) (action : BitVec 8)
  /-- TARGET_RESET_PATTERN (R370): A Target Reset Pattern performs the configured reset action and reverts it to 0x01. -/
  | targetResetPattern
  /-- IBI_REQUEST (R377): At Bus Available, the part requests an in-band interrupt for newly set enabled alerts. -/
  | ibiRequest (acked : Bool)
  /-- CHALLENGE (R379): TG_UL_CMD CHALLENGE draws a nonce, or is refused while waiting. -/
  | challenge
  /-- VERIFY (R379): TG_UL_CMD VERIFY compares the tag, unlocking the Gate or counting a failure. -/
  | verify
  /-- RELOCK (R381): TG_UL_CMD RELOCK relocks the Gate and revokes open host slots. -/
  | relock
  /-- GKEYPROG (R378): TG_UL_CMD GKEYPROG programs K_GATE while it is blank. -/
  | gkeyprog
  /-- UNLOCK_EXPIRY (R381): TG_UL_LEFT reaches 0, and the Gate relocks. -/
  | unlockExpiry
  /-- CHALLENGE_EXPIRY (R379): A challenge expires 10 s after it is drawn. -/
  | challengeExpiry
  /-- EXTEST (R383): JTAG EXTEST drives the pads from the boundary register. -/
  | extest
  /-- IDCODE (R382): JTAG IDCODE selects the identification register. -/
  | idcode
  /-- SAMPLE_PRELOAD (R382): JTAG SAMPLE/PRELOAD samples and preloads the boundary register. -/
  | samplePreload (sampled preload : List Bool)
  /-- EXTEST_PULSE (R383): JTAG EXTEST_PULSE tests the lane pads per IEEE 1149.6. -/
  | extestPulse
  /-- EXTEST_TRAIN (R383): JTAG EXTEST_TRAIN tests the lane pads per IEEE 1149.6. -/
  | extestTrain
  /-- CLAMP (R383): JTAG CLAMP holds the pads from the boundary register with bypass selected. -/
  | clamp
  /-- HIGHZ (R383): JTAG HIGHZ places the outputs in high impedance. -/
  | highz
  /-- BYPASS (R382): JTAG BYPASS, or any unlisted code, selects the bypass register. -/
  | bypass (code : BitVec 8)
  /-- LANE_ACQUIRE_LOCK (R65): A lane in Acquire gains CDR lock, and code-group or block lock where its line code has one, and goes to KSTATE Retime with health Up. -/
  | laneAcquireLock (tp : Fin 64) (side : Side)
  /-- ALIGNMENT_MARKER_LOCK (R57): A Decoded lane gains alignment-marker lock, with RS-FEC codeword alignment, so that the course measures its skew and the segment can become Ready. -/
  | alignmentMarkerLock (course : Fin 512) (side : Side) (skewNs : Nat) (last : Fin 64)
  /-- PARTNER_TRAINING_END (R107): After RR_SENT the partner stops sending training frames on every lane and data begins, which makes a trained Ethernet segment Ready. -/
  | partnerTrainingEnd (course : Fin 512) (side : Side)
  /-- PARTNER_RECEIVER_DETECTION (R127): A PCI Express partner runs receiver detection, which counts as partner loss and takes both segments to Detect with FCODE 0x06. -/
  | partnerReceiverDetection (course : Fin 512) (side : Side)
  /-- PATTERN_CHECKER_LOCK (R310): The PRBS checker of a lane test gains or loses lock on the received pattern, counts bits, errors and RESYNC, sets SLIP and may fire the BIST fail trigger source on the first error. -/
  | patternCheckerLock (tp : Fin 64) (side : Side) (ev : CheckEvent)
  /-- KEY_PROGRAMMING_DONE (R358): The eFuse programming of a key slot, a revoke bit or K_GATE ends up to 20 ms after its command, clearing BUSY and setting the result. -/
  | keyProgrammingDone
  deriving DecidableEq, Repr

end Sys2Proof
end

