-- ==== Sys2Proof/Decode.lean ====
section
/-! DEFINITION. The commands that a word spells.  spec/opcode_table.json gives no row any bits: the block has no instruction
words, and a command comes from the bus, a pin or a timer. -/
namespace Sys2Proof

/-- The command that a word of `nbits` bits spells: none, for no row of the table gives bits. -/
def decodeTableWord (_nbits _w : Nat) : Option Instr := none

end Sys2Proof
end

