-- ==== Sys2Proof/Config.lean ====
section
/-! DEFINITION. What the specification leaves open: free values.  Each is a constant without a body, so that
nothing can be proved of its values; a log entry under notes/assumptions names each. -/
namespace Sys2Proof.Config

/-- A fresh value from the part's random source (the Dormer's ring identity, the challenge nonce).  Applied
to the state's counter of draws and a word number. -/
opaque random : Nat → Nat → BitVec 32

/-- The priority resolution of IEEE 802.3 Clause 73 (R96), which the manual takes from that standard: from
the pages received from side A and from side B, the Table 4.2 code, 0x3F or 0. -/
opaque clause73Hcd : List (BitVec 48) → List (BitVec 48) → BitVec 6

/-- The FEC resolution of Clause 73 (R96). -/
opaque clause73Fec : List (BitVec 48) → List (BitVec 48) → BitVec 2

/-- A coefficient request of the part's own, as its training frames carry it (R100, R101), of which the manual gives only that the part
tunes the partner's transmitter.  Applied to the counter of draws. -/
opaque ownRequest : Nat → BitVec 16

/-- Whether the part, leading the equalisation of a lane, makes another coefficient request beyond its presets, of which R134 gives only
that there are at most two; and the set that it asks for, as c-1, c0 and c+1 in 1/63.  Applied to the counter of draws. -/
opaque eqMore : Nat → Bool
opaque eqCoefficients : Nat → BitVec 18

/-- Errors of a margining slice against the primary slice (R135), which no command brings.  Applied to the counter of draws. -/
opaque marginErrors : Nat → BitVec 6

/-- Whether both partners advertise EEE for the resolved technology (Table 4.10). -/
opaque clause73Eee : List (BitVec 48) → List (BitVec 48) → Bool

/-- The ball-to-ball latency that the part measures on an entry to Run (R155), where the command brings no
measurement: applied to the counter of draws and the direction (0 A-to-B, 1 B-to-A). -/
opaque latency : Nat → Nat → BitVec 24

/-- The ROM nominal ball-to-ball latency that CS_LAT takes in Coarse (R155), of which no table gives a value: applied to the rate and
the direction. -/
opaque romLatency : Nat → Nat → BitVec 24

/-- The phase offset between a lane's two slices, in 1/64 UI, that the part measures where a flashing slice takes the lane in a rescue
or as a stand-in (R152), which no command brings.  Applied to the counter of draws. -/
opaque slicePhase : Nat → Int

/-- Whether two ensemble members of which one does not vary correlate beyond 0.8: the quotient of R178 is then
0/0.  Applied to the counter of draws and the two slots. -/
opaque flatCorrelation : Nat → Nat → Nat → Bool

/-- The weight of an ensemble group whose v[g] is 0 or rests on no sample, where R178's 1/v[g] has no value. Applied
to the counter of draws and the group's lowest slot; the weight is one more than this. -/
opaque flatWeight : Nat → Nat → Nat

/-- The frequency memory where no time lies in HAVG (R172), in 2^-16 ppb.  Applied to the counter of draws. -/
opaque freqMemory : Nat → Int

/-- Handshake cycles that a region's user logic completed in the last whole microsecond (FB_PACE_STS.MEAS), of
which the specification gives only the greatest: applied to the time and the region, cut to the effective pace. -/
opaque paceMeasured : Nat → Nat → Nat

/-- The spar port that MT_POISON.PORT shows for an uncorrectable error found by a scrub, which crosses no spar port.
Applied to the counter of draws. -/
opaque scrubPort : Nat → BitVec 10

/-- The bits of a word that an uncorrectable error has changed (R229), of which the specification gives only that the word
is answered as read.  Applied to the counter of draws when the error was met and the word's address. -/
opaque errorBits : Nat → Nat → BitVec 256

/-- The expected signature in Tier A ROM for a pattern count of 2^NPAT (R308). -/
opaque lbistExpected : Nat → BitVec 32

/-- The signature and the pattern count that a logic BIST shows when it is aborted (R219, R308), which the
specification does not give.  Applied to the counter of draws. -/
opaque lbistSignature : Nat → BitVec 32
opaque lbistCount : Nat → BitVec 21

/-- What a byte of Tier M holds once its soft repair has been cleared (Table 13.11): the specification does not say
what the original row or column holds by then.  Applied to the counter of draws and the byte address. -/
opaque unrepaired : Nat → Nat → BitVec 8

/-- The region spar port over which a page-in met an uncorrectable word (MT_POISON.PORT, R216, R243): which of the eight
ports carries which block is not given.  Applied to the counter of draws. -/
opaque pagePort : Nat → BitVec 3

/-- The result code of a self switch request that names a slot without a resident context, or a paged context that is
not in the store, for which Table 8.10 has no row.  Applied to the counter of draws. -/
opaque selfSwitchResult : Nat → BitVec 3

/-- Which of Purlin's two master spar ports an operation uses (MT_POISON.PORT): not given.  Applied to the counter of
draws. -/
opaque purlinPort : Nat → Bool

/-- The sum of a signed 64-bit field of a frame and what is added to it, where it leaves the format other than upward in a
corrected field (R159, R192).  Applied to the counter of draws. -/
opaque fieldOverflow : Nat → BitVec 64

/-- An octet of an inserted frame beyond the octets of its record (R192), where the record's LEN says more than the record
holds.  Applied to the counter of draws and the offset. -/
opaque absentOctet : Nat → Nat → BitVec 8

/-- TE_MIN, TE_MAX and TE_MEAN of an interval in which no edge was used (Table 11.4).  Applied to the counter of draws and the
field's number. -/
opaque noEdge : Nat → Nat → BitVec 32

/-- The setting that continuous adaptation has reached (R45): applied to the time, the transceiver and the setting (0 CTLE, k the
DFE tap h(k), 16 + t the FFE tap of LN_RX_FFE_SEL number t), and brought within Table 2.5. -/
opaque adapted : Nat → Nat → Nat → Nat

/-- RS-FEC symbols corrected that a transceiver received in a nanosecond (LN_CNT_FECSYM, R56), which no command brings: applied to
the time and the transceiver. -/
opaque fecSymbols : Nat → Nat → Nat

/-- VNOW of a region or bay at the retention level (Table 14.2), which no rule gives.  Applied to the row. -/
opaque retentionLevel : Nat → BitVec 8

/-- Whether a service that runs is Degraded, which its yealm defines (R195).  Applied to the time and the service slot. -/
opaque serviceDegraded : Nat → Nat → Bool

/-- The level of the clock recovered from a line slot and synthesised to FREQ (R183), which has no phase relation to the time.  Applied to
the time and the output. -/
opaque slotClock : Nat → Nat → Bool

/-- The queue of a service to which its classifier entries extract frames (R195, R196).  Applied to the service slot. -/
opaque serviceQueue : Nat → BitVec 14

/-- The factory constant of the path from the CALREF ball to its stamp, in 1/1024 ns (R297). -/
opaque calrefPath : BitVec 24

/-- D_loop, the factory constant of a transceiver's pad loop, in 1/1024 ns (R297). -/
opaque padLoop : Nat → BitVec 24

end Sys2Proof.Config
end

