-- ==== Sys2Proof/Machine/Tables.lean ====
section
/-! DEFINITION. The manual's fixed tables of line rates, PLL families, PHY types and presets
(spec/02_lane_tier.md and spec/04_training_ethernet_cpri.md), each written down once. -/
namespace Sys2Proof.Machine

/-- The line codes of Table 2.1. -/
inductive LineCode where
  | c8b10 | c64b66 | c128b130 | pam4
  deriving DecidableEq, Repr

/-- The protocols of CS_CTL.PROTO. -/
inductive Proto where
  | eth | cpri | pcie | rsvd
  deriving DecidableEq, Repr

def protoOf (v : Nat) : Proto :=
  if v = 0 then .eth else if v = 1 then .cpri else if v = 2 then .pcie else .rsvd

/-- A row of Table 2.1: line code, line rate in kb/s, protocol, PLL family code, and the rate factor k
times 16. -/
structure RateRow where
  code : LineCode
  kbps : Nat
  proto : Proto
  family : Nat
  k16 : Nat
  deriving DecidableEq, Repr

/-- Table 2.1 (R35), by the row number that CS_RATE.RATE holds. -/
def rateRow (r : Nat) : Option RateRow :=
  match r with
  | 0x01 => some ⟨.c8b10, 614400, .cpri, 1, 1⟩
  | 0x02 => some ⟨.c8b10, 1228800, .cpri, 1, 2⟩
  | 0x03 => some ⟨.c8b10, 2457600, .cpri, 1, 4⟩
  | 0x04 => some ⟨.c8b10, 3072000, .cpri, 2, 4⟩
  | 0x05 => some ⟨.c8b10, 4915200, .cpri, 1, 8⟩
  | 0x06 => some ⟨.c8b10, 6144000, .cpri, 2, 8⟩
  | 0x07 => some ⟨.c8b10, 9830400, .cpri, 1, 16⟩
  | 0x08 => some ⟨.c8b10, 2500000, .pcie, 9, 4⟩
  | 0x09 => some ⟨.c8b10, 5000000, .pcie, 9, 8⟩
  | 0x0A => some ⟨.c64b66, 8110080, .cpri, 3, 16⟩
  | 0x0B => some ⟨.c64b66, 10137600, .cpri, 4, 16⟩
  | 0x0C => some ⟨.c64b66, 12165120, .cpri, 5, 16⟩
  | 0x0D => some ⟨.c64b66, 24330240, .cpri, 5, 32⟩
  | 0x0E => some ⟨.c64b66, 10312500, .eth, 6, 16⟩
  | 0x0F => some ⟨.c64b66, 25781250, .eth, 7, 32⟩
  | 0x10 => some ⟨.c128b130, 8000000, .pcie, 10, 16⟩
  | 0x11 => some ⟨.c128b130, 16000000, .pcie, 10, 32⟩
  | 0x12 => some ⟨.c128b130, 32000000, .pcie, 10, 64⟩
  | 0x13 => some ⟨.pam4, 53125000, .eth, 8, 32⟩
  | 0x14 => some ⟨.pam4, 106250000, .eth, 8, 64⟩
  | 0x15 => some ⟨.pam4, 212500000, .eth, 8, 128⟩
  | _ => none

/-- The family of a rate, 0 where the code is no row. -/
def rateFamily (r : Nat) : Nat := (rateRow r).elim 0 RateRow.family

def ratePam4 (r : Nat) : Bool := (rateRow r).elim false (fun x => x.code = .pam4)

/-- A rate that the protocol allows (R84, R122): a row of Table 2.1 of that protocol. -/
def rateAllowed (p : Proto) (r : Nat) : Bool := (rateRow r).elim false (fun x => x.proto = p)

/-- Table 2.2 (R37): N × 4 for a family on an identified reference (1 = 100 MHz, 2 = 122.88, 3 = 156.25,
4 = 245.76), 0 where the family does not accept that reference. -/
def pllNdiv (family ref : Nat) : Nat :=
  match family, ref with
  | 1, 2 => 320 | 1, 4 => 160
  | 2, 2 => 400 | 2, 4 => 200
  | 3, 2 => 264 | 3, 4 => 132
  | 4, 2 => 330 | 4, 4 => 165
  | 5, 2 => 396 | 5, 4 => 198
  | 6, 3 => 264
  | 7, 3 => 330
  | 8, 3 => 340
  | 9, 1 => 400
  | 10, 1 => 320
  | _, _ => 0

/-- A row of Table 4.2: lanes (0 = any of 1, 2, 4, 8), rate (0 = any Ethernet rate), the training kind, whether the Decoded column says
Yes, and the FEC modes, coded as CS_RATE.FEC. -/
structure PhyRow where
  lanes : Nat
  rate : Nat
  clause : Nat
  decoded : Bool
  fec : List Nat
  deriving DecidableEq, Repr

/-- Table 4.2 (R98). `clause` is 72, 136, 162, or 400 for IEEE 802.3dj, and 0 for no training. -/
def phyRow (c : Nat) : Option PhyRow :=
  match c with
  | 0x01 => some ⟨1, 0x0E, 72, true, [0]⟩
  | 0x02 => some ⟨4, 0x0E, 72, true, [0]⟩
  | 0x03 => some ⟨1, 0x0F, 72, true, [0, 1]⟩
  | 0x04 => some ⟨4, 0x0F, 72, true, [1]⟩
  | 0x05 => some ⟨1, 0x13, 136, true, [2]⟩
  | 0x06 => some ⟨2, 0x13, 136, true, [2]⟩
  | 0x07 => some ⟨4, 0x13, 136, true, [2]⟩
  | 0x08 => some ⟨1, 0x14, 162, true, [2]⟩
  | 0x09 => some ⟨2, 0x14, 162, true, [2]⟩
  | 0x0A => some ⟨4, 0x14, 162, true, [2]⟩
  | 0x0B => some ⟨8, 0x14, 162, true, [2]⟩
  | 0x0C => some ⟨1, 0x15, 400, true, [2]⟩
  | 0x0D => some ⟨2, 0x15, 400, true, [2]⟩
  | 0x0E => some ⟨4, 0x15, 400, true, [2]⟩
  | 0x0F => some ⟨8, 0x15, 400, false, [2]⟩
  | 0x20 => some ⟨0, 0, 0, true, [0, 1, 2]⟩
  | _ => none

def phyClause (c : Nat) : Nat := (phyRow c).elim 0 PhyRow.clause

/-- The value of CS_ETH_RES.HCD for a resolved technology (R96): a code that Table 4.2 lets a resolution give, 0 for no common
technology, or 0x3F for one outside the table. -/
def hcdOf (c : Nat) : Nat := if c = 0 ∨ (phyClause c ≠ 0) then c else 0x3F

/-- The value of CS_ETH_RES.FEC for a technology and the FEC that the bits of its pages ask for (R96): a mode of the technology's row of Table
4.2, the row's own where it has one only; Clause 74 FEC may resolve for the types of the Clause 72 procedure that need no other (R99). -/
def fecOf (hcd f : Nat) : Nat :=
  match phyRow hcd with
  | none => f
  | some r => if r.fec.contains f ∨ (f = 3 ∧ r.fec.contains 0) then f else r.fec.headD 0

/-- The five transmit taps in 1/64 of full drive (R43). -/
structure Taps where
  cm3 : Int
  cm2 : Int
  cm1 : Int
  c0 : Int
  cp1 : Int
  deriving DecidableEq, Repr

/-- Within Table 2.5, magnitudes adding up to 64 (R43). -/
def Taps.ok (t : Taps) : Bool :=
  decide (-6 ≤ t.cm3 ∧ t.cm3 ≤ 6 ∧ -10 ≤ t.cm2 ∧ t.cm2 ≤ 10 ∧ -24 ≤ t.cm1 ∧ t.cm1 ≤ 0
    ∧ 24 ≤ t.c0 ∧ t.c0 ≤ 64 ∧ -20 ≤ t.cp1 ∧ t.cp1 ≤ 0
    ∧ t.cm3.natAbs + t.cm2.natAbs + t.cm1.natAbs + t.c0.natAbs + t.cp1.natAbs = 64)

/-- Table 4.4 (R103): preset k, where the PHY type's clause defines it. -/
def presetTaps (k clause : Nat) : Option Taps :=
  if k = 1 then some ⟨0, 0, 0, 64, 0⟩
  else if k = 2 ∧ clause ≠ 72 then some ⟨0, 0, -4, 52, -8⟩
  else if k = 3 ∧ clause ≠ 72 then some ⟨0, 0, -8, 48, -8⟩
  else if k = 4 ∧ (clause = 162 ∨ clause = 400) then some ⟨0, 2, -10, 44, -8⟩
  else if k = 5 ∧ (clause = 162 ∨ clause = 400) then some ⟨-1, 3, -12, 42, -6⟩
  else none

/-- The Initialize row of Table 4.4. -/
def initializeTaps : Taps := ⟨0, 0, -5, 46, -13⟩

/-- The Bare Retime profiles of Table 2.4 (R41): rate, PLL0 family, PLL1 family, accepted references. -/
structure ProfileRow where
  rate : Nat
  fam0 : Nat
  fam1 : Nat
  refs : List Nat
  deriving DecidableEq, Repr

def profileRow (p : Nat) : ProfileRow :=
  match p with
  | 0 => ⟨0x0F, 7, 0, [3]⟩
  | 1 => ⟨0x14, 8, 0, [3]⟩
  | 2 => ⟨0x13, 8, 0, [3]⟩
  | 3 => ⟨0x0E, 6, 0, [3]⟩
  | 4 => ⟨0x07, 1, 0, [2, 4]⟩
  | 5 => ⟨0x01, 1, 2, [2, 4]⟩
  | 6 => ⟨0x08, 9, 10, [1]⟩
  | _ => ⟨0, 0, 0, [1, 2, 3, 4, 5]⟩

/-- Lane health (Table 2.14). -/
def laneHealthOf (ks : Nat) : Nat :=
  match ks with
  | 2 => 0 | 3 => 0 | 4 => 1 | 5 => 1 | 6 => 1 | 7 => 2 | 9 => 4 | _ => 3

/-- Course health (Tables 3.8 and 1.8). -/
def courseHealthOf (ks : Nat) : Nat :=
  match ks with
  | 4 => 0 | 5 => 1 | 6 => 2 | 7 => 4 | _ => 3

/-- The value of a field of `w` bits read as two's complement. -/
def signed (w v : Nat) : Int :=
  if v < 2 ^ (w - 1) then (v : Int) else (v : Int) - (2 ^ w : Nat)

/-- The `w`-bit two's complement code of an integer. -/
def unsigned (w : Nat) (x : Int) : Nat := (x % ((2 ^ w : Nat) : Int)).toNat

/-- Bits `[lo + w - 1 : lo]` of a word. -/
def bits (v lo w : Nat) : Nat := v / 2 ^ lo % 2 ^ w

/-- Bit `b` of a word. -/
def bit (v b : Nat) : Bool := bits v b 1 = 1

/-- 1 for true, 0 for false. -/
def b2n (b : Bool) : Nat := if b then 1 else 0

end Sys2Proof.Machine
end

