-- ==== Sys2Proof/Machine/Frac.lean ====
section
/-! DEFINITION. Exact fractions for the servo and the ensemble of the timing engine (R171, R178, R179). -/
namespace Sys2Proof.Machine

/-- A fraction in lowest terms, its denominator at least 1. -/
structure Q where
  num : Int := 0
  den : Nat := 1
  deriving DecidableEq, Repr

/-- n/d in lowest terms; 0 where d is 0. -/
def Q.of (n : Int) (d : Nat) : Q :=
  if d = 0 then {} else
    let g := Nat.gcd n.natAbs d
    { num := n / (g : Int), den := d / g }

def Q.int (n : Int) : Q := { num := n, den := 1 }
def Q.add (a b : Q) : Q := Q.of (a.num * b.den + b.num * a.den) (a.den * b.den)
def Q.neg (a : Q) : Q := { a with num := -a.num }
def Q.sub (a b : Q) : Q := a.add b.neg
def Q.mul (a b : Q) : Q := Q.of (a.num * b.num) (a.den * b.den)
def Q.div (a b : Q) : Q :=
  if b.num < 0 then Q.of (-(a.num * b.den)) (a.den * b.num.natAbs) else Q.of (a.num * b.den) (a.den * b.num.natAbs)
def Q.le (a b : Q) : Bool := decide (a.num * b.den ≤ b.num * a.den)
def Q.clamp (lo hi a : Q) : Q := if a.le lo then lo else if hi.le a then hi else a
def Q.sum (l : List Q) : Q := l.foldl Q.add {}

/-- The nearest integer, the greater one where two are as near. -/
def Q.round (a : Q) : Int := (2 * a.num + a.den) / (2 * a.den)

/-- An integer held within a range. -/
def clampInt (lo hi x : Int) : Int := if x < lo then lo else if hi < x then hi else x

/-- The greatest r with r × r at most n, found bit by bit from bit `k` down. -/
def isqrtFrom (k n r : Nat) : Nat :=
  match k with
  | 0 => r
  | k + 1 =>
    let c := r + 2 ^ k
    isqrtFrom k n (if c * c ≤ n then c else r)

def isqrt (n : Nat) : Nat := isqrtFrom 64 n 0

end Sys2Proof.Machine
end

