-- ==== Sys2Proof/Machine/Reg.lean ====
section
/-! DEFINITION. The register map of the part: every register the manual names, its place in the
24-bit management space (R384 of spec/17_management_registers.md), its fields, their access codes and
reset values. Each field is written down once, from the field table of its owning chapter (R3). -/
namespace Sys2Proof.Machine

/-- The registers, under the names of the manual. -/
inductive Reg where
  | MG_ID | MG_MFR | MG_SERIAL_LO | MG_SERIAL_HI | MG_SCRATCH | MG_ALERT | MG_ALERTEN | MG_FAULT_ID | MG_BUS
  | MG_BUSSTS | MG_CNT_NOTRDY | MG_TEMP | PW_CTL | PW_STS | PW_HOLDREP | PW_HELD | PW_HELD_CLO | PW_HELD_CHI
  | PW_LASTWAKE | PW_WAKEEN | PW_PADREL | PW_NAPSET | PW_ACTSET | PW_HVOTE | PW_ETIM_CTL | PW_ETIM_CNT
  | PW_DOM | PW_VB_LO | PW_VB_HI | CF_STATUS | CF_STS | CF_RES | CF_ITEM | CF_FLASH | CF_BUILD_LO
  | CF_BUILD_HI | CF_VERSION | CF_TBARE | CF_TFULL | CF_CMD | CF_CMDSTS | CF_KEYSTS | CF_RCV_STS | CF_RCV_CNT
  | CF_KEYH | CF_RCV_DATA | TG_UL_CMD | TG_UL_REQ | TG_UL_STS | TG_UL_LEFT | TG_UL_CHAL | TG_UL_RESP
  | TG_UL_GKEY | TG_CMD | TG_RES | TG_ADDR | TG_DATA | TG_MASK | TG_CNT_COMMIT | TG_CNT_ABORT | TG_SLOT_STS
  | TG_SLOT_CONF | SN_CTL | SN_SRCEN | SN_FIRE | SN_LAST | SN_TAG_S_LO | SN_TAG_S_HI | SN_TAG_NS
  | SN_TAG_FRAC | SN_MATCH_S_LO | SN_MATCH_S_HI | SN_MATCH_NS | SN_LOLMASK | SN_CNT_EVT | SN_CNT_MERGED
  | SN_ARMALL | SN_BSLOT | SN_SEL | SN_DATA | ST_MCMD | ST_MSTART | ST_MEND | ST_MSTS | ST_MPROG | ST_MSKIP
  | ST_MFAIL_ADDR | ST_MFAIL_BIT | ST_MFAIL_CNT | ST_MREP_CMD | ST_MREP_STS | ST_LCMD | ST_LSTS | ST_LSIG
  | ST_LEXP | ST_LCNT | CL_CMD | CL_STS | CL_RES | CL_SPREAD | CL_VCAL | CL_CALREF | CL_PDT_SEL | CL_PDT_DATA
  | UD_IDENT | UD_STATE | UD_LINKS | UD_VOTE | UD_FAULT | UD_SNAP | UD_EVENTS | UD_INDEX | LN_PLL_CTL
  | LN_PLL_STS | LN_IDLE_TQ | LN_FS_STS | LN_STS | LN_CTL | LN_TX_FFE | LN_RX_EQ | LN_RX_DFE | LN_RX_FFE_SEL
  | LN_RX_FFE_DATA | LN_CNT_DISP | LN_CNT_INV | LN_CNT_SHDR | LN_CNT_FECSYM | LN_CNT_LOL | LN_CNT_RESCUE
  | LN_CNT_IDLE | LN_PT_CTL | LN_PT_STS | LN_PT_ERR | LN_PT_BITS_LO | LN_PT_BITS_HI | CS_CTL | CS_RATE
  | CS_LANES | CS_CTX | CS_STS | CS_LAT | CS_SKEW | CS_TCHG_S | CS_TCHG_NS | CS_CNT_DEG | CS_CNT_TRAIN
  | CS_SEL | CS_ETH_CFG | CS_ETH_PG_LO | CS_ETH_PG_HI | CS_ETH_RES | CS_ETH_TR | CS_ETH_CNT_AN | CS_CPRI_CFG
  | CS_CPRI_STS | CS_CPRI_CNT_RATE | CS_PCI_CFG | CS_PCI_STS | CS_PCI_MRG | CS_PCI_CNT_REC | CS_PCI_CNT_SPD
  | CS_PCI_CNT_NAK | TB_CTL | TB_STS | TB_CMD | TB_ADJ | TB_SET_S_LO | TB_SET_S_HI | TB_SET_NS | TB_STEP_NS
  | TB_STEP_FRAC | TB_CAP_S_LO | TB_CAP_S_HI | TB_CAP_NS | TB_CAP_FRAC | TB_CAP_FREE_LO | TB_CAP_FREE_HI
  | TSU_CTL | TSU_STS | TSU_INGD | TSU_EGRD | TSU_LAST_RES | TSU_LAST_INFO | TSU_CNT_CORR | TSU_CNT_UNCORR
  | TSU_CNT_SAT | TS_CTL | TS_STS | TS_TE | TS_HOLD_T | TS_SERVO | TS_HOLD_CFG | TS_PPS_IN | TS_OUT_CTL
  | TS_PPS_OFS | TS_CLKOUT_CTL | TS_CLKOUT_FREQ | TS_LREF_CTL | TS_LREF_STS | TS_LREF_FOFS | TS_LREF_STAB
  | TS_SVC_STS | TS_CLS_BASE | TS_CLS_CMD | TS_CLS_STS | TS_CLS_KEY | TS_CLS_ACT | TS_IE_CTL | TS_IE_STS
  | TS_IE_CNT_EXT | TS_IE_CNT_INS | TS_IE_CNT_DROP | TS_IE_CNT_LATE | FB_CFG | FB_STS | FB_CTXSEL | FB_PACE
  | FB_PACE_STS | FB_SLOT | FB_PGCMD | FB_PGSTS | FB_GUTMAP | FB_WIN_BASE | FB_WIN_LIM | FB_CNT_SW
  | FB_CNT_PGIN | FB_CNT_LATE | FB_CNT_GOVF | FB_CNT_GUNF | FB_CNT_DENY | MT_CTL | MT_STS | MT_INFLT
  | MT_INFLT_MAX | MT_WINBASE | MT_WINSTS | MT_ECCLOG_ADDR | MT_ECCLOG_INFO | MT_COLLIDE | MT_COLLIDE_ADDR
  | MT_POISON | MT_POISON_ADDR | MT_CNT_CE | MT_CNT_UE | MT_CNT_RESEND | MT_CNT_POISON | MT_CNT_DENY
  | MT_CONF | PU_STS | PU_POOL | PU_PTSEL | PU_PTE_LO | PU_PTE_HI | PU_CNT_DROPCAP | PU_CNT_DROPPOOL
  | PU_CNT_PTCE | PU_CNT_PTUE | PU_GCFG | PU_GMIN | PU_GMAX | PU_GUSED | PU_QCFG | PU_QLIM | PU_QHEAD
  | PU_QTAIL | PU_QPAGES | PU_QDEPTH | PU_QSTS | PU_QDROP | DM_STS | DM_SEALCNT | DM_CFG | DM_RING_ID_LO
  | DM_RING_ID_HI | DM_SEQ_OLD | DM_SEQ_NEW | DM_TAMPER | DM_SEL | DM_RSTS | DM_MLIST | DM_REC
  deriving DecidableEq, Repr

/-- The access codes of the field tables (R382 of spec/17_management_registers.md). -/
inductive Acc where
  | RO | RW | WO | W1C | W1S | RC
  deriving DecidableEq, Repr

/-- One field of a register: bits `[lo + w - 1 : lo]`, its access code, and the reset value the field
table gives (0 where `Reg.romReset` gives it). -/
structure Fld where
  reg : Reg
  lo : Nat
  w : Nat
  acc : Acc
  rst : Nat
  deriving DecidableEq, Repr

namespace F
/-! Fields of spec/17_management_registers.md (R384). -/
abbrev MG_ID_PART : Fld := ⟨.MG_ID, 0, 16, .RO, 25608⟩
abbrev MG_ID_REV : Fld := ⟨.MG_ID, 16, 4, .RO, 0⟩
abbrev MG_ID_VARIANT : Fld := ⟨.MG_ID, 20, 4, .RO, 1⟩
abbrev MG_MFR_JEP106 : Fld := ⟨.MG_MFR, 0, 11, .RO, 0⟩
abbrev MG_MFR_MIPI : Fld := ⟨.MG_MFR, 16, 15, .RO, 0⟩
abbrev MG_SERIAL_LO_V : Fld := ⟨.MG_SERIAL_LO, 0, 32, .RO, 0⟩
abbrev MG_SERIAL_HI_V : Fld := ⟨.MG_SERIAL_HI, 0, 32, .RO, 0⟩
abbrev MG_SCRATCH_DATA : Fld := ⟨.MG_SCRATCH, 0, 32, .RW, 0⟩
abbrev MG_ALERT_ALERT : Fld := ⟨.MG_ALERT, 0, 14, .W1C, 0⟩
abbrev MG_ALERTEN_EN : Fld := ⟨.MG_ALERTEN, 0, 14, .RW, 16383⟩
abbrev MG_FAULT_ID_ID : Fld := ⟨.MG_FAULT_ID, 0, 12, .RO, 0⟩
abbrev MG_FAULT_ID_VALID : Fld := ⟨.MG_FAULT_ID, 31, 1, .W1C, 0⟩
abbrev MG_BUS_I3C : Fld := ⟨.MG_BUS, 0, 1, .RO, 0⟩
abbrev MG_BUS_DA : Fld := ⟨.MG_BUS, 1, 7, .RO, 0⟩
abbrev MG_BUS_SA : Fld := ⟨.MG_BUS, 8, 7, .RO, 0⟩
abbrev MG_BUS_ENINT : Fld := ⟨.MG_BUS, 15, 1, .RO, 1⟩
abbrev MG_BUS_MWL : Fld := ⟨.MG_BUS, 16, 11, .RO, 259⟩
abbrev MG_BUSSTS_WBOVF : Fld := ⟨.MG_BUSSTS, 0, 1, .W1C, 0⟩
abbrev MG_BUSSTS_MISALIGN : Fld := ⟨.MG_BUSSTS, 1, 1, .W1C, 0⟩
abbrev MG_BUSSTS_PARTIAL : Fld := ⟨.MG_BUSSTS, 2, 1, .W1C, 0⟩
abbrev MG_BUSSTS_MWLOVF : Fld := ⟨.MG_BUSSTS, 3, 1, .W1C, 0⟩
abbrev MG_BUSSTS_UNMAPPED : Fld := ⟨.MG_BUSSTS, 4, 1, .W1C, 0⟩
abbrev MG_BUSSTS_PARITY : Fld := ⟨.MG_BUSSTS, 5, 1, .W1C, 0⟩
abbrev MG_CNT_NOTRDY_COUNT : Fld := ⟨.MG_CNT_NOTRDY, 0, 32, .RC, 0⟩
abbrev MG_TEMP_TEMP : Fld := ⟨.MG_TEMP, 0, 12, .RO, 0⟩
abbrev MG_TEMP_VALID : Fld := ⟨.MG_TEMP, 12, 1, .RO, 0⟩
/-! Fields of spec/14_power.md (R340). -/
abbrev PW_CTL_REQ : Fld := ⟨.PW_CTL, 0, 3, .WO, 0⟩
abbrev PW_STS_DEV : Fld := ⟨.PW_STS, 0, 3, .RO, 1⟩
abbrev PW_STS_BUSY : Fld := ⟨.PW_STS, 3, 1, .RO, 0⟩
abbrev PW_STS_TARGET : Fld := ⟨.PW_STS, 4, 3, .RO, 0⟩
abbrev PW_STS_PEND : Fld := ⟨.PW_STS, 7, 3, .RO, 0⟩
abbrev PW_STS_PARTIAL : Fld := ⟨.PW_STS, 10, 1, .RO, 0⟩
abbrev PW_STS_HELDF : Fld := ⟨.PW_STS, 11, 1, .W1C, 0⟩
abbrev PW_STS_OFFACC : Fld := ⟨.PW_STS, 12, 1, .W1C, 0⟩
abbrev PW_STS_STEP : Fld := ⟨.PW_STS, 13, 3, .RO, 0⟩
abbrev PW_STS_QREQ : Fld := ⟨.PW_STS, 16, 1, .RO, 0⟩
abbrev PW_HOLDREP_DELAY : Fld := ⟨.PW_HOLDREP, 0, 16, .RW, 10⟩
abbrev PW_HELD_ROW : Fld := ⟨.PW_HELD, 0, 7, .RO, 0⟩
abbrev PW_HELD_COUNT : Fld := ⟨.PW_HELD, 8, 7, .RO, 0⟩
abbrev PW_HELD_VALID : Fld := ⟨.PW_HELD, 31, 1, .W1C, 0⟩
abbrev PW_HELD_CLO_CLO : Fld := ⟨.PW_HELD_CLO, 0, 32, .RO, 0⟩
abbrev PW_HELD_CHI_CHI : Fld := ⟨.PW_HELD_CHI, 0, 32, .RO, 0⟩
abbrev PW_LASTWAKE_SRC : Fld := ⟨.PW_LASTWAKE, 0, 3, .RO, 0⟩
abbrev PW_LASTWAKE_REPLAY : Fld := ⟨.PW_LASTWAKE, 3, 1, .RO, 0⟩
abbrev PW_LASTWAKE_FROM : Fld := ⟨.PW_LASTWAKE, 4, 3, .RO, 0⟩
abbrev PW_LASTWAKE_COURSE : Fld := ⟨.PW_LASTWAKE, 8, 9, .RO, 0⟩
abbrev PW_LASTWAKE_TIMER : Fld := ⟨.PW_LASTWAKE, 17, 2, .RO, 0⟩
abbrev PW_WAKEEN_ADDR : Fld := ⟨.PW_WAKEEN, 0, 1, .RW, 1⟩
abbrev PW_WAKEEN_WAKEN : Fld := ⟨.PW_WAKEEN, 1, 1, .RW, 1⟩
abbrev PW_WAKEEN_SIGDET : Fld := ⟨.PW_WAKEEN, 2, 1, .RW, 0⟩
abbrev PW_WAKEEN_PPS : Fld := ⟨.PW_WAKEEN, 3, 1, .RW, 0⟩
abbrev PW_WAKEEN_TAMPER : Fld := ⟨.PW_WAKEEN, 4, 1, .RO, 1⟩
abbrev PW_WAKEEN_COURSE : Fld := ⟨.PW_WAKEEN, 8, 9, .RW, 0⟩
abbrev PW_PADREL_REL : Fld := ⟨.PW_PADREL, 0, 4, .WO, 0⟩
abbrev PW_PADREL_HELD : Fld := ⟨.PW_PADREL, 8, 4, .RO, 0⟩
abbrev PW_NAPSET_ROWS : Fld := ⟨.PW_NAPSET, 0, 32, .RW, 0⟩
abbrev PW_ACTSET_ROWS : Fld := ⟨.PW_ACTSET, 0, 32, .RW, 0⟩
abbrev PW_HVOTE_ROWS : Fld := ⟨.PW_HVOTE, 0, 32, .RW, 0⟩
abbrev PW_ETIM_CTL_EN : Fld := ⟨.PW_ETIM_CTL, 0, 1, .RW, 0⟩
abbrev PW_ETIM_CTL_WAKE : Fld := ⟨.PW_ETIM_CTL, 1, 1, .RW, 0⟩
abbrev PW_ETIM_CTL_FIRED : Fld := ⟨.PW_ETIM_CTL, 2, 1, .W1C, 0⟩
abbrev PW_ETIM_CNT_CNT : Fld := ⟨.PW_ETIM_CNT, 0, 32, .RW, 0⟩
abbrev PW_DOM_STATE : Fld := ⟨.PW_DOM, 0, 2, .RO, 0⟩
abbrev PW_DOM_TRANS : Fld := ⟨.PW_DOM, 2, 1, .RO, 0⟩
abbrev PW_DOM_IDLE : Fld := ⟨.PW_DOM, 3, 1, .RW, 0⟩
abbrev PW_DOM_VWAIT : Fld := ⟨.PW_DOM, 4, 1, .RO, 0⟩
abbrev PW_DOM_VSET : Fld := ⟨.PW_DOM, 16, 8, .RW, 0⟩
abbrev PW_DOM_VNOW : Fld := ⟨.PW_DOM, 24, 8, .RO, 0⟩
abbrev PW_VB_LO_LO : Fld := ⟨.PW_VB_LO, 0, 32, .RO, 0⟩
abbrev PW_VB_HI_HI : Fld := ⟨.PW_VB_HI, 0, 32, .RO, 0⟩
/-! Fields of spec/15_boot_configuration.md (R358). -/
abbrev CF_STATUS_CODE : Fld := ⟨.CF_STATUS, 0, 8, .RO, 13⟩
abbrev CF_STATUS_IMAGE : Fld := ⟨.CF_STATUS, 8, 2, .RO, 0⟩
abbrev CF_STATUS_YEALM : Fld := ⟨.CF_STATUS, 10, 10, .RO, 0⟩
abbrev CF_STS_BOOT_SEL : Fld := ⟨.CF_STS, 0, 2, .RO, 0⟩
abbrev CF_STS_PROFILE : Fld := ⟨.CF_STS, 2, 3, .RO, 0⟩
abbrev CF_STS_ADDR_SEL : Fld := ⟨.CF_STS, 5, 3, .RO, 0⟩
abbrev CF_STS_BARE : Fld := ⟨.CF_STS, 8, 1, .RO, 0⟩
abbrev CF_STS_FULL : Fld := ⟨.CF_STS, 9, 1, .RO, 0⟩
abbrev CF_STS_LOADING : Fld := ⟨.CF_STS, 10, 1, .RO, 0⟩
abbrev CF_STS_DEVKEY : Fld := ⟨.CF_STS, 11, 1, .RO, 0⟩
abbrev CF_STS_FAULTS : Fld := ⟨.CF_STS, 12, 1, .W1C, 0⟩
abbrev CF_RES_CODE : Fld := ⟨.CF_RES, 0, 8, .RO, 13⟩
abbrev CF_RES_YEALM : Fld := ⟨.CF_RES, 8, 10, .RO, 0⟩
abbrev CF_ITEM_ITEM : Fld := ⟨.CF_ITEM, 0, 32, .RO, 0⟩
abbrev CF_FLASH_MODE : Fld := ⟨.CF_FLASH, 0, 2, .RO, 0⟩
abbrev CF_FLASH_FREQ : Fld := ⟨.CF_FLASH, 2, 8, .RO, 0⟩
abbrev CF_FLASH_DENSITY : Fld := ⟨.CF_FLASH, 10, 6, .RO, 0⟩
abbrev CF_BUILD_LO_V : Fld := ⟨.CF_BUILD_LO, 0, 32, .RO, 0⟩
abbrev CF_BUILD_HI_V : Fld := ⟨.CF_BUILD_HI, 0, 32, .RO, 0⟩
abbrev CF_VERSION_V : Fld := ⟨.CF_VERSION, 0, 32, .RO, 0⟩
abbrev CF_TBARE_V : Fld := ⟨.CF_TBARE, 0, 32, .RO, 0⟩
abbrev CF_TFULL_V : Fld := ⟨.CF_TFULL, 0, 32, .RO, 0⟩
abbrev CF_CMD_OP : Fld := ⟨.CF_CMD, 0, 3, .WO, 0⟩
abbrev CF_CMD_SLOT : Fld := ⟨.CF_CMD, 4, 2, .WO, 0⟩
abbrev CF_CMDSTS_BUSY : Fld := ⟨.CF_CMDSTS, 0, 1, .RO, 0⟩
abbrev CF_CMDSTS_RESULT : Fld := ⟨.CF_CMDSTS, 1, 3, .RO, 0⟩
abbrev CF_KEYSTS_SLOTS : Fld := ⟨.CF_KEYSTS, 0, 8, .RO, 0⟩
abbrev CF_RCV_STS_SPACE : Fld := ⟨.CF_RCV_STS, 0, 11, .RO, 0⟩
abbrev CF_RCV_STS_ACTIVE : Fld := ⟨.CF_RCV_STS, 11, 1, .RO, 0⟩
abbrev CF_RCV_CNT_COUNT : Fld := ⟨.CF_RCV_CNT, 0, 32, .RO, 0⟩
abbrev CF_KEYH_HASH : Fld := ⟨.CF_KEYH, 0, 32, .RW, 0⟩
abbrev CF_RCV_DATA_DATA : Fld := ⟨.CF_RCV_DATA, 0, 32, .WO, 0⟩
/-! Fields of spec/17_management_registers.md (R379). -/
abbrev TG_UL_CMD_OP : Fld := ⟨.TG_UL_CMD, 0, 3, .WO, 0⟩
abbrev TG_UL_REQ_DUR : Fld := ⟨.TG_UL_REQ, 0, 16, .RW, 0⟩
abbrev TG_UL_STS_STATE : Fld := ⟨.TG_UL_STS, 0, 2, .RO, 0⟩
abbrev TG_UL_STS_BUSY : Fld := ⟨.TG_UL_STS, 2, 1, .RO, 0⟩
abbrev TG_UL_STS_RESULT : Fld := ⟨.TG_UL_STS, 3, 3, .RO, 0⟩
abbrev TG_UL_STS_FAILS : Fld := ⟨.TG_UL_STS, 8, 8, .RO, 0⟩
abbrev TG_UL_LEFT_LEFT : Fld := ⟨.TG_UL_LEFT, 0, 32, .RO, 0⟩
abbrev TG_UL_CHAL_NONCE : Fld := ⟨.TG_UL_CHAL, 0, 32, .RO, 0⟩
abbrev TG_UL_RESP_TAG : Fld := ⟨.TG_UL_RESP, 0, 32, .WO, 0⟩
abbrev TG_UL_GKEY_KEY : Fld := ⟨.TG_UL_GKEY, 0, 32, .WO, 0⟩
/-! Fields of spec/10_purlin_transactions.md (R268). -/
abbrev TG_CMD_OP : Fld := ⟨.TG_CMD, 0, 3, .WO, 0⟩
abbrev TG_CMD_SLOT : Fld := ⟨.TG_CMD, 8, 4, .WO, 0⟩
abbrev TG_CMD_MODE : Fld := ⟨.TG_CMD, 12, 2, .WO, 0⟩
abbrev TG_CMD_COURSE : Fld := ⟨.TG_CMD, 16, 9, .WO, 0⟩
abbrev TG_RES_CODE : Fld := ⟨.TG_RES, 0, 4, .RO, 0⟩
abbrev TG_RES_SLOT : Fld := ⟨.TG_RES, 8, 4, .RO, 0⟩
abbrev TG_ADDR_ADDR : Fld := ⟨.TG_ADDR, 2, 22, .RW, 0⟩
abbrev TG_DATA_DATA : Fld := ⟨.TG_DATA, 0, 32, .RW, 0⟩
abbrev TG_MASK_MASK : Fld := ⟨.TG_MASK, 0, 32, .RW, 0⟩
abbrev TG_CNT_COMMIT_COUNT : Fld := ⟨.TG_CNT_COMMIT, 0, 32, .RC, 0⟩
abbrev TG_CNT_ABORT_COUNT : Fld := ⟨.TG_CNT_ABORT, 0, 32, .RC, 0⟩
abbrev TG_SLOT_STS_STATE : Fld := ⟨.TG_SLOT_STS, 0, 2, .RO, 0⟩
abbrev TG_SLOT_STS_OUTCOME : Fld := ⟨.TG_SLOT_STS, 3, 3, .RO, 0⟩
abbrev TG_SLOT_STS_OWNER : Fld := ⟨.TG_SLOT_STS, 6, 2, .RO, 0⟩
abbrev TG_SLOT_STS_COUNT : Fld := ⟨.TG_SLOT_STS, 8, 9, .RO, 0⟩
abbrev TG_SLOT_STS_MODE : Fld := ⟨.TG_SLOT_STS, 17, 2, .RO, 0⟩
abbrev TG_SLOT_STS_COURSE : Fld := ⟨.TG_SLOT_STS, 19, 9, .RO, 0⟩
abbrev TG_SLOT_CONF_ADDR : Fld := ⟨.TG_SLOT_CONF, 0, 24, .RO, 0⟩
abbrev TG_SLOT_CONF_VALID : Fld := ⟨.TG_SLOT_CONF, 31, 1, .RO, 0⟩
/-! Fields of spec/13_self_test_snapshot.md (R319). -/
abbrev SN_CTL_INPOL : Fld := ⟨.SN_CTL, 0, 1, .RW, 0⟩
abbrev SN_CTL_OUTSEL : Fld := ⟨.SN_CTL, 1, 2, .RW, 2⟩
abbrev SN_CTL_MATCH_EN : Fld := ⟨.SN_CTL, 3, 1, .RW, 0⟩
abbrev SN_SRCEN_EN : Fld := ⟨.SN_SRCEN, 1, 8, .RW, 0⟩
abbrev SN_FIRE_FIRE : Fld := ⟨.SN_FIRE, 0, 1, .WO, 0⟩
abbrev SN_LAST_MASK : Fld := ⟨.SN_LAST, 1, 8, .RO, 0⟩
abbrev SN_LAST_LATE : Fld := ⟨.SN_LAST, 9, 8, .RO, 0⟩
abbrev SN_LAST_SEQ : Fld := ⟨.SN_LAST, 17, 15, .RO, 0⟩
abbrev SN_TAG_S_LO_V : Fld := ⟨.SN_TAG_S_LO, 0, 32, .RO, 0⟩
abbrev SN_TAG_S_HI_V : Fld := ⟨.SN_TAG_S_HI, 0, 16, .RO, 0⟩
abbrev SN_TAG_S_HI_NOTB : Fld := ⟨.SN_TAG_S_HI, 31, 1, .RO, 0⟩
abbrev SN_TAG_NS_V : Fld := ⟨.SN_TAG_NS, 0, 30, .RO, 0⟩
abbrev SN_TAG_FRAC_V : Fld := ⟨.SN_TAG_FRAC, 0, 16, .RO, 0⟩
abbrev SN_MATCH_S_LO_V : Fld := ⟨.SN_MATCH_S_LO, 0, 32, .RW, 0⟩
abbrev SN_MATCH_S_HI_V : Fld := ⟨.SN_MATCH_S_HI, 0, 16, .RW, 0⟩
abbrev SN_MATCH_NS_V : Fld := ⟨.SN_MATCH_NS, 0, 30, .RW, 0⟩
abbrev SN_LOLMASK_MASK : Fld := ⟨.SN_LOLMASK, 0, 32, .RW, 0⟩
abbrev SN_CNT_EVT_COUNT : Fld := ⟨.SN_CNT_EVT, 0, 32, .RC, 0⟩
abbrev SN_CNT_MERGED_COUNT : Fld := ⟨.SN_CNT_MERGED, 0, 32, .RC, 0⟩
abbrev SN_ARMALL_ARM : Fld := ⟨.SN_ARMALL, 0, 1, .W1S, 0⟩
abbrev SN_BSLOT_ARMED : Fld := ⟨.SN_BSLOT, 0, 1, .W1S, 0⟩
abbrev SN_BSLOT_VALID : Fld := ⟨.SN_BSLOT, 1, 1, .RO, 0⟩
abbrev SN_BSLOT_SRC : Fld := ⟨.SN_BSLOT, 2, 4, .RO, 0⟩
abbrev SN_SEL_ID : Fld := ⟨.SN_SEL, 0, 12, .RW, 0⟩
abbrev SN_SEL_BLOCK : Fld := ⟨.SN_SEL, 12, 1, .RW, 0⟩
abbrev SN_DATA_DATA : Fld := ⟨.SN_DATA, 0, 32, .RO, 0⟩
abbrev ST_MCMD_OP : Fld := ⟨.ST_MCMD, 0, 2, .WO, 0⟩
abbrev ST_MCMD_LOOP : Fld := ⟨.ST_MCMD, 2, 1, .RW, 0⟩
abbrev ST_MCMD_STOPFAIL : Fld := ⟨.ST_MCMD, 3, 1, .RW, 0⟩
abbrev ST_MCMD_GAP : Fld := ⟨.ST_MCMD, 8, 8, .RW, 0⟩
abbrev ST_MSTART_FIRST : Fld := ⟨.ST_MSTART, 8, 19, .RW, 0⟩
abbrev ST_MEND_LAST : Fld := ⟨.ST_MEND, 8, 19, .RW, 524287⟩
abbrev ST_MSTS_STATE : Fld := ⟨.ST_MSTS, 0, 2, .RO, 0⟩
abbrev ST_MSTS_RESULT : Fld := ⟨.ST_MSTS, 2, 3, .RO, 0⟩
abbrev ST_MSTS_DONE : Fld := ⟨.ST_MSTS, 5, 1, .W1C, 0⟩
abbrev ST_MSTS_PASSES : Fld := ⟨.ST_MSTS, 8, 16, .RO, 0⟩
abbrev ST_MPROG_BLOCK : Fld := ⟨.ST_MPROG, 8, 19, .RO, 0⟩
abbrev ST_MSKIP_COUNT : Fld := ⟨.ST_MSKIP, 0, 32, .RC, 0⟩
abbrev ST_MFAIL_ADDR_ADDR : Fld := ⟨.ST_MFAIL_ADDR, 0, 27, .RO, 0⟩
abbrev ST_MFAIL_ADDR_VALID : Fld := ⟨.ST_MFAIL_ADDR, 31, 1, .W1C, 0⟩
abbrev ST_MFAIL_BIT_BIT : Fld := ⟨.ST_MFAIL_BIT, 0, 9, .RO, 0⟩
abbrev ST_MFAIL_BIT_MULTI : Fld := ⟨.ST_MFAIL_BIT, 9, 1, .RO, 0⟩
abbrev ST_MFAIL_CNT_COUNT : Fld := ⟨.ST_MFAIL_CNT, 0, 32, .RC, 0⟩
abbrev ST_MREP_CMD_BANK : Fld := ⟨.ST_MREP_CMD, 0, 9, .WO, 0⟩
abbrev ST_MREP_CMD_KIND : Fld := ⟨.ST_MREP_CMD, 9, 1, .WO, 0⟩
abbrev ST_MREP_CMD_INDEX : Fld := ⟨.ST_MREP_CMD, 16, 13, .WO, 0⟩
abbrev ST_MREP_CMD_OP : Fld := ⟨.ST_MREP_CMD, 30, 2, .WO, 0⟩
abbrev ST_MREP_STS_BUSY : Fld := ⟨.ST_MREP_STS, 0, 1, .RO, 0⟩
abbrev ST_MREP_STS_RESULT : Fld := ⟨.ST_MREP_STS, 1, 3, .RO, 0⟩
abbrev ST_MREP_STS_ROWS_LEFT : Fld := ⟨.ST_MREP_STS, 4, 3, .RO, 0⟩
abbrev ST_MREP_STS_COLS_LEFT : Fld := ⟨.ST_MREP_STS, 7, 2, .RO, 0⟩
abbrev ST_LCMD_REGION : Fld := ⟨.ST_LCMD, 0, 6, .WO, 0⟩
abbrev ST_LCMD_OP : Fld := ⟨.ST_LCMD, 6, 2, .WO, 0⟩
abbrev ST_LCMD_NPAT : Fld := ⟨.ST_LCMD, 8, 5, .WO, 0⟩
abbrev ST_LSTS_BUSY : Fld := ⟨.ST_LSTS, 0, 1, .RO, 0⟩
abbrev ST_LSTS_RESULT : Fld := ⟨.ST_LSTS, 1, 3, .RO, 0⟩
abbrev ST_LSTS_DONE : Fld := ⟨.ST_LSTS, 4, 1, .W1C, 0⟩
abbrev ST_LSTS_REGION : Fld := ⟨.ST_LSTS, 8, 6, .RO, 0⟩
abbrev ST_LSIG_SIG : Fld := ⟨.ST_LSIG, 0, 32, .RO, 0⟩
abbrev ST_LEXP_EXP : Fld := ⟨.ST_LEXP, 0, 32, .RO, 0⟩
abbrev ST_LCNT_COUNT : Fld := ⟨.ST_LCNT, 0, 21, .RO, 0⟩
/-! Fields of spec/12_calibration.md (R288). -/
abbrev CL_CMD_OP : Fld := ⟨.CL_CMD, 0, 3, .WO, 0⟩
abbrev CL_CMD_KIND : Fld := ⟨.CL_CMD, 4, 3, .WO, 0⟩
abbrev CL_CMD_TARGET : Fld := ⟨.CL_CMD, 8, 8, .WO, 0⟩
abbrev CL_CMD_NOWAIT : Fld := ⟨.CL_CMD, 16, 1, .WO, 0⟩
abbrev CL_CMD_APPLY : Fld := ⟨.CL_CMD, 17, 1, .WO, 0⟩
abbrev CL_CMD_REPEAT : Fld := ⟨.CL_CMD, 18, 3, .WO, 0⟩
abbrev CL_CMD_PARAM : Fld := ⟨.CL_CMD, 24, 5, .WO, 0⟩
abbrev CL_STS_STATE : Fld := ⟨.CL_STS, 0, 2, .RO, 0⟩
abbrev CL_STS_CODE : Fld := ⟨.CL_STS, 2, 4, .RO, 0⟩
abbrev CL_STS_WREJ : Fld := ⟨.CL_STS, 6, 1, .W1C, 0⟩
abbrev CL_STS_DONE : Fld := ⟨.CL_STS, 7, 1, .W1C, 0⟩
abbrev CL_STS_RUNS : Fld := ⟨.CL_STS, 8, 4, .RO, 0⟩
abbrev CL_STS_PCOND : Fld := ⟨.CL_STS, 12, 4, .RO, 0⟩
abbrev CL_RES_RES : Fld := ⟨.CL_RES, 0, 32, .RW, 0⟩
abbrev CL_SPREAD_SPREAD : Fld := ⟨.CL_SPREAD, 0, 16, .RO, 0⟩
abbrev CL_SPREAD_FIELD : Fld := ⟨.CL_SPREAD, 16, 5, .RO, 0⟩
abbrev CL_VCAL_VCAL : Fld := ⟨.CL_VCAL, 0, 16, .RO, 0⟩
abbrev CL_CALREF_PHASE : Fld := ⟨.CL_CALREF, 0, 16, .RO, 0⟩
abbrev CL_CALREF_PRESENT : Fld := ⟨.CL_CALREF, 16, 1, .RO, 0⟩
abbrev CL_CALREF_PPSPRES : Fld := ⟨.CL_CALREF, 17, 1, .RO, 0⟩
abbrev CL_CALREF_FOFS : Fld := ⟨.CL_CALREF, 20, 12, .RO, 0⟩
abbrev CL_PDT_SEL_UNIT : Fld := ⟨.CL_PDT_SEL, 0, 7, .RW, 0⟩
abbrev CL_PDT_SEL_RATE : Fld := ⟨.CL_PDT_SEL, 8, 5, .RW, 0⟩
abbrev CL_PDT_SEL_DIR : Fld := ⟨.CL_PDT_SEL, 16, 1, .RW, 0⟩
abbrev CL_PDT_DATA_DELAY : Fld := ⟨.CL_PDT_DATA, 0, 24, .RO, 0⟩
/-! Fields of spec/01_architecture.md (R27). -/
abbrev UD_IDENT_ID : Fld := ⟨.UD_IDENT, 0, 12, .RO, 0⟩
abbrev UD_IDENT_KIND : Fld := ⟨.UD_IDENT, 12, 4, .RO, 0⟩
abbrev UD_IDENT_PARENT : Fld := ⟨.UD_IDENT, 16, 12, .RO, 0⟩
abbrev UD_IDENT_POLICY : Fld := ⟨.UD_IDENT, 28, 2, .RO, 0⟩
abbrev UD_IDENT_AUTO : Fld := ⟨.UD_IDENT, 30, 1, .RO, 0⟩
abbrev UD_STATE_KSTATE : Fld := ⟨.UD_STATE, 0, 4, .RO, 0⟩
abbrev UD_STATE_HEALTH : Fld := ⟨.UD_STATE, 4, 3, .RO, 3⟩
abbrev UD_STATE_QUORUM : Fld := ⟨.UD_STATE, 8, 8, .RO, 0⟩
abbrev UD_STATE_ACTIVE : Fld := ⟨.UD_STATE, 16, 12, .RO, 0⟩
abbrev UD_LINKS_FIRST_CHILD : Fld := ⟨.UD_LINKS, 0, 12, .RO, 0⟩
abbrev UD_LINKS_NEXT_SIB : Fld := ⟨.UD_LINKS, 16, 12, .RO, 0⟩
abbrev UD_VOTE_DOMAIN : Fld := ⟨.UD_VOTE, 0, 7, .RO, 0⟩
abbrev UD_VOTE_CLIENT : Fld := ⟨.UD_VOTE, 8, 6, .RO, 0⟩
abbrev UD_VOTE_HELD : Fld := ⟨.UD_VOTE, 15, 1, .RO, 0⟩
abbrev UD_VOTE_HOLDERS : Fld := ⟨.UD_VOTE, 16, 7, .RO, 0⟩
abbrev UD_FAULT_FCODE : Fld := ⟨.UD_FAULT, 0, 8, .RO, 0⟩
abbrev UD_FAULT_FLATCH : Fld := ⟨.UD_FAULT, 8, 1, .W1C, 0⟩
abbrev UD_SNAP_ARMED : Fld := ⟨.UD_SNAP, 0, 1, .W1S, 0⟩
abbrev UD_SNAP_VALID : Fld := ⟨.UD_SNAP, 1, 1, .RO, 0⟩
abbrev UD_SNAP_SRC : Fld := ⟨.UD_SNAP, 2, 4, .RO, 0⟩
abbrev UD_EVENTS_EVENTS : Fld := ⟨.UD_EVENTS, 0, 32, .RC, 0⟩
abbrev UD_INDEX_INDEX : Fld := ⟨.UD_INDEX, 0, 16, .RO, 0⟩
/-! Fields of spec/02_lane_tier.md (R67). -/
abbrev LN_PLL_CTL_FAMILY : Fld := ⟨.LN_PLL_CTL, 0, 4, .RO, 0⟩
abbrev LN_PLL_CTL_REFSEL : Fld := ⟨.LN_PLL_CTL, 4, 1, .RO, 0⟩
abbrev LN_PLL_CTL_NDIV : Fld := ⟨.LN_PLL_CTL, 8, 10, .RO, 0⟩
abbrev LN_PLL_STS_LOCK : Fld := ⟨.LN_PLL_STS, 0, 1, .RO, 0⟩
abbrev LN_PLL_STS_LOL : Fld := ⟨.LN_PLL_STS, 1, 1, .W1C, 0⟩
abbrev LN_PLL_STS_REFLOS : Fld := ⟨.LN_PLL_STS, 2, 1, .RO, 0⟩
abbrev LN_PLL_STS_SPREAD : Fld := ⟨.LN_PLL_STS, 3, 1, .RO, 0⟩
abbrev LN_PLL_STS_REFUSED : Fld := ⟨.LN_PLL_STS, 4, 1, .RO, 0⟩
abbrev LN_PLL_STS_DOWN : Fld := ⟨.LN_PLL_STS, 5, 1, .RO, 0⟩
abbrev LN_PLL_STS_SPREAD_PPM : Fld := ⟨.LN_PLL_STS, 8, 8, .RO, 0⟩
abbrev LN_PLL_STS_REFID : Fld := ⟨.LN_PLL_STS, 16, 4, .RO, 0⟩
abbrev LN_IDLE_TQ_TQ : Fld := ⟨.LN_IDLE_TQ, 0, 16, .RW, 30000⟩
abbrev LN_FS_STS_OWNER : Fld := ⟨.LN_FS_STS, 0, 2, .RO, 0⟩
abbrev LN_FS_STS_SHADOW : Fld := ⟨.LN_FS_STS, 2, 1, .RO, 0⟩
abbrev LN_FS_STS_CARRY : Fld := ⟨.LN_FS_STS, 3, 1, .RO, 0⟩
abbrev LN_FS_STS_PAD : Fld := ⟨.LN_FS_STS, 4, 3, .RO, 0⟩
abbrev LN_FS_STS_FAULT : Fld := ⟨.LN_FS_STS, 7, 1, .RO, 0⟩
abbrev LN_STS_KSTATE : Fld := ⟨.LN_STS, 0, 4, .RO, 0⟩
abbrev LN_STS_SIGDET : Fld := ⟨.LN_STS, 4, 1, .RO, 0⟩
abbrev LN_STS_LOCK : Fld := ⟨.LN_STS, 5, 1, .RO, 0⟩
abbrev LN_STS_ON_FS : Fld := ⟨.LN_STS, 6, 1, .RO, 0⟩
abbrev LN_STS_PLLSEL : Fld := ⟨.LN_STS, 7, 1, .RO, 0⟩
abbrev LN_STS_WREJ : Fld := ⟨.LN_STS, 8, 1, .W1C, 0⟩
abbrev LN_STS_POL_DET : Fld := ⟨.LN_STS, 9, 1, .RO, 0⟩
abbrev LN_CTL_SWING : Fld := ⟨.LN_CTL, 0, 7, .RW, 80⟩
abbrev LN_CTL_MANUAL : Fld := ⟨.LN_CTL, 8, 1, .RW, 0⟩
abbrev LN_CTL_TX_INV : Fld := ⟨.LN_CTL, 9, 1, .RW, 0⟩
abbrev LN_CTL_RX_INV : Fld := ⟨.LN_CTL, 10, 1, .RW, 0⟩
abbrev LN_CTL_FORCE_SQ : Fld := ⟨.LN_CTL, 11, 1, .RW, 0⟩
abbrev LN_TX_FFE_CM3 : Fld := ⟨.LN_TX_FFE, 0, 4, .RW, 0⟩
abbrev LN_TX_FFE_CM2 : Fld := ⟨.LN_TX_FFE, 4, 5, .RW, 0⟩
abbrev LN_TX_FFE_CM1 : Fld := ⟨.LN_TX_FFE, 9, 6, .RW, 58⟩
abbrev LN_TX_FFE_C0 : Fld := ⟨.LN_TX_FFE, 15, 7, .RW, 52⟩
abbrev LN_TX_FFE_CP1 : Fld := ⟨.LN_TX_FFE, 22, 6, .RW, 58⟩
abbrev LN_RX_EQ_CTLE : Fld := ⟨.LN_RX_EQ, 0, 6, .RW, 16⟩
abbrev LN_RX_EQ_ADAPT : Fld := ⟨.LN_RX_EQ, 6, 2, .RW, 0⟩
abbrev LN_RX_EQ_FFE_EN : Fld := ⟨.LN_RX_EQ, 8, 1, .RO, 0⟩
abbrev LN_RX_DFE_TAPA : Fld := ⟨.LN_RX_DFE, 0, 8, .RW, 0⟩
abbrev LN_RX_DFE_TAPB : Fld := ⟨.LN_RX_DFE, 8, 8, .RW, 0⟩
abbrev LN_RX_DFE_TAPC : Fld := ⟨.LN_RX_DFE, 16, 8, .RW, 0⟩
abbrev LN_RX_DFE_TAPD : Fld := ⟨.LN_RX_DFE, 24, 8, .RW, 0⟩
abbrev LN_RX_FFE_SEL_TAP : Fld := ⟨.LN_RX_FFE_SEL, 0, 5, .RW, 0⟩
abbrev LN_RX_FFE_DATA_VALUE : Fld := ⟨.LN_RX_FFE_DATA, 0, 10, .RW, 0⟩
abbrev LN_CNT_DISP_COUNT : Fld := ⟨.LN_CNT_DISP, 0, 32, .RC, 0⟩
abbrev LN_CNT_INV_COUNT : Fld := ⟨.LN_CNT_INV, 0, 32, .RC, 0⟩
abbrev LN_CNT_SHDR_COUNT : Fld := ⟨.LN_CNT_SHDR, 0, 32, .RC, 0⟩
abbrev LN_CNT_FECSYM_COUNT : Fld := ⟨.LN_CNT_FECSYM, 0, 32, .RC, 0⟩
abbrev LN_CNT_LOL_COUNT : Fld := ⟨.LN_CNT_LOL, 0, 32, .RC, 0⟩
abbrev LN_CNT_RESCUE_COUNT : Fld := ⟨.LN_CNT_RESCUE, 0, 32, .RC, 0⟩
abbrev LN_CNT_IDLE_COUNT : Fld := ⟨.LN_CNT_IDLE, 0, 32, .RC, 0⟩
/-! Fields of spec/13_self_test_snapshot.md (R319). -/
abbrev LN_PT_CTL_EN : Fld := ⟨.LN_PT_CTL, 0, 1, .RW, 0⟩
abbrev LN_PT_CTL_PAT : Fld := ⟨.LN_PT_CTL, 1, 3, .RW, 0⟩
abbrev LN_PT_CTL_LOOP : Fld := ⟨.LN_PT_CTL, 4, 2, .RW, 0⟩
abbrev LN_PT_CTL_GEN : Fld := ⟨.LN_PT_CTL, 6, 1, .RW, 0⟩
abbrev LN_PT_CTL_CHK : Fld := ⟨.LN_PT_CTL, 7, 1, .RW, 0⟩
abbrev LN_PT_CTL_RATE : Fld := ⟨.LN_PT_CTL, 8, 5, .RW, 0⟩
abbrev LN_PT_CTL_INV : Fld := ⟨.LN_PT_CTL, 13, 1, .RW, 0⟩
abbrev LN_PT_CTL_TRIGERR : Fld := ⟨.LN_PT_CTL, 14, 1, .RW, 0⟩
abbrev LN_PT_STS_STATE : Fld := ⟨.LN_PT_STS, 0, 2, .RO, 0⟩
abbrev LN_PT_STS_RESULT : Fld := ⟨.LN_PT_STS, 2, 3, .RO, 0⟩
abbrev LN_PT_STS_DONE : Fld := ⟨.LN_PT_STS, 5, 1, .W1C, 0⟩
abbrev LN_PT_STS_SLIP : Fld := ⟨.LN_PT_STS, 6, 1, .W1C, 0⟩
abbrev LN_PT_STS_RESYNC : Fld := ⟨.LN_PT_STS, 8, 8, .RO, 0⟩
abbrev LN_PT_ERR_ERR : Fld := ⟨.LN_PT_ERR, 0, 32, .RO, 0⟩
abbrev LN_PT_BITS_LO_V : Fld := ⟨.LN_PT_BITS_LO, 0, 32, .RO, 0⟩
abbrev LN_PT_BITS_HI_V : Fld := ⟨.LN_PT_BITS_HI, 0, 32, .RO, 0⟩
/-! Fields of spec/03_courses_datapaths.md (R91). -/
abbrev CS_CTL_ENABLE : Fld := ⟨.CS_CTL, 0, 1, .RO, 0⟩
abbrev CS_CTL_MODE : Fld := ⟨.CS_CTL, 1, 2, .RO, 0⟩
abbrev CS_CTL_PROTO : Fld := ⟨.CS_CTL, 3, 2, .RO, 0⟩
abbrev CS_CTL_ROLE : Fld := ⟨.CS_CTL, 5, 2, .RO, 0⟩
abbrev CS_CTL_TIMING : Fld := ⟨.CS_CTL, 7, 1, .RO, 0⟩
abbrev CS_CTL_EEE : Fld := ⟨.CS_CTL, 8, 1, .RO, 0⟩
abbrev CS_CTL_AN : Fld := ⟨.CS_CTL, 9, 1, .RO, 0⟩
abbrev CS_CTL_REVERSE : Fld := ⟨.CS_CTL, 10, 1, .RO, 0⟩
abbrev CS_CTL_VIA_FABRIC : Fld := ⟨.CS_CTL, 11, 1, .RO, 0⟩
abbrev CS_CTL_BOOTPROF : Fld := ⟨.CS_CTL, 12, 1, .RO, 0⟩
abbrev CS_RATE_RATE : Fld := ⟨.CS_RATE, 0, 8, .RO, 0⟩
abbrev CS_RATE_RMIN : Fld := ⟨.CS_RATE, 8, 8, .RO, 0⟩
abbrev CS_RATE_RMAX : Fld := ⟨.CS_RATE, 16, 8, .RO, 0⟩
abbrev CS_RATE_FEC : Fld := ⟨.CS_RATE, 24, 2, .RO, 0⟩
abbrev CS_LANES_LANES : Fld := ⟨.CS_LANES, 0, 32, .RO, 0⟩
abbrev CS_CTX_REGION : Fld := ⟨.CS_CTX, 0, 6, .RO, 0⟩
abbrev CS_CTX_CTX_VALID : Fld := ⟨.CS_CTX, 7, 1, .RO, 0⟩
abbrev CS_CTX_CTX : Fld := ⟨.CS_CTX, 8, 6, .RO, 0⟩
abbrev CS_CTX_PAGED : Fld := ⟨.CS_CTX, 14, 1, .RO, 0⟩
abbrev CS_CTX_SVC : Fld := ⟨.CS_CTX, 16, 12, .RO, 0⟩
abbrev CS_STS_KSTATE : Fld := ⟨.CS_STS, 0, 4, .RO, 0⟩
abbrev CS_STS_FCODE : Fld := ⟨.CS_STS, 4, 8, .RO, 0⟩
abbrev CS_STS_SEGA : Fld := ⟨.CS_STS, 12, 3, .RO, 0⟩
abbrev CS_STS_SEGB : Fld := ⟨.CS_STS, 15, 3, .RO, 0⟩
abbrev CS_STS_BACKOFF : Fld := ⟨.CS_STS, 18, 3, .RO, 0⟩
abbrev CS_STS_ON_FS : Fld := ⟨.CS_STS, 21, 1, .RO, 0⟩
abbrev CS_STS_NDEG : Fld := ⟨.CS_STS, 22, 7, .RO, 0⟩
abbrev CS_LAT_LAT : Fld := ⟨.CS_LAT, 0, 24, .RO, 0⟩
abbrev CS_LAT_VALID : Fld := ⟨.CS_LAT, 31, 1, .RO, 0⟩
abbrev CS_SKEW_SKEW_AB : Fld := ⟨.CS_SKEW, 0, 16, .RO, 0⟩
abbrev CS_SKEW_SKEW_BA : Fld := ⟨.CS_SKEW, 16, 16, .RO, 0⟩
abbrev CS_TCHG_S_SEC : Fld := ⟨.CS_TCHG_S, 0, 32, .RO, 0⟩
abbrev CS_TCHG_NS_NSEC : Fld := ⟨.CS_TCHG_NS, 0, 30, .RO, 0⟩
abbrev CS_CNT_DEG_COUNT : Fld := ⟨.CS_CNT_DEG, 0, 32, .RC, 0⟩
abbrev CS_CNT_TRAIN_COUNT : Fld := ⟨.CS_CNT_TRAIN, 0, 32, .RC, 0⟩
abbrev CS_SEL_ACTIVE : Fld := ⟨.CS_SEL, 0, 12, .RO, 0⟩
/-! Fields of spec/04_training_ethernet_cpri.md (R120). -/
abbrev CS_ETH_CFG_PHY : Fld := ⟨.CS_ETH_CFG, 0, 6, .RO, 0⟩
abbrev CS_ETH_CFG_PRECODE_REQ : Fld := ⟨.CS_ETH_CFG, 6, 1, .RO, 0⟩
abbrev CS_ETH_CFG_INIT : Fld := ⟨.CS_ETH_CFG, 7, 3, .RO, 0⟩
abbrev CS_ETH_CFG_TTRAIN : Fld := ⟨.CS_ETH_CFG, 16, 8, .RO, 0⟩
abbrev CS_ETH_CFG_TNEG : Fld := ⟨.CS_ETH_CFG, 24, 8, .RO, 0⟩
abbrev CS_ETH_PG_LO_PAGE_LO : Fld := ⟨.CS_ETH_PG_LO, 0, 32, .RO, 0⟩
abbrev CS_ETH_PG_HI_PAGE_HI : Fld := ⟨.CS_ETH_PG_HI, 0, 16, .RO, 0⟩
abbrev CS_ETH_PG_HI_NPCNT : Fld := ⟨.CS_ETH_PG_HI, 16, 8, .RO, 0⟩
abbrev CS_ETH_PG_HI_VALID : Fld := ⟨.CS_ETH_PG_HI, 24, 1, .RO, 0⟩
abbrev CS_ETH_RES_HCD : Fld := ⟨.CS_ETH_RES, 0, 6, .RO, 0⟩
abbrev CS_ETH_RES_FEC : Fld := ⟨.CS_ETH_RES, 6, 2, .RO, 0⟩
abbrev CS_ETH_RES_DONE_A : Fld := ⟨.CS_ETH_RES, 8, 1, .RO, 0⟩
abbrev CS_ETH_RES_DONE_B : Fld := ⟨.CS_ETH_RES, 9, 1, .RO, 0⟩
abbrev CS_ETH_RES_EEE_ADV : Fld := ⟨.CS_ETH_RES, 10, 1, .RO, 0⟩
abbrev CS_ETH_TR_LRDY : Fld := ⟨.CS_ETH_TR, 0, 8, .RO, 0⟩
abbrev CS_ETH_TR_PRDY : Fld := ⟨.CS_ETH_TR, 8, 8, .RO, 0⟩
abbrev CS_ETH_TR_RR_SENT : Fld := ⟨.CS_ETH_TR, 16, 1, .RO, 0⟩
abbrev CS_ETH_TR_PREC_TX : Fld := ⟨.CS_ETH_TR, 17, 1, .RO, 0⟩
abbrev CS_ETH_TR_PREC_RX : Fld := ⟨.CS_ETH_TR, 18, 1, .RO, 0⟩
abbrev CS_ETH_TR_TMO : Fld := ⟨.CS_ETH_TR, 19, 1, .RO, 0⟩
abbrev CS_ETH_CNT_AN_COUNT : Fld := ⟨.CS_ETH_CNT_AN, 0, 32, .RC, 0⟩
abbrev CS_CPRI_CFG_FOLLOW : Fld := ⟨.CS_CPRI_CFG, 0, 1, .RO, 0⟩
abbrev CS_CPRI_CFG_HFNHOLD : Fld := ⟨.CS_CPRI_CFG, 8, 8, .RO, 0⟩
abbrev CS_CPRI_CFG_TNEG : Fld := ⟨.CS_CPRI_CFG, 16, 8, .RO, 0⟩
abbrev CS_CPRI_STS_RXRATE_A : Fld := ⟨.CS_CPRI_STS, 0, 8, .RO, 0⟩
abbrev CS_CPRI_STS_RXRATE_B : Fld := ⟨.CS_CPRI_STS, 8, 8, .RO, 0⟩
abbrev CS_CPRI_STS_HFN_A : Fld := ⟨.CS_CPRI_STS, 16, 1, .RO, 0⟩
abbrev CS_CPRI_STS_HFN_B : Fld := ⟨.CS_CPRI_STS, 17, 1, .RO, 0⟩
abbrev CS_CPRI_STS_REFUSE_A : Fld := ⟨.CS_CPRI_STS, 18, 2, .RO, 0⟩
abbrev CS_CPRI_STS_REFUSE_B : Fld := ⟨.CS_CPRI_STS, 20, 2, .RO, 0⟩
abbrev CS_CPRI_CNT_RATE_COUNT : Fld := ⟨.CS_CPRI_CNT_RATE, 0, 32, .RC, 0⟩
/-! Fields of spec/05_pcie_retimer.md (R141). -/
abbrev CS_PCI_CFG_USP_SIDE : Fld := ⟨.CS_PCI_CFG, 0, 1, .RO, 0⟩
abbrev CS_PCI_CFG_NFTS_ADD : Fld := ⟨.CS_PCI_CFG, 1, 1, .RO, 0⟩
abbrev CS_PCI_STS_LTSSM_A : Fld := ⟨.CS_PCI_STS, 0, 4, .RO, 0⟩
abbrev CS_PCI_STS_LTSSM_B : Fld := ⟨.CS_PCI_STS, 4, 4, .RO, 0⟩
abbrev CS_PCI_STS_WIDTH : Fld := ⟨.CS_PCI_STS, 8, 5, .RO, 0⟩
abbrev CS_PCI_STS_POS : Fld := ⟨.CS_PCI_STS, 13, 2, .RO, 0⟩
abbrev CS_PCI_STS_THIRD : Fld := ⟨.CS_PCI_STS, 15, 1, .RO, 0⟩
abbrev CS_PCI_STS_EQ8 : Fld := ⟨.CS_PCI_STS, 16, 1, .RO, 0⟩
abbrev CS_PCI_STS_EQ16 : Fld := ⟨.CS_PCI_STS, 17, 1, .RO, 0⟩
abbrev CS_PCI_STS_EQ32 : Fld := ⟨.CS_PCI_STS, 18, 1, .RO, 0⟩
abbrev CS_PCI_MRG_LANE : Fld := ⟨.CS_PCI_MRG, 0, 4, .RO, 0⟩
abbrev CS_PCI_MRG_RCVR : Fld := ⟨.CS_PCI_MRG, 4, 3, .RO, 0⟩
abbrev CS_PCI_MRG_ACTIVE : Fld := ⟨.CS_PCI_MRG, 8, 1, .RO, 0⟩
abbrev CS_PCI_CNT_REC_COUNT : Fld := ⟨.CS_PCI_CNT_REC, 0, 32, .RC, 0⟩
abbrev CS_PCI_CNT_SPD_COUNT : Fld := ⟨.CS_PCI_CNT_SPD, 0, 32, .RC, 0⟩
abbrev CS_PCI_CNT_NAK_COUNT : Fld := ⟨.CS_PCI_CNT_NAK, 0, 32, .RC, 0⟩
/-! Fields of spec/06_timebase.md (R167). -/
abbrev TB_CTL_OWNER : Fld := ⟨.TB_CTL, 0, 1, .RW, 0⟩
abbrev TB_CTL_TBREF : Fld := ⟨.TB_CTL, 1, 2, .RO, 0⟩
abbrev TB_STS_LOCK : Fld := ⟨.TB_STS, 0, 1, .RO, 0⟩
abbrev TB_STS_LOL : Fld := ⟨.TB_STS, 1, 1, .W1C, 0⟩
abbrev TB_STS_REFLOS : Fld := ⟨.TB_STS, 2, 1, .RO, 0⟩
abbrev TB_STS_MODE : Fld := ⟨.TB_STS, 3, 1, .RO, 0⟩
abbrev TB_STS_CALSRC : Fld := ⟨.TB_STS, 4, 1, .RO, 0⟩
abbrev TB_STS_WREJ : Fld := ⟨.TB_STS, 5, 1, .W1C, 0⟩
abbrev TB_STS_STEPPED : Fld := ⟨.TB_STS, 6, 1, .W1C, 0⟩
abbrev TB_STS_GAP : Fld := ⟨.TB_STS, 7, 1, .W1C, 0⟩
abbrev TB_STS_SPREAD : Fld := ⟨.TB_STS, 8, 1, .RO, 0⟩
abbrev TB_CMD_LOAD : Fld := ⟨.TB_CMD, 0, 1, .WO, 0⟩
abbrev TB_CMD_STEP : Fld := ⟨.TB_CMD, 1, 1, .WO, 0⟩
abbrev TB_CMD_CAPTURE : Fld := ⟨.TB_CMD, 2, 1, .WO, 0⟩
abbrev TB_ADJ_RATE : Fld := ⟨.TB_ADJ, 0, 32, .RW, 0⟩
abbrev TB_SET_S_LO_V : Fld := ⟨.TB_SET_S_LO, 0, 32, .RW, 0⟩
abbrev TB_SET_S_HI_V : Fld := ⟨.TB_SET_S_HI, 0, 16, .RW, 0⟩
abbrev TB_SET_NS_V : Fld := ⟨.TB_SET_NS, 0, 30, .RW, 0⟩
abbrev TB_STEP_NS_V : Fld := ⟨.TB_STEP_NS, 0, 32, .RW, 0⟩
abbrev TB_STEP_FRAC_V : Fld := ⟨.TB_STEP_FRAC, 0, 16, .RW, 0⟩
abbrev TB_CAP_S_LO_V : Fld := ⟨.TB_CAP_S_LO, 0, 32, .RO, 0⟩
abbrev TB_CAP_S_HI_V : Fld := ⟨.TB_CAP_S_HI, 0, 16, .RO, 0⟩
abbrev TB_CAP_NS_V : Fld := ⟨.TB_CAP_NS, 0, 30, .RO, 0⟩
abbrev TB_CAP_FRAC_V : Fld := ⟨.TB_CAP_FRAC, 0, 16, .RO, 0⟩
abbrev TB_CAP_FREE_LO_V : Fld := ⟨.TB_CAP_FREE_LO, 0, 32, .RO, 0⟩
abbrev TB_CAP_FREE_HI_V : Fld := ⟨.TB_CAP_FREE_HI, 0, 32, .RO, 0⟩
abbrev TSU_CTL_PTP_EN : Fld := ⟨.TSU_CTL, 0, 1, .RW, 0⟩
abbrev TSU_CTL_UDP4_EN : Fld := ⟨.TSU_CTL, 1, 1, .RW, 0⟩
abbrev TSU_CTL_UDP6_EN : Fld := ⟨.TSU_CTL, 2, 1, .RW, 0⟩
abbrev TSU_CTL_ECPRI_EN : Fld := ⟨.TSU_CTL, 3, 1, .RW, 0⟩
abbrev TSU_STS_ACTIVE : Fld := ⟨.TSU_STS, 0, 1, .RO, 0⟩
abbrev TSU_STS_FS : Fld := ⟨.TSU_STS, 1, 1, .RO, 0⟩
abbrev TSU_INGD_DELAY : Fld := ⟨.TSU_INGD, 0, 24, .RO, 0⟩
abbrev TSU_EGRD_DELAY : Fld := ⟨.TSU_EGRD, 0, 24, .RO, 0⟩
abbrev TSU_LAST_RES_RES : Fld := ⟨.TSU_LAST_RES, 0, 32, .RO, 0⟩
abbrev TSU_LAST_INFO_SEQ : Fld := ⟨.TSU_LAST_INFO, 0, 16, .RO, 0⟩
abbrev TSU_LAST_INFO_TYPE : Fld := ⟨.TSU_LAST_INFO, 16, 4, .RO, 0⟩
abbrev TSU_LAST_INFO_ECPRI : Fld := ⟨.TSU_LAST_INFO, 20, 1, .RO, 0⟩
abbrev TSU_LAST_INFO_SAT : Fld := ⟨.TSU_LAST_INFO, 21, 1, .RO, 0⟩
abbrev TSU_CNT_CORR_COUNT : Fld := ⟨.TSU_CNT_CORR, 0, 32, .RC, 0⟩
abbrev TSU_CNT_UNCORR_COUNT : Fld := ⟨.TSU_CNT_UNCORR, 0, 32, .RC, 0⟩
abbrev TSU_CNT_SAT_COUNT : Fld := ⟨.TSU_CNT_SAT, 0, 32, .RC, 0⟩
/-! Fields of spec/07_holdover_services.md (R197). -/
abbrev TS_CTL_ENABLE : Fld := ⟨.TS_CTL, 0, 1, .RW, 0⟩
abbrev TS_CTL_TPRIO : Fld := ⟨.TS_CTL, 1, 1, .RW, 0⟩
abbrev TS_CTL_STEPANY : Fld := ⟨.TS_CTL, 2, 1, .RW, 0⟩
abbrev TS_CTL_MINGRP : Fld := ⟨.TS_CTL, 3, 4, .RW, 1⟩
abbrev TS_CTL_PPS_EN : Fld := ⟨.TS_CTL, 7, 1, .RW, 0⟩
abbrev TS_CTL_PTP_EN : Fld := ⟨.TS_CTL, 8, 1, .RW, 0⟩
abbrev TS_CTL_PTPSVC : Fld := ⟨.TS_CTL, 9, 3, .RW, 0⟩
abbrev TS_STS_STATE : Fld := ⟨.TS_STS, 0, 3, .RO, 0⟩
abbrev TS_STS_SYNT : Fld := ⟨.TS_STS, 3, 1, .RO, 0⟩
abbrev TS_STS_ACTREF : Fld := ⟨.TS_STS, 4, 2, .RO, 0⟩
abbrev TS_STS_NMEM : Fld := ⟨.TS_STS, 6, 5, .RO, 0⟩
abbrev TS_STS_NGRP : Fld := ⟨.TS_STS, 11, 5, .RO, 0⟩
abbrev TS_STS_FMEM : Fld := ⟨.TS_STS, 16, 1, .RO, 0⟩
abbrev TS_STS_PPSQ : Fld := ⟨.TS_STS, 17, 1, .RO, 0⟩
abbrev TS_STS_PTPQ : Fld := ⟨.TS_STS, 18, 1, .RO, 0⟩
abbrev TS_TE_TE : Fld := ⟨.TS_TE, 0, 32, .RO, 0⟩
abbrev TS_HOLD_T_HOLD_T : Fld := ⟨.TS_HOLD_T, 0, 32, .RO, 0⟩
abbrev TS_SERVO_LOCKWIN : Fld := ⟨.TS_SERVO, 0, 8, .RW, 50⟩
abbrev TS_SERVO_LOCKT : Fld := ⟨.TS_SERVO, 8, 8, .RW, 6⟩
abbrev TS_SERVO_STEPTHR : Fld := ⟨.TS_SERVO, 16, 8, .RW, 10⟩
abbrev TS_SERVO_SLEW : Fld := ⟨.TS_SERVO, 24, 8, .RW, 10⟩
abbrev TS_HOLD_CFG_ENS_LIMIT : Fld := ⟨.TS_HOLD_CFG, 0, 8, .RW, 24⟩
abbrev TS_HOLD_CFG_LOC_LIMIT : Fld := ⟨.TS_HOLD_CFG, 8, 10, .RW, 480⟩
abbrev TS_HOLD_CFG_HAVG : Fld := ⟨.TS_HOLD_CFG, 18, 12, .RW, 100⟩
abbrev TS_PPS_IN_POL : Fld := ⟨.TS_PPS_IN, 0, 1, .RW, 0⟩
abbrev TS_PPS_IN_BAUD : Fld := ⟨.TS_PPS_IN, 1, 1, .RW, 0⟩
abbrev TS_PPS_IN_QUALN : Fld := ⟨.TS_PPS_IN, 8, 8, .RW, 10⟩
abbrev TS_PPS_IN_MINQL : Fld := ⟨.TS_PPS_IN, 16, 8, .RW, 6⟩
abbrev TS_OUT_CTL_PPS_W : Fld := ⟨.TS_OUT_CTL, 0, 8, .RW, 100⟩
abbrev TS_OUT_CTL_SQ : Fld := ⟨.TS_OUT_CTL, 8, 1, .RW, 1⟩
abbrev TS_OUT_CTL_TOD_EN : Fld := ⟨.TS_OUT_CTL, 9, 1, .RW, 0⟩
abbrev TS_OUT_CTL_TOD_BAUD : Fld := ⟨.TS_OUT_CTL, 10, 1, .RW, 0⟩
abbrev TS_PPS_OFS_OFS : Fld := ⟨.TS_PPS_OFS, 0, 32, .RW, 0⟩
abbrev TS_CLKOUT_CTL_SRC : Fld := ⟨.TS_CLKOUT_CTL, 0, 2, .RW, 0⟩
abbrev TS_CLKOUT_CTL_SLOT : Fld := ⟨.TS_CLKOUT_CTL, 2, 4, .RW, 0⟩
abbrev TS_CLKOUT_CTL_SQ : Fld := ⟨.TS_CLKOUT_CTL, 6, 1, .RW, 1⟩
abbrev TS_CLKOUT_FREQ_FREQ : Fld := ⟨.TS_CLKOUT_FREQ, 0, 28, .RW, 0⟩
abbrev TS_LREF_CTL_COURSE : Fld := ⟨.TS_LREF_CTL, 0, 9, .RW, 0⟩
abbrev TS_LREF_CTL_EN : Fld := ⟨.TS_LREF_CTL, 9, 1, .RW, 0⟩
abbrev TS_LREF_CTL_QLREQ : Fld := ⟨.TS_LREF_CTL, 10, 1, .RW, 0⟩
abbrev TS_LREF_CTL_SIDE : Fld := ⟨.TS_LREF_CTL, 11, 1, .RW, 0⟩
abbrev TS_LREF_CTL_MINQL : Fld := ⟨.TS_LREF_CTL, 16, 4, .RW, 11⟩
abbrev TS_LREF_CTL_WTR : Fld := ⟨.TS_LREF_CTL, 20, 12, .RW, 60⟩
abbrev TS_LREF_STS_QUAL : Fld := ⟨.TS_LREF_STS, 0, 1, .RO, 0⟩
abbrev TS_LREF_STS_MEMBER : Fld := ⟨.TS_LREF_STS, 1, 1, .RO, 0⟩
abbrev TS_LREF_STS_GROUP : Fld := ⟨.TS_LREF_STS, 2, 4, .RO, 0⟩
abbrev TS_LREF_STS_QL : Fld := ⟨.TS_LREF_STS, 6, 4, .RO, 0⟩
abbrev TS_LREF_STS_QLFAIL : Fld := ⟨.TS_LREF_STS, 10, 1, .RO, 0⟩
abbrev TS_LREF_STS_WEIGHT : Fld := ⟨.TS_LREF_STS, 11, 9, .RO, 0⟩
abbrev TS_LREF_FOFS_FOFS : Fld := ⟨.TS_LREF_FOFS, 0, 32, .RO, 0⟩
abbrev TS_LREF_STAB_STAB : Fld := ⟨.TS_LREF_STAB, 0, 24, .RO, 0⟩
abbrev TS_SVC_STS_KIND : Fld := ⟨.TS_SVC_STS, 0, 3, .RO, 0⟩
abbrev TS_SVC_STS_REGION : Fld := ⟨.TS_SVC_STS, 3, 6, .RO, 0⟩
abbrev TS_SVC_STS_HEALTH : Fld := ⟨.TS_SVC_STS, 9, 3, .RO, 3⟩
abbrev TS_SVC_STS_PORTS : Fld := ⟨.TS_SVC_STS, 12, 5, .RO, 0⟩
abbrev TS_SVC_STS_CCLASS : Fld := ⟨.TS_SVC_STS, 24, 8, .RO, 0⟩
abbrev TS_CLS_BASE_EN : Fld := ⟨.TS_CLS_BASE, 0, 1, .RO, 0⟩
abbrev TS_CLS_BASE_BASE : Fld := ⟨.TS_CLS_BASE, 21, 6, .RO, 0⟩
abbrev TS_CLS_CMD_OP : Fld := ⟨.TS_CLS_CMD, 0, 2, .WO, 0⟩
abbrev TS_CLS_CMD_REPLACE : Fld := ⟨.TS_CLS_CMD, 2, 1, .WO, 0⟩
abbrev TS_CLS_STS_BUSY : Fld := ⟨.TS_CLS_STS, 0, 1, .RO, 0⟩
abbrev TS_CLS_STS_RESULT : Fld := ⟨.TS_CLS_STS, 1, 3, .RO, 0⟩
abbrev TS_CLS_STS_COUNT : Fld := ⟨.TS_CLS_STS, 4, 17, .RO, 0⟩
abbrev TS_CLS_KEY_KEY : Fld := ⟨.TS_CLS_KEY, 0, 32, .RW, 0⟩
abbrev TS_CLS_ACT_ACT : Fld := ⟨.TS_CLS_ACT, 0, 32, .RW, 0⟩
abbrev TS_IE_CTL_EXT_EN : Fld := ⟨.TS_IE_CTL, 0, 1, .RW, 0⟩
abbrev TS_IE_CTL_INS_EN : Fld := ⟨.TS_IE_CTL, 1, 1, .RW, 0⟩
abbrev TS_IE_CTL_PROF : Fld := ⟨.TS_IE_CTL, 2, 4, .RW, 0⟩
abbrev TS_IE_CTL_IQ : Fld := ⟨.TS_IE_CTL, 6, 14, .RW, 0⟩
abbrev TS_IE_CTL_MAXWAIT : Fld := ⟨.TS_IE_CTL, 20, 8, .RW, 10⟩
abbrev TS_IE_STS_ELASTIC : Fld := ⟨.TS_IE_STS, 0, 15, .RO, 0⟩
abbrev TS_IE_STS_ACTIVE : Fld := ⟨.TS_IE_STS, 15, 1, .RO, 0⟩
abbrev TS_IE_STS_CREDIT : Fld := ⟨.TS_IE_STS, 16, 13, .RO, 0⟩
abbrev TS_IE_CNT_EXT_COUNT : Fld := ⟨.TS_IE_CNT_EXT, 0, 32, .RC, 0⟩
abbrev TS_IE_CNT_INS_COUNT : Fld := ⟨.TS_IE_CNT_INS, 0, 32, .RC, 0⟩
abbrev TS_IE_CNT_DROP_COUNT : Fld := ⟨.TS_IE_CNT_DROP, 0, 32, .RC, 0⟩
abbrev TS_IE_CNT_LATE_COUNT : Fld := ⟨.TS_IE_CNT_LATE, 0, 32, .RC, 0⟩
/-! Fields of spec/08_fabric.md (R220). -/
abbrev FB_CFG_SELMODE : Fld := ⟨.FB_CFG, 0, 2, .RO, 0⟩
abbrev FB_CFG_FRAMES : Fld := ⟨.FB_CFG, 2, 8, .RO, 0⟩
abbrev FB_CFG_COURSE : Fld := ⟨.FB_CFG, 10, 9, .RO, 0⟩
abbrev FB_STS_ACT_CTX : Fld := ⟨.FB_STS, 0, 6, .RO, 0⟩
abbrev FB_STS_ACT_PAGED : Fld := ⟨.FB_STS, 6, 1, .RO, 0⟩
abbrev FB_STS_SWPEND : Fld := ⟨.FB_STS, 7, 1, .RO, 0⟩
abbrev FB_STS_PGBUSY : Fld := ⟨.FB_STS, 8, 1, .RO, 0⟩
abbrev FB_STS_CWAIT : Fld := ⟨.FB_STS, 9, 1, .RO, 0⟩
abbrev FB_STS_WREJ : Fld := ⟨.FB_STS, 10, 1, .W1C, 0⟩
abbrev FB_STS_OUTST : Fld := ⟨.FB_STS, 12, 8, .RO, 0⟩
abbrev FB_CTXSEL_CTX : Fld := ⟨.FB_CTXSEL, 0, 6, .RO, 0⟩
abbrev FB_CTXSEL_PAGED : Fld := ⟨.FB_CTXSEL, 6, 1, .RO, 0⟩
abbrev FB_PACE_CAP : Fld := ⟨.FB_PACE, 0, 12, .RW, 0⟩
abbrev FB_PACE_FLOOR : Fld := ⟨.FB_PACE, 16, 12, .RO, 0⟩
abbrev FB_PACE_STS_LIMIT : Fld := ⟨.FB_PACE_STS, 0, 12, .RO, 0⟩
abbrev FB_PACE_STS_MEAS : Fld := ⟨.FB_PACE_STS, 16, 12, .RO, 0⟩
abbrev FB_SLOT_KIND : Fld := ⟨.FB_SLOT, 0, 2, .RO, 0⟩
abbrev FB_SLOT_PNUM : Fld := ⟨.FB_SLOT, 2, 6, .RO, 0⟩
abbrev FB_SLOT_PIN : Fld := ⟨.FB_SLOT, 8, 1, .RO, 0⟩
abbrev FB_SLOT_ACTIVE : Fld := ⟨.FB_SLOT, 9, 1, .RO, 0⟩
abbrev FB_PGCMD_OP : Fld := ⟨.FB_PGCMD, 0, 3, .WO, 0⟩
abbrev FB_PGCMD_PNUM : Fld := ⟨.FB_PGCMD, 4, 6, .WO, 0⟩
abbrev FB_PGSTS_BUSY : Fld := ⟨.FB_PGSTS, 0, 1, .RO, 0⟩
abbrev FB_PGSTS_RESULT : Fld := ⟨.FB_PGSTS, 1, 3, .RO, 0⟩
abbrev FB_GUTMAP_MAP : Fld := ⟨.FB_GUTMAP, 0, 32, .RO, 0⟩
abbrev FB_WIN_BASE_EN : Fld := ⟨.FB_WIN_BASE, 0, 1, .RO, 0⟩
abbrev FB_WIN_BASE_BASE : Fld := ⟨.FB_WIN_BASE, 16, 11, .RO, 0⟩
abbrev FB_WIN_LIM_LIM : Fld := ⟨.FB_WIN_LIM, 16, 11, .RO, 0⟩
abbrev FB_CNT_SW_COUNT : Fld := ⟨.FB_CNT_SW, 0, 32, .RC, 0⟩
abbrev FB_CNT_PGIN_COUNT : Fld := ⟨.FB_CNT_PGIN, 0, 32, .RC, 0⟩
abbrev FB_CNT_LATE_COUNT : Fld := ⟨.FB_CNT_LATE, 0, 32, .RC, 0⟩
abbrev FB_CNT_GOVF_COUNT : Fld := ⟨.FB_CNT_GOVF, 0, 32, .RC, 0⟩
abbrev FB_CNT_GUNF_COUNT : Fld := ⟨.FB_CNT_GUNF, 0, 32, .RC, 0⟩
abbrev FB_CNT_DENY_COUNT : Fld := ⟨.FB_CNT_DENY, 0, 32, .RC, 0⟩
/-! Fields of spec/09_memory_tier.md (R247). -/
abbrev MT_CTL_COMPAT : Fld := ⟨.MT_CTL, 0, 1, .RO, 0⟩
abbrev MT_CTL_SCRUB_INT : Fld := ⟨.MT_CTL, 8, 8, .RW, 100⟩
abbrev MT_STS_WIPING : Fld := ⟨.MT_STS, 0, 1, .RO, 0⟩
abbrev MT_STS_WIPED : Fld := ⟨.MT_STS, 1, 1, .W1C, 0⟩
abbrev MT_STS_COMPAT_PEND : Fld := ⟨.MT_STS, 2, 1, .RO, 0⟩
abbrev MT_INFLT_COUNT : Fld := ⟨.MT_INFLT, 0, 13, .RO, 0⟩
abbrev MT_INFLT_MAX_MAX : Fld := ⟨.MT_INFLT_MAX, 0, 13, .RC, 0⟩
abbrev MT_WINBASE_BASE : Fld := ⟨.MT_WINBASE, 20, 7, .RW, 0⟩
abbrev MT_WINBASE_VIEW : Fld := ⟨.MT_WINBASE, 27, 2, .RW, 0⟩
abbrev MT_WINSTS_DENY : Fld := ⟨.MT_WINSTS, 0, 1, .W1C, 0⟩
abbrev MT_WINSTS_POISON : Fld := ⟨.MT_WINSTS, 1, 1, .W1C, 0⟩
abbrev MT_WINSTS_CORR : Fld := ⟨.MT_WINSTS, 2, 1, .W1C, 0⟩
abbrev MT_ECCLOG_ADDR_ADDR : Fld := ⟨.MT_ECCLOG_ADDR, 0, 27, .RO, 0⟩
abbrev MT_ECCLOG_ADDR_VALID : Fld := ⟨.MT_ECCLOG_ADDR, 31, 1, .W1C, 0⟩
abbrev MT_ECCLOG_INFO_MASTER : Fld := ⟨.MT_ECCLOG_INFO, 0, 7, .RO, 0⟩
abbrev MT_ECCLOG_INFO_WRITE : Fld := ⟨.MT_ECCLOG_INFO, 7, 1, .RO, 0⟩
abbrev MT_ECCLOG_INFO_SYND : Fld := ⟨.MT_ECCLOG_INFO, 8, 16, .RO, 0⟩
abbrev MT_COLLIDE_LOW : Fld := ⟨.MT_COLLIDE, 0, 7, .RO, 0⟩
abbrev MT_COLLIDE_HIGH : Fld := ⟨.MT_COLLIDE, 8, 7, .RO, 0⟩
abbrev MT_COLLIDE_WINDOW : Fld := ⟨.MT_COLLIDE, 15, 1, .RO, 0⟩
abbrev MT_COLLIDE_VLOW : Fld := ⟨.MT_COLLIDE, 16, 2, .RO, 0⟩
abbrev MT_COLLIDE_VHIGH : Fld := ⟨.MT_COLLIDE, 18, 2, .RO, 0⟩
abbrev MT_COLLIDE_VALID : Fld := ⟨.MT_COLLIDE, 31, 1, .W1C, 0⟩
abbrev MT_COLLIDE_ADDR_ADDR : Fld := ⟨.MT_COLLIDE_ADDR, 0, 27, .RO, 0⟩
abbrev MT_POISON_PORT : Fld := ⟨.MT_POISON, 0, 10, .RO, 0⟩
abbrev MT_POISON_MASTER : Fld := ⟨.MT_POISON, 16, 7, .RO, 0⟩
abbrev MT_POISON_DIR : Fld := ⟨.MT_POISON, 23, 1, .RO, 0⟩
abbrev MT_POISON_SRC : Fld := ⟨.MT_POISON, 24, 1, .RO, 0⟩
abbrev MT_POISON_AVALID : Fld := ⟨.MT_POISON, 25, 1, .RO, 0⟩
abbrev MT_POISON_VALID : Fld := ⟨.MT_POISON, 31, 1, .W1C, 0⟩
abbrev MT_POISON_ADDR_ADDR : Fld := ⟨.MT_POISON_ADDR, 0, 27, .RO, 0⟩
abbrev MT_CNT_CE_COUNT : Fld := ⟨.MT_CNT_CE, 0, 32, .RC, 0⟩
abbrev MT_CNT_UE_COUNT : Fld := ⟨.MT_CNT_UE, 0, 32, .RC, 0⟩
abbrev MT_CNT_RESEND_COUNT : Fld := ⟨.MT_CNT_RESEND, 0, 32, .RC, 0⟩
abbrev MT_CNT_POISON_COUNT : Fld := ⟨.MT_CNT_POISON, 0, 32, .RC, 0⟩
abbrev MT_CNT_DENY_COUNT : Fld := ⟨.MT_CNT_DENY, 0, 32, .RC, 0⟩
abbrev MT_CONF_COUNT : Fld := ⟨.MT_CONF, 0, 32, .RC, 0⟩
/-! Fields of spec/10_purlin_transactions.md (R268). -/
abbrev PU_STS_FREE : Fld := ⟨.PU_STS, 0, 19, .RO, 0⟩
abbrev PU_POOL_POOL : Fld := ⟨.PU_POOL, 0, 19, .RO, 0⟩
abbrev PU_PTSEL_PAGE : Fld := ⟨.PU_PTSEL, 0, 18, .RW, 0⟩
abbrev PU_PTE_LO_LO : Fld := ⟨.PU_PTE_LO, 0, 32, .RO, 0⟩
abbrev PU_PTE_HI_HI : Fld := ⟨.PU_PTE_HI, 0, 32, .RO, 0⟩
abbrev PU_CNT_DROPCAP_COUNT : Fld := ⟨.PU_CNT_DROPCAP, 0, 32, .RC, 0⟩
abbrev PU_CNT_DROPPOOL_COUNT : Fld := ⟨.PU_CNT_DROPPOOL, 0, 32, .RC, 0⟩
abbrev PU_CNT_PTCE_COUNT : Fld := ⟨.PU_CNT_PTCE, 0, 32, .RC, 0⟩
abbrev PU_CNT_PTUE_COUNT : Fld := ⟨.PU_CNT_PTUE, 0, 32, .RC, 0⟩
abbrev PU_GCFG_EN : Fld := ⟨.PU_GCFG, 0, 1, .RO, 0⟩
abbrev PU_GCFG_PARENT : Fld := ⟨.PU_GCFG, 1, 11, .RO, 0⟩
abbrev PU_GCFG_PRIO : Fld := ⟨.PU_GCFG, 12, 3, .RO, 0⟩
abbrev PU_GCFG_SCHED : Fld := ⟨.PU_GCFG, 15, 1, .RO, 0⟩
abbrev PU_GCFG_WEIGHT : Fld := ⟨.PU_GCFG, 16, 16, .RO, 0⟩
abbrev PU_GMIN_MIN : Fld := ⟨.PU_GMIN, 0, 19, .RO, 0⟩
abbrev PU_GMAX_MAX : Fld := ⟨.PU_GMAX, 0, 19, .RO, 0⟩
abbrev PU_GUSED_USED : Fld := ⟨.PU_GUSED, 0, 19, .RO, 0⟩
abbrev PU_QCFG_EN : Fld := ⟨.PU_QCFG, 0, 1, .RO, 0⟩
abbrev PU_QCFG_GROUP : Fld := ⟨.PU_QCFG, 1, 11, .RO, 0⟩
abbrev PU_QCFG_PRIO : Fld := ⟨.PU_QCFG, 12, 3, .RO, 0⟩
abbrev PU_QCFG_WEIGHT : Fld := ⟨.PU_QCFG, 16, 16, .RO, 0⟩
abbrev PU_QLIM_MAX : Fld := ⟨.PU_QLIM, 0, 19, .RO, 0⟩
abbrev PU_QLIM_CONS : Fld := ⟨.PU_QLIM, 24, 8, .RO, 0⟩
abbrev PU_QHEAD_HEAD : Fld := ⟨.PU_QHEAD, 0, 18, .RO, 0⟩
abbrev PU_QTAIL_TAIL : Fld := ⟨.PU_QTAIL, 0, 18, .RO, 0⟩
abbrev PU_QPAGES_PAGES : Fld := ⟨.PU_QPAGES, 0, 19, .RO, 0⟩
abbrev PU_QDEPTH_DEPTH : Fld := ⟨.PU_QDEPTH, 0, 19, .RO, 0⟩
abbrev PU_QSTS_KSTATE : Fld := ⟨.PU_QSTS, 0, 4, .RO, 0⟩
abbrev PU_QSTS_FCODE : Fld := ⟨.PU_QSTS, 4, 8, .RO, 0⟩
abbrev PU_QDROP_DROP : Fld := ⟨.PU_QDROP, 0, 32, .RC, 0⟩
/-! Fields of spec/11_dormer.md (R285). -/
abbrev DM_STS_LIFE : Fld := ⟨.DM_STS, 0, 3, .RO, 0⟩
abbrev DM_STS_SEALED : Fld := ⟨.DM_STS, 3, 1, .RO, 0⟩
abbrev DM_STS_KEYSLOT : Fld := ⟨.DM_STS, 4, 2, .RO, 0⟩
abbrev DM_STS_SUSP : Fld := ⟨.DM_STS, 6, 1, .RO, 0⟩
abbrev DM_STS_REFUSE : Fld := ⟨.DM_STS, 8, 4, .RO, 0⟩
abbrev DM_SEALCNT_COUNT : Fld := ⟨.DM_SEALCNT, 0, 13, .RO, 0⟩
abbrev DM_SEALCNT_LEFT : Fld := ⟨.DM_SEALCNT, 13, 13, .RO, 0⟩
abbrev DM_CFG_INTERVAL : Fld := ⟨.DM_CFG, 0, 6, .RO, 0⟩
abbrev DM_CFG_TMPEN : Fld := ⟨.DM_CFG, 6, 1, .RO, 0⟩
abbrev DM_CFG_RESTOK : Fld := ⟨.DM_CFG, 7, 1, .RO, 0⟩
abbrev DM_CFG_NMETER : Fld := ⟨.DM_CFG, 8, 9, .RO, 0⟩
abbrev DM_CFG_RINGSZ : Fld := ⟨.DM_CFG, 17, 13, .RO, 0⟩
abbrev DM_RING_ID_LO_ID_LO : Fld := ⟨.DM_RING_ID_LO, 0, 32, .RO, 0⟩
abbrev DM_RING_ID_HI_ID_HI : Fld := ⟨.DM_RING_ID_HI, 0, 32, .RO, 0⟩
abbrev DM_SEQ_OLD_OLD : Fld := ⟨.DM_SEQ_OLD, 0, 32, .RO, 0⟩
abbrev DM_SEQ_NEW_NEW : Fld := ⟨.DM_SEQ_NEW, 0, 32, .RO, 0⟩
abbrev DM_TAMPER_TAMPER_N : Fld := ⟨.DM_TAMPER, 0, 8, .RO, 0⟩
abbrev DM_TAMPER_GLITCH : Fld := ⟨.DM_TAMPER, 8, 8, .RO, 0⟩
abbrev DM_TAMPER_TEMP : Fld := ⟨.DM_TAMPER, 16, 8, .RO, 0⟩
abbrev DM_TAMPER_IMAGE : Fld := ⟨.DM_TAMPER, 24, 8, .RO, 0⟩
abbrev DM_SEL_SEQ : Fld := ⟨.DM_SEL, 0, 32, .RW, 0⟩
abbrev DM_RSTS_READY : Fld := ⟨.DM_RSTS, 0, 1, .RO, 0⟩
abbrev DM_RSTS_GONE : Fld := ⟨.DM_RSTS, 1, 1, .RO, 0⟩
abbrev DM_RSTS_BUSY : Fld := ⟨.DM_RSTS, 2, 1, .RO, 0⟩
abbrev DM_MLIST_LIST : Fld := ⟨.DM_MLIST, 0, 32, .RO, 0⟩
abbrev DM_REC_DATA : Fld := ⟨.DM_REC, 0, 32, .RO, 0⟩
end F

/-- The fields of each register, lowest bit first. -/
def Reg.fields (r : Reg) : List Fld :=
  match r with
  | .MG_ID => [F.MG_ID_PART, F.MG_ID_REV, F.MG_ID_VARIANT]
  | .MG_MFR => [F.MG_MFR_JEP106, F.MG_MFR_MIPI]
  | .MG_SERIAL_LO => [F.MG_SERIAL_LO_V]
  | .MG_SERIAL_HI => [F.MG_SERIAL_HI_V]
  | .MG_SCRATCH => [F.MG_SCRATCH_DATA]
  | .MG_ALERT => [F.MG_ALERT_ALERT]
  | .MG_ALERTEN => [F.MG_ALERTEN_EN]
  | .MG_FAULT_ID => [F.MG_FAULT_ID_ID, F.MG_FAULT_ID_VALID]
  | .MG_BUS => [F.MG_BUS_I3C, F.MG_BUS_DA, F.MG_BUS_SA, F.MG_BUS_ENINT, F.MG_BUS_MWL]
  | .MG_BUSSTS => [F.MG_BUSSTS_WBOVF, F.MG_BUSSTS_MISALIGN, F.MG_BUSSTS_PARTIAL, F.MG_BUSSTS_MWLOVF, F.MG_BUSSTS_UNMAPPED, F.MG_BUSSTS_PARITY]
  | .MG_CNT_NOTRDY => [F.MG_CNT_NOTRDY_COUNT]
  | .MG_TEMP => [F.MG_TEMP_TEMP, F.MG_TEMP_VALID]
  | .PW_CTL => [F.PW_CTL_REQ]
  | .PW_STS => [F.PW_STS_DEV, F.PW_STS_BUSY, F.PW_STS_TARGET, F.PW_STS_PEND, F.PW_STS_PARTIAL, F.PW_STS_HELDF, F.PW_STS_OFFACC, F.PW_STS_STEP, F.PW_STS_QREQ]
  | .PW_HOLDREP => [F.PW_HOLDREP_DELAY]
  | .PW_HELD => [F.PW_HELD_ROW, F.PW_HELD_COUNT, F.PW_HELD_VALID]
  | .PW_HELD_CLO => [F.PW_HELD_CLO_CLO]
  | .PW_HELD_CHI => [F.PW_HELD_CHI_CHI]
  | .PW_LASTWAKE => [F.PW_LASTWAKE_SRC, F.PW_LASTWAKE_REPLAY, F.PW_LASTWAKE_FROM, F.PW_LASTWAKE_COURSE, F.PW_LASTWAKE_TIMER]
  | .PW_WAKEEN => [F.PW_WAKEEN_ADDR, F.PW_WAKEEN_WAKEN, F.PW_WAKEEN_SIGDET, F.PW_WAKEEN_PPS, F.PW_WAKEEN_TAMPER, F.PW_WAKEEN_COURSE]
  | .PW_PADREL => [F.PW_PADREL_REL, F.PW_PADREL_HELD]
  | .PW_NAPSET => [F.PW_NAPSET_ROWS]
  | .PW_ACTSET => [F.PW_ACTSET_ROWS]
  | .PW_HVOTE => [F.PW_HVOTE_ROWS]
  | .PW_ETIM_CTL => [F.PW_ETIM_CTL_EN, F.PW_ETIM_CTL_WAKE, F.PW_ETIM_CTL_FIRED]
  | .PW_ETIM_CNT => [F.PW_ETIM_CNT_CNT]
  | .PW_DOM => [F.PW_DOM_STATE, F.PW_DOM_TRANS, F.PW_DOM_IDLE, F.PW_DOM_VWAIT, F.PW_DOM_VSET, F.PW_DOM_VNOW]
  | .PW_VB_LO => [F.PW_VB_LO_LO]
  | .PW_VB_HI => [F.PW_VB_HI_HI]
  | .CF_STATUS => [F.CF_STATUS_CODE, F.CF_STATUS_IMAGE, F.CF_STATUS_YEALM]
  | .CF_STS => [F.CF_STS_BOOT_SEL, F.CF_STS_PROFILE, F.CF_STS_ADDR_SEL, F.CF_STS_BARE, F.CF_STS_FULL, F.CF_STS_LOADING, F.CF_STS_DEVKEY, F.CF_STS_FAULTS]
  | .CF_RES => [F.CF_RES_CODE, F.CF_RES_YEALM]
  | .CF_ITEM => [F.CF_ITEM_ITEM]
  | .CF_FLASH => [F.CF_FLASH_MODE, F.CF_FLASH_FREQ, F.CF_FLASH_DENSITY]
  | .CF_BUILD_LO => [F.CF_BUILD_LO_V]
  | .CF_BUILD_HI => [F.CF_BUILD_HI_V]
  | .CF_VERSION => [F.CF_VERSION_V]
  | .CF_TBARE => [F.CF_TBARE_V]
  | .CF_TFULL => [F.CF_TFULL_V]
  | .CF_CMD => [F.CF_CMD_OP, F.CF_CMD_SLOT]
  | .CF_CMDSTS => [F.CF_CMDSTS_BUSY, F.CF_CMDSTS_RESULT]
  | .CF_KEYSTS => [F.CF_KEYSTS_SLOTS]
  | .CF_RCV_STS => [F.CF_RCV_STS_SPACE, F.CF_RCV_STS_ACTIVE]
  | .CF_RCV_CNT => [F.CF_RCV_CNT_COUNT]
  | .CF_KEYH => [F.CF_KEYH_HASH]
  | .CF_RCV_DATA => [F.CF_RCV_DATA_DATA]
  | .TG_UL_CMD => [F.TG_UL_CMD_OP]
  | .TG_UL_REQ => [F.TG_UL_REQ_DUR]
  | .TG_UL_STS => [F.TG_UL_STS_STATE, F.TG_UL_STS_BUSY, F.TG_UL_STS_RESULT, F.TG_UL_STS_FAILS]
  | .TG_UL_LEFT => [F.TG_UL_LEFT_LEFT]
  | .TG_UL_CHAL => [F.TG_UL_CHAL_NONCE]
  | .TG_UL_RESP => [F.TG_UL_RESP_TAG]
  | .TG_UL_GKEY => [F.TG_UL_GKEY_KEY]
  | .TG_CMD => [F.TG_CMD_OP, F.TG_CMD_SLOT, F.TG_CMD_MODE, F.TG_CMD_COURSE]
  | .TG_RES => [F.TG_RES_CODE, F.TG_RES_SLOT]
  | .TG_ADDR => [F.TG_ADDR_ADDR]
  | .TG_DATA => [F.TG_DATA_DATA]
  | .TG_MASK => [F.TG_MASK_MASK]
  | .TG_CNT_COMMIT => [F.TG_CNT_COMMIT_COUNT]
  | .TG_CNT_ABORT => [F.TG_CNT_ABORT_COUNT]
  | .TG_SLOT_STS => [F.TG_SLOT_STS_STATE, F.TG_SLOT_STS_OUTCOME, F.TG_SLOT_STS_OWNER, F.TG_SLOT_STS_COUNT, F.TG_SLOT_STS_MODE, F.TG_SLOT_STS_COURSE]
  | .TG_SLOT_CONF => [F.TG_SLOT_CONF_ADDR, F.TG_SLOT_CONF_VALID]
  | .SN_CTL => [F.SN_CTL_INPOL, F.SN_CTL_OUTSEL, F.SN_CTL_MATCH_EN]
  | .SN_SRCEN => [F.SN_SRCEN_EN]
  | .SN_FIRE => [F.SN_FIRE_FIRE]
  | .SN_LAST => [F.SN_LAST_MASK, F.SN_LAST_LATE, F.SN_LAST_SEQ]
  | .SN_TAG_S_LO => [F.SN_TAG_S_LO_V]
  | .SN_TAG_S_HI => [F.SN_TAG_S_HI_V, F.SN_TAG_S_HI_NOTB]
  | .SN_TAG_NS => [F.SN_TAG_NS_V]
  | .SN_TAG_FRAC => [F.SN_TAG_FRAC_V]
  | .SN_MATCH_S_LO => [F.SN_MATCH_S_LO_V]
  | .SN_MATCH_S_HI => [F.SN_MATCH_S_HI_V]
  | .SN_MATCH_NS => [F.SN_MATCH_NS_V]
  | .SN_LOLMASK => [F.SN_LOLMASK_MASK]
  | .SN_CNT_EVT => [F.SN_CNT_EVT_COUNT]
  | .SN_CNT_MERGED => [F.SN_CNT_MERGED_COUNT]
  | .SN_ARMALL => [F.SN_ARMALL_ARM]
  | .SN_BSLOT => [F.SN_BSLOT_ARMED, F.SN_BSLOT_VALID, F.SN_BSLOT_SRC]
  | .SN_SEL => [F.SN_SEL_ID, F.SN_SEL_BLOCK]
  | .SN_DATA => [F.SN_DATA_DATA]
  | .ST_MCMD => [F.ST_MCMD_OP, F.ST_MCMD_LOOP, F.ST_MCMD_STOPFAIL, F.ST_MCMD_GAP]
  | .ST_MSTART => [F.ST_MSTART_FIRST]
  | .ST_MEND => [F.ST_MEND_LAST]
  | .ST_MSTS => [F.ST_MSTS_STATE, F.ST_MSTS_RESULT, F.ST_MSTS_DONE, F.ST_MSTS_PASSES]
  | .ST_MPROG => [F.ST_MPROG_BLOCK]
  | .ST_MSKIP => [F.ST_MSKIP_COUNT]
  | .ST_MFAIL_ADDR => [F.ST_MFAIL_ADDR_ADDR, F.ST_MFAIL_ADDR_VALID]
  | .ST_MFAIL_BIT => [F.ST_MFAIL_BIT_BIT, F.ST_MFAIL_BIT_MULTI]
  | .ST_MFAIL_CNT => [F.ST_MFAIL_CNT_COUNT]
  | .ST_MREP_CMD => [F.ST_MREP_CMD_BANK, F.ST_MREP_CMD_KIND, F.ST_MREP_CMD_INDEX, F.ST_MREP_CMD_OP]
  | .ST_MREP_STS => [F.ST_MREP_STS_BUSY, F.ST_MREP_STS_RESULT, F.ST_MREP_STS_ROWS_LEFT, F.ST_MREP_STS_COLS_LEFT]
  | .ST_LCMD => [F.ST_LCMD_REGION, F.ST_LCMD_OP, F.ST_LCMD_NPAT]
  | .ST_LSTS => [F.ST_LSTS_BUSY, F.ST_LSTS_RESULT, F.ST_LSTS_DONE, F.ST_LSTS_REGION]
  | .ST_LSIG => [F.ST_LSIG_SIG]
  | .ST_LEXP => [F.ST_LEXP_EXP]
  | .ST_LCNT => [F.ST_LCNT_COUNT]
  | .CL_CMD => [F.CL_CMD_OP, F.CL_CMD_KIND, F.CL_CMD_TARGET, F.CL_CMD_NOWAIT, F.CL_CMD_APPLY, F.CL_CMD_REPEAT, F.CL_CMD_PARAM]
  | .CL_STS => [F.CL_STS_STATE, F.CL_STS_CODE, F.CL_STS_WREJ, F.CL_STS_DONE, F.CL_STS_RUNS, F.CL_STS_PCOND]
  | .CL_RES => [F.CL_RES_RES]
  | .CL_SPREAD => [F.CL_SPREAD_SPREAD, F.CL_SPREAD_FIELD]
  | .CL_VCAL => [F.CL_VCAL_VCAL]
  | .CL_CALREF => [F.CL_CALREF_PHASE, F.CL_CALREF_PRESENT, F.CL_CALREF_PPSPRES, F.CL_CALREF_FOFS]
  | .CL_PDT_SEL => [F.CL_PDT_SEL_UNIT, F.CL_PDT_SEL_RATE, F.CL_PDT_SEL_DIR]
  | .CL_PDT_DATA => [F.CL_PDT_DATA_DELAY]
  | .UD_IDENT => [F.UD_IDENT_ID, F.UD_IDENT_KIND, F.UD_IDENT_PARENT, F.UD_IDENT_POLICY, F.UD_IDENT_AUTO]
  | .UD_STATE => [F.UD_STATE_KSTATE, F.UD_STATE_HEALTH, F.UD_STATE_QUORUM, F.UD_STATE_ACTIVE]
  | .UD_LINKS => [F.UD_LINKS_FIRST_CHILD, F.UD_LINKS_NEXT_SIB]
  | .UD_VOTE => [F.UD_VOTE_DOMAIN, F.UD_VOTE_CLIENT, F.UD_VOTE_HELD, F.UD_VOTE_HOLDERS]
  | .UD_FAULT => [F.UD_FAULT_FCODE, F.UD_FAULT_FLATCH]
  | .UD_SNAP => [F.UD_SNAP_ARMED, F.UD_SNAP_VALID, F.UD_SNAP_SRC]
  | .UD_EVENTS => [F.UD_EVENTS_EVENTS]
  | .UD_INDEX => [F.UD_INDEX_INDEX]
  | .LN_PLL_CTL => [F.LN_PLL_CTL_FAMILY, F.LN_PLL_CTL_REFSEL, F.LN_PLL_CTL_NDIV]
  | .LN_PLL_STS => [F.LN_PLL_STS_LOCK, F.LN_PLL_STS_LOL, F.LN_PLL_STS_REFLOS, F.LN_PLL_STS_SPREAD, F.LN_PLL_STS_REFUSED, F.LN_PLL_STS_DOWN, F.LN_PLL_STS_SPREAD_PPM, F.LN_PLL_STS_REFID]
  | .LN_IDLE_TQ => [F.LN_IDLE_TQ_TQ]
  | .LN_FS_STS => [F.LN_FS_STS_OWNER, F.LN_FS_STS_SHADOW, F.LN_FS_STS_CARRY, F.LN_FS_STS_PAD, F.LN_FS_STS_FAULT]
  | .LN_STS => [F.LN_STS_KSTATE, F.LN_STS_SIGDET, F.LN_STS_LOCK, F.LN_STS_ON_FS, F.LN_STS_PLLSEL, F.LN_STS_WREJ, F.LN_STS_POL_DET]
  | .LN_CTL => [F.LN_CTL_SWING, F.LN_CTL_MANUAL, F.LN_CTL_TX_INV, F.LN_CTL_RX_INV, F.LN_CTL_FORCE_SQ]
  | .LN_TX_FFE => [F.LN_TX_FFE_CM3, F.LN_TX_FFE_CM2, F.LN_TX_FFE_CM1, F.LN_TX_FFE_C0, F.LN_TX_FFE_CP1]
  | .LN_RX_EQ => [F.LN_RX_EQ_CTLE, F.LN_RX_EQ_ADAPT, F.LN_RX_EQ_FFE_EN]
  | .LN_RX_DFE => [F.LN_RX_DFE_TAPA, F.LN_RX_DFE_TAPB, F.LN_RX_DFE_TAPC, F.LN_RX_DFE_TAPD]
  | .LN_RX_FFE_SEL => [F.LN_RX_FFE_SEL_TAP]
  | .LN_RX_FFE_DATA => [F.LN_RX_FFE_DATA_VALUE]
  | .LN_CNT_DISP => [F.LN_CNT_DISP_COUNT]
  | .LN_CNT_INV => [F.LN_CNT_INV_COUNT]
  | .LN_CNT_SHDR => [F.LN_CNT_SHDR_COUNT]
  | .LN_CNT_FECSYM => [F.LN_CNT_FECSYM_COUNT]
  | .LN_CNT_LOL => [F.LN_CNT_LOL_COUNT]
  | .LN_CNT_RESCUE => [F.LN_CNT_RESCUE_COUNT]
  | .LN_CNT_IDLE => [F.LN_CNT_IDLE_COUNT]
  | .LN_PT_CTL => [F.LN_PT_CTL_EN, F.LN_PT_CTL_PAT, F.LN_PT_CTL_LOOP, F.LN_PT_CTL_GEN, F.LN_PT_CTL_CHK, F.LN_PT_CTL_RATE, F.LN_PT_CTL_INV, F.LN_PT_CTL_TRIGERR]
  | .LN_PT_STS => [F.LN_PT_STS_STATE, F.LN_PT_STS_RESULT, F.LN_PT_STS_DONE, F.LN_PT_STS_SLIP, F.LN_PT_STS_RESYNC]
  | .LN_PT_ERR => [F.LN_PT_ERR_ERR]
  | .LN_PT_BITS_LO => [F.LN_PT_BITS_LO_V]
  | .LN_PT_BITS_HI => [F.LN_PT_BITS_HI_V]
  | .CS_CTL => [F.CS_CTL_ENABLE, F.CS_CTL_MODE, F.CS_CTL_PROTO, F.CS_CTL_ROLE, F.CS_CTL_TIMING, F.CS_CTL_EEE, F.CS_CTL_AN, F.CS_CTL_REVERSE, F.CS_CTL_VIA_FABRIC, F.CS_CTL_BOOTPROF]
  | .CS_RATE => [F.CS_RATE_RATE, F.CS_RATE_RMIN, F.CS_RATE_RMAX, F.CS_RATE_FEC]
  | .CS_LANES => [F.CS_LANES_LANES]
  | .CS_CTX => [F.CS_CTX_REGION, F.CS_CTX_CTX_VALID, F.CS_CTX_CTX, F.CS_CTX_PAGED, F.CS_CTX_SVC]
  | .CS_STS => [F.CS_STS_KSTATE, F.CS_STS_FCODE, F.CS_STS_SEGA, F.CS_STS_SEGB, F.CS_STS_BACKOFF, F.CS_STS_ON_FS, F.CS_STS_NDEG]
  | .CS_LAT => [F.CS_LAT_LAT, F.CS_LAT_VALID]
  | .CS_SKEW => [F.CS_SKEW_SKEW_AB, F.CS_SKEW_SKEW_BA]
  | .CS_TCHG_S => [F.CS_TCHG_S_SEC]
  | .CS_TCHG_NS => [F.CS_TCHG_NS_NSEC]
  | .CS_CNT_DEG => [F.CS_CNT_DEG_COUNT]
  | .CS_CNT_TRAIN => [F.CS_CNT_TRAIN_COUNT]
  | .CS_SEL => [F.CS_SEL_ACTIVE]
  | .CS_ETH_CFG => [F.CS_ETH_CFG_PHY, F.CS_ETH_CFG_PRECODE_REQ, F.CS_ETH_CFG_INIT, F.CS_ETH_CFG_TTRAIN, F.CS_ETH_CFG_TNEG]
  | .CS_ETH_PG_LO => [F.CS_ETH_PG_LO_PAGE_LO]
  | .CS_ETH_PG_HI => [F.CS_ETH_PG_HI_PAGE_HI, F.CS_ETH_PG_HI_NPCNT, F.CS_ETH_PG_HI_VALID]
  | .CS_ETH_RES => [F.CS_ETH_RES_HCD, F.CS_ETH_RES_FEC, F.CS_ETH_RES_DONE_A, F.CS_ETH_RES_DONE_B, F.CS_ETH_RES_EEE_ADV]
  | .CS_ETH_TR => [F.CS_ETH_TR_LRDY, F.CS_ETH_TR_PRDY, F.CS_ETH_TR_RR_SENT, F.CS_ETH_TR_PREC_TX, F.CS_ETH_TR_PREC_RX, F.CS_ETH_TR_TMO]
  | .CS_ETH_CNT_AN => [F.CS_ETH_CNT_AN_COUNT]
  | .CS_CPRI_CFG => [F.CS_CPRI_CFG_FOLLOW, F.CS_CPRI_CFG_HFNHOLD, F.CS_CPRI_CFG_TNEG]
  | .CS_CPRI_STS => [F.CS_CPRI_STS_RXRATE_A, F.CS_CPRI_STS_RXRATE_B, F.CS_CPRI_STS_HFN_A, F.CS_CPRI_STS_HFN_B, F.CS_CPRI_STS_REFUSE_A, F.CS_CPRI_STS_REFUSE_B]
  | .CS_CPRI_CNT_RATE => [F.CS_CPRI_CNT_RATE_COUNT]
  | .CS_PCI_CFG => [F.CS_PCI_CFG_USP_SIDE, F.CS_PCI_CFG_NFTS_ADD]
  | .CS_PCI_STS => [F.CS_PCI_STS_LTSSM_A, F.CS_PCI_STS_LTSSM_B, F.CS_PCI_STS_WIDTH, F.CS_PCI_STS_POS, F.CS_PCI_STS_THIRD, F.CS_PCI_STS_EQ8, F.CS_PCI_STS_EQ16, F.CS_PCI_STS_EQ32]
  | .CS_PCI_MRG => [F.CS_PCI_MRG_LANE, F.CS_PCI_MRG_RCVR, F.CS_PCI_MRG_ACTIVE]
  | .CS_PCI_CNT_REC => [F.CS_PCI_CNT_REC_COUNT]
  | .CS_PCI_CNT_SPD => [F.CS_PCI_CNT_SPD_COUNT]
  | .CS_PCI_CNT_NAK => [F.CS_PCI_CNT_NAK_COUNT]
  | .TB_CTL => [F.TB_CTL_OWNER, F.TB_CTL_TBREF]
  | .TB_STS => [F.TB_STS_LOCK, F.TB_STS_LOL, F.TB_STS_REFLOS, F.TB_STS_MODE, F.TB_STS_CALSRC, F.TB_STS_WREJ, F.TB_STS_STEPPED, F.TB_STS_GAP, F.TB_STS_SPREAD]
  | .TB_CMD => [F.TB_CMD_LOAD, F.TB_CMD_STEP, F.TB_CMD_CAPTURE]
  | .TB_ADJ => [F.TB_ADJ_RATE]
  | .TB_SET_S_LO => [F.TB_SET_S_LO_V]
  | .TB_SET_S_HI => [F.TB_SET_S_HI_V]
  | .TB_SET_NS => [F.TB_SET_NS_V]
  | .TB_STEP_NS => [F.TB_STEP_NS_V]
  | .TB_STEP_FRAC => [F.TB_STEP_FRAC_V]
  | .TB_CAP_S_LO => [F.TB_CAP_S_LO_V]
  | .TB_CAP_S_HI => [F.TB_CAP_S_HI_V]
  | .TB_CAP_NS => [F.TB_CAP_NS_V]
  | .TB_CAP_FRAC => [F.TB_CAP_FRAC_V]
  | .TB_CAP_FREE_LO => [F.TB_CAP_FREE_LO_V]
  | .TB_CAP_FREE_HI => [F.TB_CAP_FREE_HI_V]
  | .TSU_CTL => [F.TSU_CTL_PTP_EN, F.TSU_CTL_UDP4_EN, F.TSU_CTL_UDP6_EN, F.TSU_CTL_ECPRI_EN]
  | .TSU_STS => [F.TSU_STS_ACTIVE, F.TSU_STS_FS]
  | .TSU_INGD => [F.TSU_INGD_DELAY]
  | .TSU_EGRD => [F.TSU_EGRD_DELAY]
  | .TSU_LAST_RES => [F.TSU_LAST_RES_RES]
  | .TSU_LAST_INFO => [F.TSU_LAST_INFO_SEQ, F.TSU_LAST_INFO_TYPE, F.TSU_LAST_INFO_ECPRI, F.TSU_LAST_INFO_SAT]
  | .TSU_CNT_CORR => [F.TSU_CNT_CORR_COUNT]
  | .TSU_CNT_UNCORR => [F.TSU_CNT_UNCORR_COUNT]
  | .TSU_CNT_SAT => [F.TSU_CNT_SAT_COUNT]
  | .TS_CTL => [F.TS_CTL_ENABLE, F.TS_CTL_TPRIO, F.TS_CTL_STEPANY, F.TS_CTL_MINGRP, F.TS_CTL_PPS_EN, F.TS_CTL_PTP_EN, F.TS_CTL_PTPSVC]
  | .TS_STS => [F.TS_STS_STATE, F.TS_STS_SYNT, F.TS_STS_ACTREF, F.TS_STS_NMEM, F.TS_STS_NGRP, F.TS_STS_FMEM, F.TS_STS_PPSQ, F.TS_STS_PTPQ]
  | .TS_TE => [F.TS_TE_TE]
  | .TS_HOLD_T => [F.TS_HOLD_T_HOLD_T]
  | .TS_SERVO => [F.TS_SERVO_LOCKWIN, F.TS_SERVO_LOCKT, F.TS_SERVO_STEPTHR, F.TS_SERVO_SLEW]
  | .TS_HOLD_CFG => [F.TS_HOLD_CFG_ENS_LIMIT, F.TS_HOLD_CFG_LOC_LIMIT, F.TS_HOLD_CFG_HAVG]
  | .TS_PPS_IN => [F.TS_PPS_IN_POL, F.TS_PPS_IN_BAUD, F.TS_PPS_IN_QUALN, F.TS_PPS_IN_MINQL]
  | .TS_OUT_CTL => [F.TS_OUT_CTL_PPS_W, F.TS_OUT_CTL_SQ, F.TS_OUT_CTL_TOD_EN, F.TS_OUT_CTL_TOD_BAUD]
  | .TS_PPS_OFS => [F.TS_PPS_OFS_OFS]
  | .TS_CLKOUT_CTL => [F.TS_CLKOUT_CTL_SRC, F.TS_CLKOUT_CTL_SLOT, F.TS_CLKOUT_CTL_SQ]
  | .TS_CLKOUT_FREQ => [F.TS_CLKOUT_FREQ_FREQ]
  | .TS_LREF_CTL => [F.TS_LREF_CTL_COURSE, F.TS_LREF_CTL_EN, F.TS_LREF_CTL_QLREQ, F.TS_LREF_CTL_SIDE, F.TS_LREF_CTL_MINQL, F.TS_LREF_CTL_WTR]
  | .TS_LREF_STS => [F.TS_LREF_STS_QUAL, F.TS_LREF_STS_MEMBER, F.TS_LREF_STS_GROUP, F.TS_LREF_STS_QL, F.TS_LREF_STS_QLFAIL, F.TS_LREF_STS_WEIGHT]
  | .TS_LREF_FOFS => [F.TS_LREF_FOFS_FOFS]
  | .TS_LREF_STAB => [F.TS_LREF_STAB_STAB]
  | .TS_SVC_STS => [F.TS_SVC_STS_KIND, F.TS_SVC_STS_REGION, F.TS_SVC_STS_HEALTH, F.TS_SVC_STS_PORTS, F.TS_SVC_STS_CCLASS]
  | .TS_CLS_BASE => [F.TS_CLS_BASE_EN, F.TS_CLS_BASE_BASE]
  | .TS_CLS_CMD => [F.TS_CLS_CMD_OP, F.TS_CLS_CMD_REPLACE]
  | .TS_CLS_STS => [F.TS_CLS_STS_BUSY, F.TS_CLS_STS_RESULT, F.TS_CLS_STS_COUNT]
  | .TS_CLS_KEY => [F.TS_CLS_KEY_KEY]
  | .TS_CLS_ACT => [F.TS_CLS_ACT_ACT]
  | .TS_IE_CTL => [F.TS_IE_CTL_EXT_EN, F.TS_IE_CTL_INS_EN, F.TS_IE_CTL_PROF, F.TS_IE_CTL_IQ, F.TS_IE_CTL_MAXWAIT]
  | .TS_IE_STS => [F.TS_IE_STS_ELASTIC, F.TS_IE_STS_ACTIVE, F.TS_IE_STS_CREDIT]
  | .TS_IE_CNT_EXT => [F.TS_IE_CNT_EXT_COUNT]
  | .TS_IE_CNT_INS => [F.TS_IE_CNT_INS_COUNT]
  | .TS_IE_CNT_DROP => [F.TS_IE_CNT_DROP_COUNT]
  | .TS_IE_CNT_LATE => [F.TS_IE_CNT_LATE_COUNT]
  | .FB_CFG => [F.FB_CFG_SELMODE, F.FB_CFG_FRAMES, F.FB_CFG_COURSE]
  | .FB_STS => [F.FB_STS_ACT_CTX, F.FB_STS_ACT_PAGED, F.FB_STS_SWPEND, F.FB_STS_PGBUSY, F.FB_STS_CWAIT, F.FB_STS_WREJ, F.FB_STS_OUTST]
  | .FB_CTXSEL => [F.FB_CTXSEL_CTX, F.FB_CTXSEL_PAGED]
  | .FB_PACE => [F.FB_PACE_CAP, F.FB_PACE_FLOOR]
  | .FB_PACE_STS => [F.FB_PACE_STS_LIMIT, F.FB_PACE_STS_MEAS]
  | .FB_SLOT => [F.FB_SLOT_KIND, F.FB_SLOT_PNUM, F.FB_SLOT_PIN, F.FB_SLOT_ACTIVE]
  | .FB_PGCMD => [F.FB_PGCMD_OP, F.FB_PGCMD_PNUM]
  | .FB_PGSTS => [F.FB_PGSTS_BUSY, F.FB_PGSTS_RESULT]
  | .FB_GUTMAP => [F.FB_GUTMAP_MAP]
  | .FB_WIN_BASE => [F.FB_WIN_BASE_EN, F.FB_WIN_BASE_BASE]
  | .FB_WIN_LIM => [F.FB_WIN_LIM_LIM]
  | .FB_CNT_SW => [F.FB_CNT_SW_COUNT]
  | .FB_CNT_PGIN => [F.FB_CNT_PGIN_COUNT]
  | .FB_CNT_LATE => [F.FB_CNT_LATE_COUNT]
  | .FB_CNT_GOVF => [F.FB_CNT_GOVF_COUNT]
  | .FB_CNT_GUNF => [F.FB_CNT_GUNF_COUNT]
  | .FB_CNT_DENY => [F.FB_CNT_DENY_COUNT]
  | .MT_CTL => [F.MT_CTL_COMPAT, F.MT_CTL_SCRUB_INT]
  | .MT_STS => [F.MT_STS_WIPING, F.MT_STS_WIPED, F.MT_STS_COMPAT_PEND]
  | .MT_INFLT => [F.MT_INFLT_COUNT]
  | .MT_INFLT_MAX => [F.MT_INFLT_MAX_MAX]
  | .MT_WINBASE => [F.MT_WINBASE_BASE, F.MT_WINBASE_VIEW]
  | .MT_WINSTS => [F.MT_WINSTS_DENY, F.MT_WINSTS_POISON, F.MT_WINSTS_CORR]
  | .MT_ECCLOG_ADDR => [F.MT_ECCLOG_ADDR_ADDR, F.MT_ECCLOG_ADDR_VALID]
  | .MT_ECCLOG_INFO => [F.MT_ECCLOG_INFO_MASTER, F.MT_ECCLOG_INFO_WRITE, F.MT_ECCLOG_INFO_SYND]
  | .MT_COLLIDE => [F.MT_COLLIDE_LOW, F.MT_COLLIDE_HIGH, F.MT_COLLIDE_WINDOW, F.MT_COLLIDE_VLOW, F.MT_COLLIDE_VHIGH, F.MT_COLLIDE_VALID]
  | .MT_COLLIDE_ADDR => [F.MT_COLLIDE_ADDR_ADDR]
  | .MT_POISON => [F.MT_POISON_PORT, F.MT_POISON_MASTER, F.MT_POISON_DIR, F.MT_POISON_SRC, F.MT_POISON_AVALID, F.MT_POISON_VALID]
  | .MT_POISON_ADDR => [F.MT_POISON_ADDR_ADDR]
  | .MT_CNT_CE => [F.MT_CNT_CE_COUNT]
  | .MT_CNT_UE => [F.MT_CNT_UE_COUNT]
  | .MT_CNT_RESEND => [F.MT_CNT_RESEND_COUNT]
  | .MT_CNT_POISON => [F.MT_CNT_POISON_COUNT]
  | .MT_CNT_DENY => [F.MT_CNT_DENY_COUNT]
  | .MT_CONF => [F.MT_CONF_COUNT]
  | .PU_STS => [F.PU_STS_FREE]
  | .PU_POOL => [F.PU_POOL_POOL]
  | .PU_PTSEL => [F.PU_PTSEL_PAGE]
  | .PU_PTE_LO => [F.PU_PTE_LO_LO]
  | .PU_PTE_HI => [F.PU_PTE_HI_HI]
  | .PU_CNT_DROPCAP => [F.PU_CNT_DROPCAP_COUNT]
  | .PU_CNT_DROPPOOL => [F.PU_CNT_DROPPOOL_COUNT]
  | .PU_CNT_PTCE => [F.PU_CNT_PTCE_COUNT]
  | .PU_CNT_PTUE => [F.PU_CNT_PTUE_COUNT]
  | .PU_GCFG => [F.PU_GCFG_EN, F.PU_GCFG_PARENT, F.PU_GCFG_PRIO, F.PU_GCFG_SCHED, F.PU_GCFG_WEIGHT]
  | .PU_GMIN => [F.PU_GMIN_MIN]
  | .PU_GMAX => [F.PU_GMAX_MAX]
  | .PU_GUSED => [F.PU_GUSED_USED]
  | .PU_QCFG => [F.PU_QCFG_EN, F.PU_QCFG_GROUP, F.PU_QCFG_PRIO, F.PU_QCFG_WEIGHT]
  | .PU_QLIM => [F.PU_QLIM_MAX, F.PU_QLIM_CONS]
  | .PU_QHEAD => [F.PU_QHEAD_HEAD]
  | .PU_QTAIL => [F.PU_QTAIL_TAIL]
  | .PU_QPAGES => [F.PU_QPAGES_PAGES]
  | .PU_QDEPTH => [F.PU_QDEPTH_DEPTH]
  | .PU_QSTS => [F.PU_QSTS_KSTATE, F.PU_QSTS_FCODE]
  | .PU_QDROP => [F.PU_QDROP_DROP]
  | .DM_STS => [F.DM_STS_LIFE, F.DM_STS_SEALED, F.DM_STS_KEYSLOT, F.DM_STS_SUSP, F.DM_STS_REFUSE]
  | .DM_SEALCNT => [F.DM_SEALCNT_COUNT, F.DM_SEALCNT_LEFT]
  | .DM_CFG => [F.DM_CFG_INTERVAL, F.DM_CFG_TMPEN, F.DM_CFG_RESTOK, F.DM_CFG_NMETER, F.DM_CFG_RINGSZ]
  | .DM_RING_ID_LO => [F.DM_RING_ID_LO_ID_LO]
  | .DM_RING_ID_HI => [F.DM_RING_ID_HI_ID_HI]
  | .DM_SEQ_OLD => [F.DM_SEQ_OLD_OLD]
  | .DM_SEQ_NEW => [F.DM_SEQ_NEW_NEW]
  | .DM_TAMPER => [F.DM_TAMPER_TAMPER_N, F.DM_TAMPER_GLITCH, F.DM_TAMPER_TEMP, F.DM_TAMPER_IMAGE]
  | .DM_SEL => [F.DM_SEL_SEQ]
  | .DM_RSTS => [F.DM_RSTS_READY, F.DM_RSTS_GONE, F.DM_RSTS_BUSY]
  | .DM_MLIST => [F.DM_MLIST_LIST]
  | .DM_REC => [F.DM_REC_DATA]

/-- The address of a register's first instance (R384, and each field table's heading). -/
def Reg.base (r : Reg) : Nat :=
  match r with
  | .MG_ID => 0x000000
  | .MG_MFR => 0x000004
  | .MG_SERIAL_LO => 0x000008
  | .MG_SERIAL_HI => 0x00000C
  | .MG_SCRATCH => 0x000010
  | .MG_ALERT => 0x000020
  | .MG_ALERTEN => 0x000024
  | .MG_FAULT_ID => 0x000028
  | .MG_BUS => 0x000030
  | .MG_BUSSTS => 0x000034
  | .MG_CNT_NOTRDY => 0x000038
  | .MG_TEMP => 0x000040
  | .PW_CTL => 0x001000
  | .PW_STS => 0x001004
  | .PW_HOLDREP => 0x001008
  | .PW_HELD => 0x001010
  | .PW_HELD_CLO => 0x001014
  | .PW_HELD_CHI => 0x001018
  | .PW_LASTWAKE => 0x001020
  | .PW_WAKEEN => 0x001024
  | .PW_PADREL => 0x001028
  | .PW_NAPSET => 0x001040
  | .PW_ACTSET => 0x001050
  | .PW_HVOTE => 0x001060
  | .PW_ETIM_CTL => 0x001080
  | .PW_ETIM_CNT => 0x001084
  | .PW_DOM => 0x001100
  | .PW_VB_LO => 0x001400
  | .PW_VB_HI => 0x001404
  | .CF_STATUS => 0x002000
  | .CF_STS => 0x002004
  | .CF_RES => 0x002008
  | .CF_ITEM => 0x002010
  | .CF_FLASH => 0x002014
  | .CF_BUILD_LO => 0x002018
  | .CF_BUILD_HI => 0x00201C
  | .CF_VERSION => 0x002020
  | .CF_TBARE => 0x002024
  | .CF_TFULL => 0x002028
  | .CF_CMD => 0x002040
  | .CF_CMDSTS => 0x002044
  | .CF_KEYSTS => 0x002048
  | .CF_RCV_STS => 0x002050
  | .CF_RCV_CNT => 0x002054
  | .CF_KEYH => 0x002080
  | .CF_RCV_DATA => 0x002100
  | .TG_UL_CMD => 0x003100
  | .TG_UL_REQ => 0x003104
  | .TG_UL_STS => 0x003108
  | .TG_UL_LEFT => 0x00310C
  | .TG_UL_CHAL => 0x003120
  | .TG_UL_RESP => 0x003140
  | .TG_UL_GKEY => 0x003160
  | .TG_CMD => 0x003000
  | .TG_RES => 0x003004
  | .TG_ADDR => 0x003008
  | .TG_DATA => 0x00300C
  | .TG_MASK => 0x003010
  | .TG_CNT_COMMIT => 0x003020
  | .TG_CNT_ABORT => 0x003024
  | .TG_SLOT_STS => 0x003040
  | .TG_SLOT_CONF => 0x003044
  | .SN_CTL => 0x004000
  | .SN_SRCEN => 0x004004
  | .SN_FIRE => 0x004008
  | .SN_LAST => 0x00400C
  | .SN_TAG_S_LO => 0x004010
  | .SN_TAG_S_HI => 0x004014
  | .SN_TAG_NS => 0x004018
  | .SN_TAG_FRAC => 0x00401C
  | .SN_MATCH_S_LO => 0x004020
  | .SN_MATCH_S_HI => 0x004024
  | .SN_MATCH_NS => 0x004028
  | .SN_LOLMASK => 0x004030
  | .SN_CNT_EVT => 0x004040
  | .SN_CNT_MERGED => 0x004044
  | .SN_ARMALL => 0x004050
  | .SN_BSLOT => 0x004100
  | .SN_SEL => 0x004200
  | .SN_DATA => 0x004240
  | .ST_MCMD => 0x005000
  | .ST_MSTART => 0x005004
  | .ST_MEND => 0x005008
  | .ST_MSTS => 0x00500C
  | .ST_MPROG => 0x005010
  | .ST_MSKIP => 0x005014
  | .ST_MFAIL_ADDR => 0x005018
  | .ST_MFAIL_BIT => 0x00501C
  | .ST_MFAIL_CNT => 0x005020
  | .ST_MREP_CMD => 0x005030
  | .ST_MREP_STS => 0x005034
  | .ST_LCMD => 0x005040
  | .ST_LSTS => 0x005044
  | .ST_LSIG => 0x005048
  | .ST_LEXP => 0x00504C
  | .ST_LCNT => 0x005050
  | .CL_CMD => 0x006000
  | .CL_STS => 0x006004
  | .CL_RES => 0x006010
  | .CL_SPREAD => 0x006020
  | .CL_VCAL => 0x006024
  | .CL_CALREF => 0x006028
  | .CL_PDT_SEL => 0x006030
  | .CL_PDT_DATA => 0x006034
  | .UD_IDENT => 0x040000
  | .UD_STATE => 0x040004
  | .UD_LINKS => 0x040008
  | .UD_VOTE => 0x04000C
  | .UD_FAULT => 0x040010
  | .UD_SNAP => 0x040014
  | .UD_EVENTS => 0x040018
  | .UD_INDEX => 0x04001C
  | .LN_PLL_CTL => 0x100000
  | .LN_PLL_STS => 0x100004
  | .LN_IDLE_TQ => 0x100020
  | .LN_FS_STS => 0x100800
  | .LN_STS => 0x101000
  | .LN_CTL => 0x101004
  | .LN_TX_FFE => 0x101008
  | .LN_RX_EQ => 0x101010
  | .LN_RX_DFE => 0x101014
  | .LN_RX_FFE_SEL => 0x101020
  | .LN_RX_FFE_DATA => 0x101024
  | .LN_CNT_DISP => 0x101040
  | .LN_CNT_INV => 0x101044
  | .LN_CNT_SHDR => 0x101048
  | .LN_CNT_FECSYM => 0x10104C
  | .LN_CNT_LOL => 0x101050
  | .LN_CNT_RESCUE => 0x101054
  | .LN_CNT_IDLE => 0x101058
  | .LN_PT_CTL => 0x101080
  | .LN_PT_STS => 0x101084
  | .LN_PT_ERR => 0x101088
  | .LN_PT_BITS_LO => 0x10108C
  | .LN_PT_BITS_HI => 0x101090
  | .CS_CTL => 0x180000
  | .CS_RATE => 0x180004
  | .CS_LANES => 0x180008
  | .CS_CTX => 0x180010
  | .CS_STS => 0x180014
  | .CS_LAT => 0x180018
  | .CS_SKEW => 0x180020
  | .CS_TCHG_S => 0x180024
  | .CS_TCHG_NS => 0x180028
  | .CS_CNT_DEG => 0x18002C
  | .CS_CNT_TRAIN => 0x180030
  | .CS_SEL => 0x180034
  | .CS_ETH_CFG => 0x180040
  | .CS_ETH_PG_LO => 0x180044
  | .CS_ETH_PG_HI => 0x180048
  | .CS_ETH_RES => 0x180054
  | .CS_ETH_TR => 0x180058
  | .CS_ETH_CNT_AN => 0x180060
  | .CS_CPRI_CFG => 0x180040
  | .CS_CPRI_STS => 0x180044
  | .CS_CPRI_CNT_RATE => 0x180048
  | .CS_PCI_CFG => 0x180040
  | .CS_PCI_STS => 0x180044
  | .CS_PCI_MRG => 0x180048
  | .CS_PCI_CNT_REC => 0x18004C
  | .CS_PCI_CNT_SPD => 0x180050
  | .CS_PCI_CNT_NAK => 0x180054
  | .TB_CTL => 0x200000
  | .TB_STS => 0x200004
  | .TB_CMD => 0x200008
  | .TB_ADJ => 0x20000C
  | .TB_SET_S_LO => 0x200010
  | .TB_SET_S_HI => 0x200014
  | .TB_SET_NS => 0x200018
  | .TB_STEP_NS => 0x20001C
  | .TB_STEP_FRAC => 0x200020
  | .TB_CAP_S_LO => 0x200030
  | .TB_CAP_S_HI => 0x200034
  | .TB_CAP_NS => 0x200038
  | .TB_CAP_FRAC => 0x20003C
  | .TB_CAP_FREE_LO => 0x200040
  | .TB_CAP_FREE_HI => 0x200044
  | .TSU_CTL => 0x201000
  | .TSU_STS => 0x201004
  | .TSU_INGD => 0x201008
  | .TSU_EGRD => 0x20100C
  | .TSU_LAST_RES => 0x201010
  | .TSU_LAST_INFO => 0x201014
  | .TSU_CNT_CORR => 0x201018
  | .TSU_CNT_UNCORR => 0x20101C
  | .TSU_CNT_SAT => 0x201020
  | .TS_CTL => 0x210000
  | .TS_STS => 0x210004
  | .TS_TE => 0x210008
  | .TS_HOLD_T => 0x21000C
  | .TS_SERVO => 0x210010
  | .TS_HOLD_CFG => 0x210014
  | .TS_PPS_IN => 0x210020
  | .TS_OUT_CTL => 0x210024
  | .TS_PPS_OFS => 0x210028
  | .TS_CLKOUT_CTL => 0x210030
  | .TS_CLKOUT_FREQ => 0x210034
  | .TS_LREF_CTL => 0x210100
  | .TS_LREF_STS => 0x210104
  | .TS_LREF_FOFS => 0x210108
  | .TS_LREF_STAB => 0x21010C
  | .TS_SVC_STS => 0x210200
  | .TS_CLS_BASE => 0x210300
  | .TS_CLS_CMD => 0x210304
  | .TS_CLS_STS => 0x210308
  | .TS_CLS_KEY => 0x210310
  | .TS_CLS_ACT => 0x210328
  | .TS_IE_CTL => 0x211000
  | .TS_IE_STS => 0x211004
  | .TS_IE_CNT_EXT => 0x211008
  | .TS_IE_CNT_INS => 0x21100C
  | .TS_IE_CNT_DROP => 0x211010
  | .TS_IE_CNT_LATE => 0x211014
  | .FB_CFG => 0x300000
  | .FB_STS => 0x300004
  | .FB_CTXSEL => 0x300008
  | .FB_PACE => 0x30000C
  | .FB_PACE_STS => 0x300010
  | .FB_SLOT => 0x300020
  | .FB_PGCMD => 0x300040
  | .FB_PGSTS => 0x300044
  | .FB_GUTMAP => 0x300050
  | .FB_WIN_BASE => 0x300060
  | .FB_WIN_LIM => 0x300064
  | .FB_CNT_SW => 0x300080
  | .FB_CNT_PGIN => 0x300084
  | .FB_CNT_LATE => 0x300088
  | .FB_CNT_GOVF => 0x30008C
  | .FB_CNT_GUNF => 0x300090
  | .FB_CNT_DENY => 0x300094
  | .MT_CTL => 0x400000
  | .MT_STS => 0x400004
  | .MT_INFLT => 0x400008
  | .MT_INFLT_MAX => 0x40000C
  | .MT_WINBASE => 0x400010
  | .MT_WINSTS => 0x400014
  | .MT_ECCLOG_ADDR => 0x400020
  | .MT_ECCLOG_INFO => 0x400024
  | .MT_COLLIDE => 0x400040
  | .MT_COLLIDE_ADDR => 0x400044
  | .MT_POISON => 0x400050
  | .MT_POISON_ADDR => 0x400054
  | .MT_CNT_CE => 0x400060
  | .MT_CNT_UE => 0x400064
  | .MT_CNT_RESEND => 0x400068
  | .MT_CNT_POISON => 0x40006C
  | .MT_CNT_DENY => 0x400070
  | .MT_CONF => 0x400100
  | .PU_STS => 0x410000
  | .PU_POOL => 0x410004
  | .PU_PTSEL => 0x410010
  | .PU_PTE_LO => 0x410014
  | .PU_PTE_HI => 0x410018
  | .PU_CNT_DROPCAP => 0x410020
  | .PU_CNT_DROPPOOL => 0x410024
  | .PU_CNT_PTCE => 0x410028
  | .PU_CNT_PTUE => 0x41002C
  | .PU_GCFG => 0x414000
  | .PU_GMIN => 0x414004
  | .PU_GMAX => 0x414008
  | .PU_GUSED => 0x41400C
  | .PU_QCFG => 0x420000
  | .PU_QLIM => 0x420004
  | .PU_QHEAD => 0x420008
  | .PU_QTAIL => 0x42000C
  | .PU_QPAGES => 0x420010
  | .PU_QDEPTH => 0x420014
  | .PU_QSTS => 0x420018
  | .PU_QDROP => 0x42001C
  | .DM_STS => 0x500000
  | .DM_SEALCNT => 0x500004
  | .DM_CFG => 0x500008
  | .DM_RING_ID_LO => 0x500010
  | .DM_RING_ID_HI => 0x500014
  | .DM_SEQ_OLD => 0x500018
  | .DM_SEQ_NEW => 0x50001C
  | .DM_TAMPER => 0x500020
  | .DM_SEL => 0x500030
  | .DM_RSTS => 0x500034
  | .DM_MLIST => 0x500040
  | .DM_REC => 0x501000

/-- How the instances of a register repeat: (count, byte stride, index weight) per dimension, largest
stride first.  The instance number is the weighted sum of the positions. -/
def Reg.dims (r : Reg) : List (Nat × Nat × Nat) :=
  match r with
  | .MG_ID => []
  | .MG_MFR => []
  | .MG_SERIAL_LO => []
  | .MG_SERIAL_HI => []
  | .MG_SCRATCH => []
  | .MG_ALERT => []
  | .MG_ALERTEN => []
  | .MG_FAULT_ID => []
  | .MG_BUS => []
  | .MG_BUSSTS => []
  | .MG_CNT_NOTRDY => []
  | .MG_TEMP => [(4, 4, 1)]
  | .PW_CTL => []
  | .PW_STS => []
  | .PW_HOLDREP => []
  | .PW_HELD => []
  | .PW_HELD_CLO => []
  | .PW_HELD_CHI => []
  | .PW_LASTWAKE => []
  | .PW_WAKEEN => []
  | .PW_PADREL => []
  | .PW_NAPSET => [(4, 4, 1)]
  | .PW_ACTSET => [(4, 4, 1)]
  | .PW_HVOTE => [(4, 4, 1)]
  | .PW_ETIM_CTL => [(4, 8, 1)]
  | .PW_ETIM_CNT => [(4, 8, 1)]
  | .PW_DOM => [(127, 4, 1)]
  | .PW_VB_LO => [(128, 8, 1)]
  | .PW_VB_HI => [(128, 8, 1)]
  | .CF_STATUS => []
  | .CF_STS => []
  | .CF_RES => [(2, 4, 1)]
  | .CF_ITEM => []
  | .CF_FLASH => []
  | .CF_BUILD_LO => []
  | .CF_BUILD_HI => []
  | .CF_VERSION => []
  | .CF_TBARE => []
  | .CF_TFULL => []
  | .CF_CMD => []
  | .CF_CMDSTS => []
  | .CF_KEYSTS => []
  | .CF_RCV_STS => []
  | .CF_RCV_CNT => []
  | .CF_KEYH => [(12, 4, 1)]
  | .CF_RCV_DATA => [(64, 4, 1)]
  | .TG_UL_CMD => []
  | .TG_UL_REQ => []
  | .TG_UL_STS => []
  | .TG_UL_LEFT => []
  | .TG_UL_CHAL => [(8, 4, 1)]
  | .TG_UL_RESP => [(4, 4, 1)]
  | .TG_UL_GKEY => [(8, 4, 1)]
  | .TG_CMD => []
  | .TG_RES => []
  | .TG_ADDR => []
  | .TG_DATA => []
  | .TG_MASK => []
  | .TG_CNT_COMMIT => []
  | .TG_CNT_ABORT => []
  | .TG_SLOT_STS => [(16, 16, 1)]
  | .TG_SLOT_CONF => [(16, 16, 1)]
  | .SN_CTL => []
  | .SN_SRCEN => []
  | .SN_FIRE => []
  | .SN_LAST => []
  | .SN_TAG_S_LO => []
  | .SN_TAG_S_HI => []
  | .SN_TAG_NS => []
  | .SN_TAG_FRAC => []
  | .SN_MATCH_S_LO => []
  | .SN_MATCH_S_HI => []
  | .SN_MATCH_NS => []
  | .SN_LOLMASK => [(2, 4, 1)]
  | .SN_CNT_EVT => []
  | .SN_CNT_MERGED => []
  | .SN_ARMALL => []
  | .SN_BSLOT => [(7, 4, 1)]
  | .SN_SEL => []
  | .SN_DATA => [(23, 4, 1)]
  | .ST_MCMD => []
  | .ST_MSTART => []
  | .ST_MEND => []
  | .ST_MSTS => []
  | .ST_MPROG => []
  | .ST_MSKIP => []
  | .ST_MFAIL_ADDR => []
  | .ST_MFAIL_BIT => []
  | .ST_MFAIL_CNT => []
  | .ST_MREP_CMD => []
  | .ST_MREP_STS => []
  | .ST_LCMD => []
  | .ST_LSTS => []
  | .ST_LSIG => []
  | .ST_LEXP => []
  | .ST_LCNT => []
  | .CL_CMD => []
  | .CL_STS => []
  | .CL_RES => [(4, 4, 1)]
  | .CL_SPREAD => []
  | .CL_VCAL => []
  | .CL_CALREF => []
  | .CL_PDT_SEL => []
  | .CL_PDT_DATA => []
  | .UD_IDENT => [(4096, 32, 1)]
  | .UD_STATE => [(4096, 32, 1)]
  | .UD_LINKS => [(4096, 32, 1)]
  | .UD_VOTE => [(4096, 32, 1)]
  | .UD_FAULT => [(4096, 32, 1)]
  | .UD_SNAP => [(4096, 32, 1)]
  | .UD_EVENTS => [(4096, 32, 1)]
  | .UD_INDEX => [(4096, 32, 1)]
  | .LN_PLL_CTL => [(8, 65536, 2), (2, 16, 1)]
  | .LN_PLL_STS => [(8, 65536, 2), (2, 16, 1)]
  | .LN_IDLE_TQ => [(8, 65536, 1)]
  | .LN_FS_STS => [(8, 65536, 1), (2, 1024, 8)]
  | .LN_STS => [(8, 65536, 8), (2, 16384, 64), (8, 2048, 1)]
  | .LN_CTL => [(8, 65536, 8), (2, 16384, 64), (8, 2048, 1)]
  | .LN_TX_FFE => [(8, 65536, 8), (2, 16384, 64), (8, 2048, 1)]
  | .LN_RX_EQ => [(8, 65536, 8), (2, 16384, 64), (8, 2048, 1)]
  | .LN_RX_DFE => [(8, 65536, 24), (2, 16384, 192), (8, 2048, 3), (3, 4, 1)]
  | .LN_RX_FFE_SEL => [(8, 65536, 8), (2, 16384, 64), (8, 2048, 1)]
  | .LN_RX_FFE_DATA => [(8, 65536, 8), (2, 16384, 64), (8, 2048, 1)]
  | .LN_CNT_DISP => [(8, 65536, 8), (2, 16384, 64), (8, 2048, 1)]
  | .LN_CNT_INV => [(8, 65536, 8), (2, 16384, 64), (8, 2048, 1)]
  | .LN_CNT_SHDR => [(8, 65536, 8), (2, 16384, 64), (8, 2048, 1)]
  | .LN_CNT_FECSYM => [(8, 65536, 8), (2, 16384, 64), (8, 2048, 1)]
  | .LN_CNT_LOL => [(8, 65536, 8), (2, 16384, 64), (8, 2048, 1)]
  | .LN_CNT_RESCUE => [(8, 65536, 8), (2, 16384, 64), (8, 2048, 1)]
  | .LN_CNT_IDLE => [(8, 65536, 8), (2, 16384, 64), (8, 2048, 1)]
  | .LN_PT_CTL => [(8, 65536, 8), (2, 16384, 64), (8, 2048, 1)]
  | .LN_PT_STS => [(8, 65536, 8), (2, 16384, 64), (8, 2048, 1)]
  | .LN_PT_ERR => [(8, 65536, 8), (2, 16384, 64), (8, 2048, 1)]
  | .LN_PT_BITS_LO => [(8, 65536, 8), (2, 16384, 64), (8, 2048, 1)]
  | .LN_PT_BITS_HI => [(8, 65536, 8), (2, 16384, 64), (8, 2048, 1)]
  | .CS_CTL => [(512, 128, 1)]
  | .CS_RATE => [(512, 128, 1)]
  | .CS_LANES => [(512, 128, 2), (2, 4, 1)]
  | .CS_CTX => [(512, 128, 1)]
  | .CS_STS => [(512, 128, 1)]
  | .CS_LAT => [(512, 128, 2), (2, 4, 1)]
  | .CS_SKEW => [(512, 128, 1)]
  | .CS_TCHG_S => [(512, 128, 1)]
  | .CS_TCHG_NS => [(512, 128, 1)]
  | .CS_CNT_DEG => [(512, 128, 1)]
  | .CS_CNT_TRAIN => [(512, 128, 1)]
  | .CS_SEL => [(512, 128, 1)]
  | .CS_ETH_CFG => [(512, 128, 1)]
  | .CS_ETH_PG_LO => [(512, 128, 2), (2, 8, 1)]
  | .CS_ETH_PG_HI => [(512, 128, 2), (2, 8, 1)]
  | .CS_ETH_RES => [(512, 128, 1)]
  | .CS_ETH_TR => [(512, 128, 2), (2, 4, 1)]
  | .CS_ETH_CNT_AN => [(512, 128, 1)]
  | .CS_CPRI_CFG => [(512, 128, 1)]
  | .CS_CPRI_STS => [(512, 128, 1)]
  | .CS_CPRI_CNT_RATE => [(512, 128, 1)]
  | .CS_PCI_CFG => [(512, 128, 1)]
  | .CS_PCI_STS => [(512, 128, 1)]
  | .CS_PCI_MRG => [(512, 128, 1)]
  | .CS_PCI_CNT_REC => [(512, 128, 1)]
  | .CS_PCI_CNT_SPD => [(512, 128, 1)]
  | .CS_PCI_CNT_NAK => [(512, 128, 1)]
  | .TB_CTL => []
  | .TB_STS => []
  | .TB_CMD => []
  | .TB_ADJ => []
  | .TB_SET_S_LO => []
  | .TB_SET_S_HI => []
  | .TB_SET_NS => []
  | .TB_STEP_NS => []
  | .TB_STEP_FRAC => []
  | .TB_CAP_S_LO => []
  | .TB_CAP_S_HI => []
  | .TB_CAP_NS => []
  | .TB_CAP_FRAC => []
  | .TB_CAP_FREE_LO => []
  | .TB_CAP_FREE_HI => []
  | .TSU_CTL => [(128, 64, 1)]
  | .TSU_STS => [(128, 64, 1)]
  | .TSU_INGD => [(128, 64, 1)]
  | .TSU_EGRD => [(128, 64, 1)]
  | .TSU_LAST_RES => [(128, 64, 1)]
  | .TSU_LAST_INFO => [(128, 64, 1)]
  | .TSU_CNT_CORR => [(128, 64, 1)]
  | .TSU_CNT_UNCORR => [(128, 64, 1)]
  | .TSU_CNT_SAT => [(128, 64, 1)]
  | .TS_CTL => []
  | .TS_STS => []
  | .TS_TE => []
  | .TS_HOLD_T => []
  | .TS_SERVO => []
  | .TS_HOLD_CFG => []
  | .TS_PPS_IN => []
  | .TS_OUT_CTL => []
  | .TS_PPS_OFS => []
  | .TS_CLKOUT_CTL => [(2, 8, 1)]
  | .TS_CLKOUT_FREQ => [(2, 8, 1)]
  | .TS_LREF_CTL => [(16, 16, 1)]
  | .TS_LREF_STS => [(16, 16, 1)]
  | .TS_LREF_FOFS => [(16, 16, 1)]
  | .TS_LREF_STAB => [(16, 16, 1)]
  | .TS_SVC_STS => [(8, 16, 1)]
  | .TS_CLS_BASE => []
  | .TS_CLS_CMD => []
  | .TS_CLS_STS => []
  | .TS_CLS_KEY => [(6, 4, 1)]
  | .TS_CLS_ACT => [(2, 4, 1)]
  | .TS_IE_CTL => [(128, 32, 1)]
  | .TS_IE_STS => [(128, 32, 1)]
  | .TS_IE_CNT_EXT => [(128, 32, 1)]
  | .TS_IE_CNT_INS => [(128, 32, 1)]
  | .TS_IE_CNT_DROP => [(128, 32, 1)]
  | .TS_IE_CNT_LATE => [(128, 32, 1)]
  | .FB_CFG => [(64, 4096, 1)]
  | .FB_STS => [(64, 4096, 1)]
  | .FB_CTXSEL => [(64, 4096, 1)]
  | .FB_PACE => [(64, 4096, 1)]
  | .FB_PACE_STS => [(64, 4096, 1)]
  | .FB_SLOT => [(64, 4096, 8), (8, 4, 1)]
  | .FB_PGCMD => [(64, 4096, 1)]
  | .FB_PGSTS => [(64, 4096, 1)]
  | .FB_GUTMAP => [(64, 4096, 4), (4, 4, 1)]
  | .FB_WIN_BASE => [(64, 4096, 4), (4, 8, 1)]
  | .FB_WIN_LIM => [(64, 4096, 4), (4, 8, 1)]
  | .FB_CNT_SW => [(64, 4096, 1)]
  | .FB_CNT_PGIN => [(64, 4096, 1)]
  | .FB_CNT_LATE => [(64, 4096, 1)]
  | .FB_CNT_GOVF => [(64, 4096, 1)]
  | .FB_CNT_GUNF => [(64, 4096, 1)]
  | .FB_CNT_DENY => [(64, 4096, 1)]
  | .MT_CTL => []
  | .MT_STS => []
  | .MT_INFLT => []
  | .MT_INFLT_MAX => []
  | .MT_WINBASE => []
  | .MT_WINSTS => []
  | .MT_ECCLOG_ADDR => []
  | .MT_ECCLOG_INFO => []
  | .MT_COLLIDE => []
  | .MT_COLLIDE_ADDR => []
  | .MT_POISON => []
  | .MT_POISON_ADDR => []
  | .MT_CNT_CE => []
  | .MT_CNT_UE => []
  | .MT_CNT_RESEND => []
  | .MT_CNT_POISON => []
  | .MT_CNT_DENY => []
  | .MT_CONF => [(69, 4, 1)]
  | .PU_STS => []
  | .PU_POOL => []
  | .PU_PTSEL => []
  | .PU_PTE_LO => []
  | .PU_PTE_HI => []
  | .PU_CNT_DROPCAP => []
  | .PU_CNT_DROPPOOL => []
  | .PU_CNT_PTCE => []
  | .PU_CNT_PTUE => []
  | .PU_GCFG => [(1024, 16, 1)]
  | .PU_GMIN => [(1024, 16, 1)]
  | .PU_GMAX => [(1024, 16, 1)]
  | .PU_GUSED => [(1024, 16, 1)]
  | .PU_QCFG => [(16384, 32, 1)]
  | .PU_QLIM => [(16384, 32, 1)]
  | .PU_QHEAD => [(16384, 32, 1)]
  | .PU_QTAIL => [(16384, 32, 1)]
  | .PU_QPAGES => [(16384, 32, 1)]
  | .PU_QDEPTH => [(16384, 32, 1)]
  | .PU_QSTS => [(16384, 32, 1)]
  | .PU_QDROP => [(16384, 32, 1)]
  | .DM_STS => []
  | .DM_SEALCNT => []
  | .DM_CFG => []
  | .DM_RING_ID_LO => []
  | .DM_RING_ID_HI => []
  | .DM_SEQ_OLD => []
  | .DM_SEQ_NEW => []
  | .DM_TAMPER => []
  | .DM_SEL => []
  | .DM_RSTS => []
  | .DM_MLIST => [(8, 4, 1)]
  | .DM_REC => [(128, 4, 1)]

/-- Every register, part 0. -/
def Reg.all0 : List Reg :=
  [.MG_ID, .MG_MFR, .MG_SERIAL_LO, .MG_SERIAL_HI, .MG_SCRATCH, .MG_ALERT, .MG_ALERTEN, .MG_FAULT_ID, .MG_BUS, .MG_BUSSTS, .MG_CNT_NOTRDY, .MG_TEMP, .PW_CTL, .PW_STS, .PW_HOLDREP, .PW_HELD, .PW_HELD_CLO, .PW_HELD_CHI, .PW_LASTWAKE, .PW_WAKEEN, .PW_PADREL, .PW_NAPSET, .PW_ACTSET, .PW_HVOTE, .PW_ETIM_CTL, .PW_ETIM_CNT, .PW_DOM, .PW_VB_LO, .PW_VB_HI, .CF_STATUS, .CF_STS, .CF_RES, .CF_ITEM, .CF_FLASH, .CF_BUILD_LO, .CF_BUILD_HI, .CF_VERSION, .CF_TBARE, .CF_TFULL, .CF_CMD, .CF_CMDSTS, .CF_KEYSTS, .CF_RCV_STS, .CF_RCV_CNT, .CF_KEYH, .CF_RCV_DATA, .TG_UL_CMD, .TG_UL_REQ]

/-- Every register, part 1. -/
def Reg.all1 : List Reg :=
  [.TG_UL_STS, .TG_UL_LEFT, .TG_UL_CHAL, .TG_UL_RESP, .TG_UL_GKEY, .TG_CMD, .TG_RES, .TG_ADDR, .TG_DATA, .TG_MASK, .TG_CNT_COMMIT, .TG_CNT_ABORT, .TG_SLOT_STS, .TG_SLOT_CONF, .SN_CTL, .SN_SRCEN, .SN_FIRE, .SN_LAST, .SN_TAG_S_LO, .SN_TAG_S_HI, .SN_TAG_NS, .SN_TAG_FRAC, .SN_MATCH_S_LO, .SN_MATCH_S_HI, .SN_MATCH_NS, .SN_LOLMASK, .SN_CNT_EVT, .SN_CNT_MERGED, .SN_ARMALL, .SN_BSLOT, .SN_SEL, .SN_DATA, .ST_MCMD, .ST_MSTART, .ST_MEND, .ST_MSTS, .ST_MPROG, .ST_MSKIP, .ST_MFAIL_ADDR, .ST_MFAIL_BIT, .ST_MFAIL_CNT, .ST_MREP_CMD, .ST_MREP_STS, .ST_LCMD, .ST_LSTS, .ST_LSIG, .ST_LEXP, .ST_LCNT]

/-- Every register, part 2. -/
def Reg.all2 : List Reg :=
  [.CL_CMD, .CL_STS, .CL_RES, .CL_SPREAD, .CL_VCAL, .CL_CALREF, .CL_PDT_SEL, .CL_PDT_DATA, .UD_IDENT, .UD_STATE, .UD_LINKS, .UD_VOTE, .UD_FAULT, .UD_SNAP, .UD_EVENTS, .UD_INDEX, .LN_PLL_CTL, .LN_PLL_STS, .LN_IDLE_TQ, .LN_FS_STS, .LN_STS, .LN_CTL, .LN_TX_FFE, .LN_RX_EQ, .LN_RX_DFE, .LN_RX_FFE_SEL, .LN_RX_FFE_DATA, .LN_CNT_DISP, .LN_CNT_INV, .LN_CNT_SHDR, .LN_CNT_FECSYM, .LN_CNT_LOL, .LN_CNT_RESCUE, .LN_CNT_IDLE, .LN_PT_CTL, .LN_PT_STS, .LN_PT_ERR, .LN_PT_BITS_LO, .LN_PT_BITS_HI, .CS_CTL, .CS_RATE, .CS_LANES, .CS_CTX, .CS_STS, .CS_LAT, .CS_SKEW, .CS_TCHG_S, .CS_TCHG_NS]

/-- Every register, part 3. -/
def Reg.all3 : List Reg :=
  [.CS_CNT_DEG, .CS_CNT_TRAIN, .CS_SEL, .CS_ETH_CFG, .CS_ETH_PG_LO, .CS_ETH_PG_HI, .CS_ETH_RES, .CS_ETH_TR, .CS_ETH_CNT_AN, .CS_CPRI_CFG, .CS_CPRI_STS, .CS_CPRI_CNT_RATE, .CS_PCI_CFG, .CS_PCI_STS, .CS_PCI_MRG, .CS_PCI_CNT_REC, .CS_PCI_CNT_SPD, .CS_PCI_CNT_NAK, .TB_CTL, .TB_STS, .TB_CMD, .TB_ADJ, .TB_SET_S_LO, .TB_SET_S_HI, .TB_SET_NS, .TB_STEP_NS, .TB_STEP_FRAC, .TB_CAP_S_LO, .TB_CAP_S_HI, .TB_CAP_NS, .TB_CAP_FRAC, .TB_CAP_FREE_LO, .TB_CAP_FREE_HI, .TSU_CTL, .TSU_STS, .TSU_INGD, .TSU_EGRD, .TSU_LAST_RES, .TSU_LAST_INFO, .TSU_CNT_CORR, .TSU_CNT_UNCORR, .TSU_CNT_SAT, .TS_CTL, .TS_STS, .TS_TE, .TS_HOLD_T, .TS_SERVO, .TS_HOLD_CFG]

/-- Every register, part 4. -/
def Reg.all4 : List Reg :=
  [.TS_PPS_IN, .TS_OUT_CTL, .TS_PPS_OFS, .TS_CLKOUT_CTL, .TS_CLKOUT_FREQ, .TS_LREF_CTL, .TS_LREF_STS, .TS_LREF_FOFS, .TS_LREF_STAB, .TS_SVC_STS, .TS_CLS_BASE, .TS_CLS_CMD, .TS_CLS_STS, .TS_CLS_KEY, .TS_CLS_ACT, .TS_IE_CTL, .TS_IE_STS, .TS_IE_CNT_EXT, .TS_IE_CNT_INS, .TS_IE_CNT_DROP, .TS_IE_CNT_LATE, .FB_CFG, .FB_STS, .FB_CTXSEL, .FB_PACE, .FB_PACE_STS, .FB_SLOT, .FB_PGCMD, .FB_PGSTS, .FB_GUTMAP, .FB_WIN_BASE, .FB_WIN_LIM, .FB_CNT_SW, .FB_CNT_PGIN, .FB_CNT_LATE, .FB_CNT_GOVF, .FB_CNT_GUNF, .FB_CNT_DENY, .MT_CTL, .MT_STS, .MT_INFLT, .MT_INFLT_MAX, .MT_WINBASE, .MT_WINSTS, .MT_ECCLOG_ADDR, .MT_ECCLOG_INFO, .MT_COLLIDE, .MT_COLLIDE_ADDR]

/-- Every register, part 5. -/
def Reg.all5 : List Reg :=
  [.MT_POISON, .MT_POISON_ADDR, .MT_CNT_CE, .MT_CNT_UE, .MT_CNT_RESEND, .MT_CNT_POISON, .MT_CNT_DENY, .MT_CONF, .PU_STS, .PU_POOL, .PU_PTSEL, .PU_PTE_LO, .PU_PTE_HI, .PU_CNT_DROPCAP, .PU_CNT_DROPPOOL, .PU_CNT_PTCE, .PU_CNT_PTUE, .PU_GCFG, .PU_GMIN, .PU_GMAX, .PU_GUSED, .PU_QCFG, .PU_QLIM, .PU_QHEAD, .PU_QTAIL, .PU_QPAGES, .PU_QDEPTH, .PU_QSTS, .PU_QDROP, .DM_STS, .DM_SEALCNT, .DM_CFG, .DM_RING_ID_LO, .DM_RING_ID_HI, .DM_SEQ_OLD, .DM_SEQ_NEW, .DM_TAMPER, .DM_SEL, .DM_RSTS, .DM_MLIST, .DM_REC]

/-- Every register, in address-map order of the chapters. -/
def Reg.all : List Reg := Reg.all0 ++ Reg.all1 ++ Reg.all2 ++ Reg.all3 ++ Reg.all4 ++ Reg.all5

/-- The register blocks of the address map (R384). -/
inductive Block where
  | mg | pw | cf | tg | sn | st | cl | ud | ln | cs | tb | tsu | ts | fb | mt | pu | dm
  deriving DecidableEq, Repr

/-- The block a register belongs to: the prefix of its name. -/
def Reg.block (r : Reg) : Block :=
  match r with
  | .MG_ID => .mg
  | .MG_MFR => .mg
  | .MG_SERIAL_LO => .mg
  | .MG_SERIAL_HI => .mg
  | .MG_SCRATCH => .mg
  | .MG_ALERT => .mg
  | .MG_ALERTEN => .mg
  | .MG_FAULT_ID => .mg
  | .MG_BUS => .mg
  | .MG_BUSSTS => .mg
  | .MG_CNT_NOTRDY => .mg
  | .MG_TEMP => .mg
  | .PW_CTL => .pw
  | .PW_STS => .pw
  | .PW_HOLDREP => .pw
  | .PW_HELD => .pw
  | .PW_HELD_CLO => .pw
  | .PW_HELD_CHI => .pw
  | .PW_LASTWAKE => .pw
  | .PW_WAKEEN => .pw
  | .PW_PADREL => .pw
  | .PW_NAPSET => .pw
  | .PW_ACTSET => .pw
  | .PW_HVOTE => .pw
  | .PW_ETIM_CTL => .pw
  | .PW_ETIM_CNT => .pw
  | .PW_DOM => .pw
  | .PW_VB_LO => .pw
  | .PW_VB_HI => .pw
  | .CF_STATUS => .cf
  | .CF_STS => .cf
  | .CF_RES => .cf
  | .CF_ITEM => .cf
  | .CF_FLASH => .cf
  | .CF_BUILD_LO => .cf
  | .CF_BUILD_HI => .cf
  | .CF_VERSION => .cf
  | .CF_TBARE => .cf
  | .CF_TFULL => .cf
  | .CF_CMD => .cf
  | .CF_CMDSTS => .cf
  | .CF_KEYSTS => .cf
  | .CF_RCV_STS => .cf
  | .CF_RCV_CNT => .cf
  | .CF_KEYH => .cf
  | .CF_RCV_DATA => .cf
  | .TG_UL_CMD => .tg
  | .TG_UL_REQ => .tg
  | .TG_UL_STS => .tg
  | .TG_UL_LEFT => .tg
  | .TG_UL_CHAL => .tg
  | .TG_UL_RESP => .tg
  | .TG_UL_GKEY => .tg
  | .TG_CMD => .tg
  | .TG_RES => .tg
  | .TG_ADDR => .tg
  | .TG_DATA => .tg
  | .TG_MASK => .tg
  | .TG_CNT_COMMIT => .tg
  | .TG_CNT_ABORT => .tg
  | .TG_SLOT_STS => .tg
  | .TG_SLOT_CONF => .tg
  | .SN_CTL => .sn
  | .SN_SRCEN => .sn
  | .SN_FIRE => .sn
  | .SN_LAST => .sn
  | .SN_TAG_S_LO => .sn
  | .SN_TAG_S_HI => .sn
  | .SN_TAG_NS => .sn
  | .SN_TAG_FRAC => .sn
  | .SN_MATCH_S_LO => .sn
  | .SN_MATCH_S_HI => .sn
  | .SN_MATCH_NS => .sn
  | .SN_LOLMASK => .sn
  | .SN_CNT_EVT => .sn
  | .SN_CNT_MERGED => .sn
  | .SN_ARMALL => .sn
  | .SN_BSLOT => .sn
  | .SN_SEL => .sn
  | .SN_DATA => .sn
  | .ST_MCMD => .st
  | .ST_MSTART => .st
  | .ST_MEND => .st
  | .ST_MSTS => .st
  | .ST_MPROG => .st
  | .ST_MSKIP => .st
  | .ST_MFAIL_ADDR => .st
  | .ST_MFAIL_BIT => .st
  | .ST_MFAIL_CNT => .st
  | .ST_MREP_CMD => .st
  | .ST_MREP_STS => .st
  | .ST_LCMD => .st
  | .ST_LSTS => .st
  | .ST_LSIG => .st
  | .ST_LEXP => .st
  | .ST_LCNT => .st
  | .CL_CMD => .cl
  | .CL_STS => .cl
  | .CL_RES => .cl
  | .CL_SPREAD => .cl
  | .CL_VCAL => .cl
  | .CL_CALREF => .cl
  | .CL_PDT_SEL => .cl
  | .CL_PDT_DATA => .cl
  | .UD_IDENT => .ud
  | .UD_STATE => .ud
  | .UD_LINKS => .ud
  | .UD_VOTE => .ud
  | .UD_FAULT => .ud
  | .UD_SNAP => .ud
  | .UD_EVENTS => .ud
  | .UD_INDEX => .ud
  | .LN_PLL_CTL => .ln
  | .LN_PLL_STS => .ln
  | .LN_IDLE_TQ => .ln
  | .LN_FS_STS => .ln
  | .LN_STS => .ln
  | .LN_CTL => .ln
  | .LN_TX_FFE => .ln
  | .LN_RX_EQ => .ln
  | .LN_RX_DFE => .ln
  | .LN_RX_FFE_SEL => .ln
  | .LN_RX_FFE_DATA => .ln
  | .LN_CNT_DISP => .ln
  | .LN_CNT_INV => .ln
  | .LN_CNT_SHDR => .ln
  | .LN_CNT_FECSYM => .ln
  | .LN_CNT_LOL => .ln
  | .LN_CNT_RESCUE => .ln
  | .LN_CNT_IDLE => .ln
  | .LN_PT_CTL => .ln
  | .LN_PT_STS => .ln
  | .LN_PT_ERR => .ln
  | .LN_PT_BITS_LO => .ln
  | .LN_PT_BITS_HI => .ln
  | .CS_CTL => .cs
  | .CS_RATE => .cs
  | .CS_LANES => .cs
  | .CS_CTX => .cs
  | .CS_STS => .cs
  | .CS_LAT => .cs
  | .CS_SKEW => .cs
  | .CS_TCHG_S => .cs
  | .CS_TCHG_NS => .cs
  | .CS_CNT_DEG => .cs
  | .CS_CNT_TRAIN => .cs
  | .CS_SEL => .cs
  | .CS_ETH_CFG => .cs
  | .CS_ETH_PG_LO => .cs
  | .CS_ETH_PG_HI => .cs
  | .CS_ETH_RES => .cs
  | .CS_ETH_TR => .cs
  | .CS_ETH_CNT_AN => .cs
  | .CS_CPRI_CFG => .cs
  | .CS_CPRI_STS => .cs
  | .CS_CPRI_CNT_RATE => .cs
  | .CS_PCI_CFG => .cs
  | .CS_PCI_STS => .cs
  | .CS_PCI_MRG => .cs
  | .CS_PCI_CNT_REC => .cs
  | .CS_PCI_CNT_SPD => .cs
  | .CS_PCI_CNT_NAK => .cs
  | .TB_CTL => .tb
  | .TB_STS => .tb
  | .TB_CMD => .tb
  | .TB_ADJ => .tb
  | .TB_SET_S_LO => .tb
  | .TB_SET_S_HI => .tb
  | .TB_SET_NS => .tb
  | .TB_STEP_NS => .tb
  | .TB_STEP_FRAC => .tb
  | .TB_CAP_S_LO => .tb
  | .TB_CAP_S_HI => .tb
  | .TB_CAP_NS => .tb
  | .TB_CAP_FRAC => .tb
  | .TB_CAP_FREE_LO => .tb
  | .TB_CAP_FREE_HI => .tb
  | .TSU_CTL => .tsu
  | .TSU_STS => .tsu
  | .TSU_INGD => .tsu
  | .TSU_EGRD => .tsu
  | .TSU_LAST_RES => .tsu
  | .TSU_LAST_INFO => .tsu
  | .TSU_CNT_CORR => .tsu
  | .TSU_CNT_UNCORR => .tsu
  | .TSU_CNT_SAT => .tsu
  | .TS_CTL => .ts
  | .TS_STS => .ts
  | .TS_TE => .ts
  | .TS_HOLD_T => .ts
  | .TS_SERVO => .ts
  | .TS_HOLD_CFG => .ts
  | .TS_PPS_IN => .ts
  | .TS_OUT_CTL => .ts
  | .TS_PPS_OFS => .ts
  | .TS_CLKOUT_CTL => .ts
  | .TS_CLKOUT_FREQ => .ts
  | .TS_LREF_CTL => .ts
  | .TS_LREF_STS => .ts
  | .TS_LREF_FOFS => .ts
  | .TS_LREF_STAB => .ts
  | .TS_SVC_STS => .ts
  | .TS_CLS_BASE => .ts
  | .TS_CLS_CMD => .ts
  | .TS_CLS_STS => .ts
  | .TS_CLS_KEY => .ts
  | .TS_CLS_ACT => .ts
  | .TS_IE_CTL => .ts
  | .TS_IE_STS => .ts
  | .TS_IE_CNT_EXT => .ts
  | .TS_IE_CNT_INS => .ts
  | .TS_IE_CNT_DROP => .ts
  | .TS_IE_CNT_LATE => .ts
  | .FB_CFG => .fb
  | .FB_STS => .fb
  | .FB_CTXSEL => .fb
  | .FB_PACE => .fb
  | .FB_PACE_STS => .fb
  | .FB_SLOT => .fb
  | .FB_PGCMD => .fb
  | .FB_PGSTS => .fb
  | .FB_GUTMAP => .fb
  | .FB_WIN_BASE => .fb
  | .FB_WIN_LIM => .fb
  | .FB_CNT_SW => .fb
  | .FB_CNT_PGIN => .fb
  | .FB_CNT_LATE => .fb
  | .FB_CNT_GOVF => .fb
  | .FB_CNT_GUNF => .fb
  | .FB_CNT_DENY => .fb
  | .MT_CTL => .mt
  | .MT_STS => .mt
  | .MT_INFLT => .mt
  | .MT_INFLT_MAX => .mt
  | .MT_WINBASE => .mt
  | .MT_WINSTS => .mt
  | .MT_ECCLOG_ADDR => .mt
  | .MT_ECCLOG_INFO => .mt
  | .MT_COLLIDE => .mt
  | .MT_COLLIDE_ADDR => .mt
  | .MT_POISON => .mt
  | .MT_POISON_ADDR => .mt
  | .MT_CNT_CE => .mt
  | .MT_CNT_UE => .mt
  | .MT_CNT_RESEND => .mt
  | .MT_CNT_POISON => .mt
  | .MT_CNT_DENY => .mt
  | .MT_CONF => .mt
  | .PU_STS => .pu
  | .PU_POOL => .pu
  | .PU_PTSEL => .pu
  | .PU_PTE_LO => .pu
  | .PU_PTE_HI => .pu
  | .PU_CNT_DROPCAP => .pu
  | .PU_CNT_DROPPOOL => .pu
  | .PU_CNT_PTCE => .pu
  | .PU_CNT_PTUE => .pu
  | .PU_GCFG => .pu
  | .PU_GMIN => .pu
  | .PU_GMAX => .pu
  | .PU_GUSED => .pu
  | .PU_QCFG => .pu
  | .PU_QLIM => .pu
  | .PU_QHEAD => .pu
  | .PU_QTAIL => .pu
  | .PU_QPAGES => .pu
  | .PU_QDEPTH => .pu
  | .PU_QSTS => .pu
  | .PU_QDROP => .pu
  | .DM_STS => .dm
  | .DM_SEALCNT => .dm
  | .DM_CFG => .dm
  | .DM_RING_ID_LO => .dm
  | .DM_RING_ID_HI => .dm
  | .DM_SEQ_OLD => .dm
  | .DM_SEQ_NEW => .dm
  | .DM_TAMPER => .dm
  | .DM_SEL => .dm
  | .DM_RSTS => .dm
  | .DM_MLIST => .dm
  | .DM_REC => .dm

/-- The registers of a block, those of the unlock block before the Gate's, which it overlaps. -/
def Block.regs (b : Block) : List Reg :=
  match b with
  | .mg => [.MG_ID, .MG_MFR, .MG_SERIAL_LO, .MG_SERIAL_HI, .MG_SCRATCH, .MG_ALERT, .MG_ALERTEN, .MG_FAULT_ID,
      .MG_BUS, .MG_BUSSTS, .MG_CNT_NOTRDY, .MG_TEMP]
  | .pw => [.PW_CTL, .PW_STS, .PW_HOLDREP, .PW_HELD, .PW_HELD_CLO, .PW_HELD_CHI, .PW_LASTWAKE, .PW_WAKEEN,
      .PW_PADREL, .PW_NAPSET, .PW_ACTSET, .PW_HVOTE, .PW_ETIM_CTL, .PW_ETIM_CNT, .PW_DOM, .PW_VB_LO, .PW_VB_HI]
  | .cf => [.CF_STATUS, .CF_STS, .CF_RES, .CF_ITEM, .CF_FLASH, .CF_BUILD_LO, .CF_BUILD_HI, .CF_VERSION,
      .CF_TBARE, .CF_TFULL, .CF_CMD, .CF_CMDSTS, .CF_KEYSTS, .CF_RCV_STS, .CF_RCV_CNT, .CF_KEYH, .CF_RCV_DATA]
  | .tg => [.TG_UL_CMD, .TG_UL_REQ, .TG_UL_STS, .TG_UL_LEFT, .TG_UL_CHAL, .TG_UL_RESP, .TG_UL_GKEY, .TG_CMD,
      .TG_RES, .TG_ADDR, .TG_DATA, .TG_MASK, .TG_CNT_COMMIT, .TG_CNT_ABORT, .TG_SLOT_STS, .TG_SLOT_CONF]
  | .sn => [.SN_CTL, .SN_SRCEN, .SN_FIRE, .SN_LAST, .SN_TAG_S_LO, .SN_TAG_S_HI, .SN_TAG_NS, .SN_TAG_FRAC,
      .SN_MATCH_S_LO, .SN_MATCH_S_HI, .SN_MATCH_NS, .SN_LOLMASK, .SN_CNT_EVT, .SN_CNT_MERGED, .SN_ARMALL,
      .SN_BSLOT, .SN_SEL, .SN_DATA]
  | .st => [.ST_MCMD, .ST_MSTART, .ST_MEND, .ST_MSTS, .ST_MPROG, .ST_MSKIP, .ST_MFAIL_ADDR, .ST_MFAIL_BIT,
      .ST_MFAIL_CNT, .ST_MREP_CMD, .ST_MREP_STS, .ST_LCMD, .ST_LSTS, .ST_LSIG, .ST_LEXP, .ST_LCNT]
  | .cl => [.CL_CMD, .CL_STS, .CL_RES, .CL_SPREAD, .CL_VCAL, .CL_CALREF, .CL_PDT_SEL, .CL_PDT_DATA]
  | .ud => [.UD_IDENT, .UD_STATE, .UD_LINKS, .UD_VOTE, .UD_FAULT, .UD_SNAP, .UD_EVENTS, .UD_INDEX]
  | .ln => [.LN_PLL_CTL, .LN_PLL_STS, .LN_IDLE_TQ, .LN_FS_STS, .LN_STS, .LN_CTL, .LN_TX_FFE, .LN_RX_EQ,
      .LN_RX_DFE, .LN_RX_FFE_SEL, .LN_RX_FFE_DATA, .LN_CNT_DISP, .LN_CNT_INV, .LN_CNT_SHDR, .LN_CNT_FECSYM,
      .LN_CNT_LOL, .LN_CNT_RESCUE, .LN_CNT_IDLE, .LN_PT_CTL, .LN_PT_STS, .LN_PT_ERR, .LN_PT_BITS_LO,
      .LN_PT_BITS_HI]
  | .cs => [.CS_CTL, .CS_RATE, .CS_LANES, .CS_CTX, .CS_STS, .CS_LAT, .CS_SKEW, .CS_TCHG_S, .CS_TCHG_NS,
      .CS_CNT_DEG, .CS_CNT_TRAIN, .CS_SEL, .CS_ETH_CFG, .CS_ETH_PG_LO, .CS_ETH_PG_HI, .CS_ETH_RES, .CS_ETH_TR,
      .CS_ETH_CNT_AN, .CS_CPRI_CFG, .CS_CPRI_STS, .CS_CPRI_CNT_RATE, .CS_PCI_CFG, .CS_PCI_STS, .CS_PCI_MRG,
      .CS_PCI_CNT_REC, .CS_PCI_CNT_SPD, .CS_PCI_CNT_NAK]
  | .tb => [.TB_CTL, .TB_STS, .TB_CMD, .TB_ADJ, .TB_SET_S_LO, .TB_SET_S_HI, .TB_SET_NS, .TB_STEP_NS,
      .TB_STEP_FRAC, .TB_CAP_S_LO, .TB_CAP_S_HI, .TB_CAP_NS, .TB_CAP_FRAC, .TB_CAP_FREE_LO, .TB_CAP_FREE_HI]
  | .tsu => [.TSU_CTL, .TSU_STS, .TSU_INGD, .TSU_EGRD, .TSU_LAST_RES, .TSU_LAST_INFO, .TSU_CNT_CORR,
      .TSU_CNT_UNCORR, .TSU_CNT_SAT]
  | .ts => [.TS_CTL, .TS_STS, .TS_TE, .TS_HOLD_T, .TS_SERVO, .TS_HOLD_CFG, .TS_PPS_IN, .TS_OUT_CTL,
      .TS_PPS_OFS, .TS_CLKOUT_CTL, .TS_CLKOUT_FREQ, .TS_LREF_CTL, .TS_LREF_STS, .TS_LREF_FOFS, .TS_LREF_STAB,
      .TS_SVC_STS, .TS_CLS_BASE, .TS_CLS_CMD, .TS_CLS_STS, .TS_CLS_KEY, .TS_CLS_ACT, .TS_IE_CTL, .TS_IE_STS,
      .TS_IE_CNT_EXT, .TS_IE_CNT_INS, .TS_IE_CNT_DROP, .TS_IE_CNT_LATE]
  | .fb => [.FB_CFG, .FB_STS, .FB_CTXSEL, .FB_PACE, .FB_PACE_STS, .FB_SLOT, .FB_PGCMD, .FB_PGSTS, .FB_GUTMAP,
      .FB_WIN_BASE, .FB_WIN_LIM, .FB_CNT_SW, .FB_CNT_PGIN, .FB_CNT_LATE, .FB_CNT_GOVF, .FB_CNT_GUNF,
      .FB_CNT_DENY]
  | .mt => [.MT_CTL, .MT_STS, .MT_INFLT, .MT_INFLT_MAX, .MT_WINBASE, .MT_WINSTS, .MT_ECCLOG_ADDR,
      .MT_ECCLOG_INFO, .MT_COLLIDE, .MT_COLLIDE_ADDR, .MT_POISON, .MT_POISON_ADDR, .MT_CNT_CE, .MT_CNT_UE,
      .MT_CNT_RESEND, .MT_CNT_POISON, .MT_CNT_DENY, .MT_CONF]
  | .pu => [.PU_STS, .PU_POOL, .PU_PTSEL, .PU_PTE_LO, .PU_PTE_HI, .PU_CNT_DROPCAP, .PU_CNT_DROPPOOL,
      .PU_CNT_PTCE, .PU_CNT_PTUE, .PU_GCFG, .PU_GMIN, .PU_GMAX, .PU_GUSED, .PU_QCFG, .PU_QLIM, .PU_QHEAD,
      .PU_QTAIL, .PU_QPAGES, .PU_QDEPTH, .PU_QSTS, .PU_QDROP]
  | .dm => [.DM_STS, .DM_SEALCNT, .DM_CFG, .DM_RING_ID_LO, .DM_RING_ID_HI, .DM_SEQ_OLD, .DM_SEQ_NEW,
      .DM_TAMPER, .DM_SEL, .DM_RSTS, .DM_MLIST, .DM_REC]

end Sys2Proof.Machine
end

