-- ==== Sys2Proof/Machine/Map.lean ====
section
/-! DEFINITION. Sparse data in canonical form: maps keyed by a number, and the register file keyed by a
register's field and instance.  Both are lists in rising key order. -/
namespace Sys2Proof.Machine

/-- A sparse map from numbers, its keys strictly rising. -/
abbrev NMap (α : Type) := List (Nat × α)

def NMap.find? {α : Type} (m : NMap α) (k : Nat) : Option α :=
  match m with
  | [] => none
  | (k', v) :: t => if k = k' then some v else NMap.find? t k

/-- The value at a key, or the default. -/
def NMap.at {α : Type} (m : NMap α) (k : Nat) (dflt : α) : α := (NMap.find? m k).getD dflt

def NMap.put {α : Type} (m : NMap α) (k : Nat) (v : α) : NMap α :=
  match m with
  | [] => [(k, v)]
  | (k', v') :: t =>
    if k = k' then (k, v) :: t
    else if k < k' then (k, v) :: (k', v') :: t
    else (k', v') :: NMap.put t k v

def NMap.del {α : Type} (m : NMap α) (k : Nat) : NMap α :=
  match m with
  | [] => []
  | (k', v') :: t => if k = k' then NMap.del t k else (k', v') :: NMap.del t k

/-- A register field's place: register, lowest bit, instance. -/
structure Key where
  reg : Reg
  lo : Nat
  i : Nat
  deriving DecidableEq, Repr

/-- The rising order of the register file: instance, then register, then bit, by one number. -/
def Key.rank (k : Key) : Nat := (k.reg.ctorIdx * 32 + k.lo) * 65536 + k.i

/-- The register file: the fields that have been set, in rising order. An unlisted field reads its reset
value. -/
abbrev RegFile := List (Key × Nat)

def RegFile.find? (m : RegFile) (k : Key) : Option Nat :=
  match m with
  | [] => none
  | (k', v) :: t => if k = k' then some v else RegFile.find? t k

def RegFile.put (m : RegFile) (k : Key) (v : Nat) : RegFile :=
  match m with
  | [] => [(k, v)]
  | (k', v') :: t =>
    if k = k' then (k, v) :: t
    else if k.rank < k'.rank then (k, v) :: (k', v') :: t
    else (k', v') :: RegFile.put t k v

end Sys2Proof.Machine
end

