-- ==== Sys2Proof/Machine/State.lean ====
section
/-! DEFINITION. The state of the part: the register file, everything the specification gives the part that no
register shows (running timers, sequences, buffers, tables, pins), Tier M's bytes, and the queue of waiting
commands.  Plain data throughout. -/
namespace Sys2Proof.Machine

/-- A mask of numbered things. -/
abbrev Mask := Nat

/-- A request of the part's own for a partner's transmitter on a lane, while it sends training frames there: the initial one of
CS_ETH_CFG.INIT, or a later coefficient request (R100, R101). -/
inductive OwnRequest where
  | initial (init : Nat)
  | further (request : BitVec 16)
  deriving DecidableEq, Repr

/-- The equalisation fields of a TS1 of Phase 2 or 3 that the part originates on a lane (R129, R133, R134): the phase, whether the part or,
on a segment that it answers, its partner has ended it; its own request while it leads, else the taps it reflects; and whether it rejects
the partner's request. -/
structure EqTs where
  phase : Nat
  ended : Bool
  request : Option EqRequest
  taps : Option Taps
  reject : Bool
  deriving DecidableEq, Repr

/-- One receive direction and the transmitter of the same transceiver: what LN_ registers do not show.
Index: TP number for side A, 64 + TP number for side B. -/
structure LaneX where
  /-- the loss indications present, each of which clears by itself: T_CONFIRM runs (R87) -/
  loss : List LossCause := []
  /-- T_REACQ runs: step 2 of Table 3.11 (R87) -/
  tReacq : Bool := false
  /-- T_RESCUE runs: step 3 of Table 3.11 (R88) -/
  tRescue : Bool := false
  /-- T_SHADOW runs: the other slice of a handover shadows (R89) -/
  tShadow : Bool := false
  /-- step 3 uses the primary slice as the rescuer (R88) -/
  byPrimary : Bool := false
  /-- a shadowing slice is to take the lane over: a return to the primary, or a takeover -/
  returning : Bool := false
  /-- Lane Idle exit under way (R62) -/
  idleExit : Bool := false
  /-- an exit has completed since the last entry, so the next entry is a refresh (R60) -/
  refreshed : Bool := false
  /-- an EIOS announced the next electrical idle (R138) -/
  eios : Bool := false
  /-- when the loss or slice fault was last confirmed, in ns (R64) -/
  confirmed : Nat := 0
  /-- the primary slice has failed (R64) -/
  sliceFailed : Bool := false
  /-- its lane's claim of a stand-in waits; has the slice, which acquires; is carried by it (R64) -/
  standInWait : Bool := false
  standInAcq : Bool := false
  standIn : Bool := false
  /-- the transmitter is in electrical idle -/
  txIdle : Bool := true
  /-- the transmitter precodes (R105) -/
  precode : Bool := false
  /-- the rate the receiver is locked to, and the transmitter's rate, as CS_RATE codes (R112) -/
  rxRate : Nat := 0
  txRate : Nat := 0
  /-- 8b/10b receiver: running disparity positive, once a first comma has set it (R51) -/
  rd : Option Bool := none
  /-- boundary of the last comma, and code-group alignment (R52) -/
  comma : Option Nat := none
  aligned : Bool := false
  /-- the latest code groups, newest first: true where invalid (R52) -/
  invHist : List Bool := []
  /-- the encoder's running disparity is positive (R50) -/
  txRd : Bool := false
  /-- the code group, or the sync header, sent for the one last received; that group or block is the protocol's error indication
  (R54, R88, R140) -/
  txGroup : BitVec 10 := 0
  txHeader : BitVec 2 := 0
  txError : Bool := false
  /-- sync headers: consecutive valid ones, the latest 64 (true where invalid), block lock (R55) -/
  hdrRun : Nat := 0
  hdrHist : List Bool := []
  blockLock : Bool := false
  /-- DSP FFE taps by LN_RX_FFE_SEL number (R45) -/
  ffe : NMap Nat := []
  /-- manual transmit writes accepted in Lane Idle, applied at exit step 4 (R63) -/
  heldCtl : Option Word := none
  heldFfe : Option Word := none
  /-- the phase offset of the flashing slice that carries the lane, in 1/64 UI (R152) -/
  slicePhase : Int := 0
  /-- the answer last given to a coefficient, preset, precoder or equalisation request (Table 4.3, R134) -/
  answer : Nat := 0
  /-- the part's own request last sent to the partner of this receiver (R100, R101) -/
  ownRequest : Option OwnRequest := none
  /-- PCI Express: the preset of Phase 0 that the Downstream Port last communicated for this transmitter (R133) -/
  eqPreset : Option Nat := none
  /-- PCI Express leading: requests for the partner's transmitter evaluated by this receiver so far, the present one, the best and its
  errors, and whether the search is over (R134) -/
  eqTried : Nat := 0
  eqRequest : Option EqRequest := none
  eqBest : Option EqRequest := none
  eqBestErr : Nat := 0
  eqDone : Bool := false
  /-- the TS1 that the part originates toward this lane's partner in Phases 2 and 3 -/
  eqSent : Option EqTs := none
  /-- this receiver is under margining, with the offset of the last step command; a rescue has taken its slice, so that the next
  response is NAK; the last response (R135 to R137) -/
  margining : Bool := false
  marginStep : Option MarginCmd := none
  marginNak : Bool := false
  marginAnswer : Option MarginAnswer := none
  /-- a lane test runs (R309), and the KSTATE to go back to after it -/
  testing : Bool := false
  ksBefore : Nat := 0
  deriving DecidableEq, Repr

/-- One segment of a course. Index: 2 × course, plus 1 for segment B. -/
structure SegX where
  /-- the timers of Table 4.6 that run: TNEG, the partner's silence, TTRAIN, T_DATA (R109) -/
  tneg : Bool := false
  silence : Bool := false
  ttrain : Bool := false
  tdata : Bool := false
  /-- resolution complete (R96, R115) -/
  done : Bool := false
  /-- every Clause 73 page forwarded since entry to Negotiate, oldest first (R96, R97) -/
  pages : List (BitVec 48) := []
  /-- the last page sent on this segment by forwarding (R95) -/
  sentPage : Option (BitVec 48) := none
  /-- training frames are sent on every lane of the segment, and ask the partner to precode (R100, R105) -/
  frames : Bool := false
  askPrecode : Bool := false
  /-- the partner has stopped sending training frames on every lane (R107) -/
  ended : Bool := false
  /-- alignment marker lock of the receive direction, its skew in ns and the lane whose markers came last -/
  amLock : Bool := false
  skewNs : Nat := 0
  skewLast : Nat := 0
  /-- PCI Express: a receiver was detected on every lane of this side, terminations on (R126) -/
  rxDet : Bool := false
  term : Bool := false
  /-- CPRI: measuring an incoming rate; following a rate (R112) -/
  measuring : Bool := false
  following : Bool := false
  /-- CPRI: the incoming rate changed while the PLL of the followed rate was retuned; it is measured again then (R114) -/
  measureAgain : Bool := false
  /-- CPRI: HFNSYNC is held and HFNHOLD runs (R115) -/
  hfnHold : Bool := false
  /-- PCI Express: Retimer Present of the TS2s received in Configuration (R125) -/
  ts2 : Option Bool := none
  /-- PCI Express: the segment has passed into L0 (R128) -/
  sdsSeen : Bool := false
  /-- the last training set received is a TS2 (R128) -/
  lastTs2 : Bool := false
  /-- the equalisation phase under way on the segment, and that the partner has ended it (R133) -/
  eqPhase : Nat := 0
  phaseEnded : Bool := false
  /-- the last equalisation phase that has ended on the segment (R133) -/
  eqOver : Nat := 0
  /-- PCI Express: the ordered set last forwarded from this segment's receivers, rewritten (R129) -/
  sentOs : Option OrderedSet := none
  /-- a followed rate that waits for the bay's shell (R335) -/
  waitRate : Nat := 0
  /-- lanes of the segment in unannounced electrical idle (bit per logical lane) -/
  quiet : Mask := 0
  deriving DecidableEq, Repr

/-- One course: what its Course State Table entry does not show. -/
structure CourseX where
  /-- T_ALLSQ and T_HOLD run (Table 3.6) -/
  tAllsq : Bool := false
  tHold : Bool := false
  /-- the T_HOLD running follows a partner loss (Table 3.9) -/
  holdLost : Bool := false
  /-- a back-off step runs (R82) -/
  backoff : Bool := false
  /-- the tick on which the last back-off step ended (R82) -/
  stepEnd : Nat := 0
  /-- a speed change that waits for a bay's shell, as its rate code (R335) -/
  waitSpeed : Nat := 0
  /-- a committed transaction left the course in Disabled: a membership, gutter or selection rule is broken (R70, R202,
  R213) -/
  barred : Bool := false
  deriving DecidableEq, Repr

/-- The Eaves tick's source: on REFCLK_A through the synthesiser, else the backup oscillator (R13). -/
structure EavesX where
  onRef : Bool := false
  deriving DecidableEq, Repr

/-- One reference input's monitor (R40, R42). `id` is coded as LN_PLLn_STS.REFID, `hz` is the frequency identified. -/
structure RefX where
  edges : Bool := false
  id : Nat := 0
  hz : Nat := 0
  spread : Bool := false
  down : Bool := false
  ppm : Nat := 0
  deriving DecidableEq, Repr

/-- One bit-holding register watched by a staged write of a transaction (R265). -/
structure Watch where
  reg : Reg
  i : Nat
  slot : Nat
  pos : Nat
  hit : Bool := false
  deriving DecidableEq, Repr

/-- The timebase (R143): the count in 1 ns / (65,536 × 10^9) since AT powered on, and OFS in 1/65,536 ns. -/
structure TbX where
  acc : Nat := 0
  ofs : Int := 0
  /-- commands of TB_CMD that wait for a later tick, in order: 1 LOAD, 2 STEP, 3 CAPTURE (R148) -/
  waits : List Nat := []
  /-- the PLL holds its last control word, its 10 s hold running (R146) -/
  holding : Bool := false
  deriving DecidableEq, Repr

/-- The management bus and test port. -/
structure MgX where
  /-- bits that became set in MG_ALERT AND MG_ALERTEN since the last accepted interrupt (R377) -/
  ibi : Mask := 0
  /-- wait of R380 before the next CHALLENGE, in ns; a challenge has expired unused; the unlock has a duration; ns towards
  the next second of TG_UL_LEFT; GKEYPROG runs -/
  ulWait : Nat := 0
  ulExpired : Bool := false
  ulTimed : Bool := false
  ulNs : Nat := 0
  gkey : Bool := false
  /-- the current address of register accesses (R371) -/
  curAddr : Nat := 0
  /-- the action of the next Target Reset Pattern (Table 17.1) -/
  rstact : Nat := 1
  /-- what the part last answered: the words of a read, the octets of a CCC, whether the header was NACKed, and the mandatory
  byte of the last in-band interrupt -/
  readWords : List Nat := []
  cccData : List Byte := []
  nack : Bool := false
  ibiByte : Option Nat := none
  deriving DecidableEq, Repr

/-- A latched snapshot slot (R316): its words, and the number of the trigger event that latched it. -/
structure Snap where
  words : List Nat := []
  event : Nat := 0
  deriving DecidableEq, Repr

/-- The Ridge Trigger (R312 to R318). Snapshot slots are numbered by unit ID, and 4,096 + b for block b. -/
structure TrigX where
  /-- tick of the last event -/
  last : Option Nat := none
  /-- events formed -/
  events : Nat := 0
  /-- tags in 1/65,536 ns and FREE of the last event, absent where AT was not On -/
  tag : Option (Nat × Nat) := none
  /-- what each slot holds -/
  snaps : NMap Snap := []
  /-- SNAP_OUT is high (R318) -/
  snapOut : Bool := false
  /-- the TRIG_IN that each region's share holds: the tag of the latest event sent to it, which replaces one not yet acknowledged (R211,
  R313) -/
  trigIn : NMap (Option (Nat × Nat)) := []
  deriving DecidableEq, Repr

/-- Where a power domain is between its states (R333). -/
inductive DomPhase where
  | settled | entering | exiting
  deriving DecidableEq, Repr

/-- One power domain: its phase, whether the entry under way goes to Off, and whether it waits in Fault for
its votes to be withdrawn (R332). -/
structure DomX where
  phase : DomPhase := .settled
  toOff : Bool := false
  faultHold : Bool := false
  /-- when the entry under way began, in ns (R326) -/
  since : Nat := 0
  /-- the operating level that Retain left, coded as VNOW -/
  level : Nat := 0
  deriving DecidableEq, Repr

/-- What a request of this very tick changed, should a wake discard it (R367): when, DEV's cells, the pad groups held and the
rows withdrawn before. -/
structure UndoX where
  at_ : Nat
  votes : Mask
  held : Nat
  withdrawn : Mask
  deriving DecidableEq, Repr

/-- The power controller (R320 to R338). -/
structure PwX where
  /-- the power domains by row -/
  doms : NMap DomX := []
  /-- the power-up sequence runs: the step awaited, 1 to 4 (Table 14.6) -/
  seq : Option Nat := none
  /-- all four Eaves and Tier A rails are good (R341) -/
  good : Bool := false
  /-- rows that DEV withdrew in the transition under way (R328), as a mask -/
  withdrawn : Mask := 0
  /-- PW_HOLDREP runs (R328) -/
  holdrep : Bool := false
  /-- PW_HOLDREP has expired in this transition -/
  repDone : Bool := false
  /-- a wake latched during entry: SRC, course, timer (R331) -/
  wake : Option (Nat × Nat × Nat) := none
  /-- the running transition is a wake, with these PW_LASTWAKE values, and whether replayed -/
  waking : Bool := false
  /-- columns under a quiesce request, by row (R327) -/
  quiesce : Mask := 0
  /-- the next start-up follows a wake from Off (R343) -/
  fromOff : Bool := false
  /-- voltage steps under way, by row: target code (R334) -/
  vtarget : NMap Nat := []
  /-- the lowest supply of each step under way since it began (R200, R334) -/
  vlow : NMap Nat := []
  /-- VDD_CORE is in range -/
  core : Bool := true
  /-- the running transition brings domains up -/
  up : Bool := false
  /-- what a request of this tick changed (R367) -/
  undo : Option UndoX := none
  /-- when a wake was last taken or latched (R367) -/
  wakeAt : Option Nat := none
  /-- ns towards the next ms of each Eaves timer -/
  etim : NMap Nat := []
  /-- levels that pad groups 0 and 1 hold: ALERT_N and SNAP_OUT (R337) -/
  heldAlert : Bool := false
  heldSnap : Bool := false
  /-- RESET_N fell during a wipe (R341) -/
  resetDue : Bool := false
  deriving DecidableEq, Repr

/-- The steps of a calibration command (Table 12.3, R294). -/
inductive CalPhase where
  | idle | claim | takeover | measure | returning
  deriving DecidableEq, Repr

/-- The calibration sequencer. -/
structure CalX where
  phase : CalPhase := .idle
  op : Nat := 0
  kind : Nat := 0
  target : Nat := 0
  param : Nat := 0
  nowait : Bool := false
  apply : Bool := false
  runsWanted : Nat := 0
  runs : List (List Int) := []
  /-- the outcome that the return handover will report -/
  code : Nat := 0
  /-- settings captured before the first run (Table 12.5, PCOND 8) -/
  settings : List Nat := []
  /-- an accepted result, or the values that WRITE gave, as words -/
  result : List Nat := []
  /-- trims and path delays in force where they differ from the factory constants, by `calKey`; each as the
  words of Table 12.13 -/
  trims : NMap (List Nat) := []
  deriving DecidableEq, Repr

/-- An image's Course State Table entry: CS_CTL, CS_RATE, CS_LANES0, CS_LANES1, CS_CTX, CS_SEL and the word at
E + 0x40. -/
structure CourseImage where
  ctl : Nat := 0
  rate : Nat := 0
  lanes0 : Nat := 0
  lanes1 : Nat := 0
  ctx : Nat := 0
  sel : Nat := 0
  cfg : Nat := 0
  deriving DecidableEq, Repr

/-- An image's setting of one bay PLL. -/
structure PllImage where
  family : Nat := 0
  refsel : Nat := 0
  ndiv : Nat := 0
  deriving DecidableEq, Repr

/-- Start-up and the configuration loader (spec/15_boot_configuration.md). -/
structure BootX where
  /-- bays whose PLLs have not yet locked since power good, so that their Bare Retime courses are not yet
  written (R343 step 3) -/
  barePending : Mask := 0
  /-- courses that a ROM profile formed -/
  formed : List Nat := []
  /-- course entries of the image that wait for their course's boundary (R354) -/
  hand : NMap CourseImage := []
  /-- PLL settings of the image that wait for the Bare Retime courses on the PLL (R354) -/
  plls : NMap PllImage := []
  /-- step 9 is over and the handovers run (step 10) -/
  applying : Bool := false
  /-- which image is being read, applied or is in use: 1 A, 2 B, 3 management bus -/
  image : Nat := 0
  /-- flash images not yet tried in this load, in order -/
  next : List Nat := []
  /-- the image under way: its header, its yealms so far in image order, the offset of the next one -/
  header : Option ImageHeader := none
  yealms : List Yealm := []
  offset : Nat := 512
  /-- the image keys and revocations that this load goes by: those in eFuse as it began (R358) -/
  keys : NMap Nat := []
  revoked : Mask := 0
  /-- the receive buffer of a bus load (R356) -/
  rcv : List Nat := []
  /-- bytes of a bus load that the loader has taken from the buffer and not yet read as part of a yealm -/
  stream : List Byte := []
  /-- the key command under way: 3 KEYPROG, 4 KEYREVOKE, with its slot and hash -/
  key : Option (Nat × Nat × Nat) := none
  deriving DecidableEq, Repr

/-- A line reference slot of the timing engine (R174, R178). -/
structure SlotX where
  /-- its qualifying conditions hold and WTR runs -/
  wtr : Bool := false
  /-- the course watched, an active member resolved (R177) -/
  course : Option Nat := none
  /-- the frequency last measured is within ±4.6 ppm -/
  freqOk : Bool := false
  /-- phases of the latest second, against the local oscillator and against the timebase, in 1/1024 ns -/
  x : Int := 0
  z : Int := 0
  /-- second, x and z of its qualified seconds in Locked, newest first (R178) -/
  hist : List (Nat × Int × Int) := []
  /-- the ESMC service has reported a QL (R174) -/
  qlTold : Bool := false
  deriving DecidableEq, Repr

/-- A group of the ensemble: its slots, f in ns/s, weight, and holdover anchor in ns (R178, R179). -/
structure GroupX where
  slots : List Nat := []
  f : Q := {}
  w : Q := {}
  a : Q := {}
  deriving DecidableEq, Repr

/-- The timing engine and the time outputs (R169 to R183). -/
structure EngX where
  /-- the time reference active or last: 1 PPS_IN, 2 PTP -/
  lastRef : Nat := 0
  /-- Acquiring was entered from Free-run (R181) -/
  fromFree : Bool := false
  /-- clockClass of the state that Acquiring was entered from, and the parent's of the last PTP sample -/
  cls : Nat := 248
  parentCls : Nat := 248
  /-- the frequency estimate F in ppb, and FREE at the last sample used since entry to Acquiring (R171) -/
  f : Q := {}
  lastUsed : Option Nat := none
  /-- LOCKT runs: within (true) or beyond (false) LOCKWIN -/
  lockRun : Option Bool := none
  /-- values of TB_ADJ.RATE since Free-run was left, each with FREE from which it held, newest first -/
  rates : List (Nat × Int) := []
  /-- PPS_IN: FREE and the time (1/65,536 ns) latched at the last pulse; it has been named; its period was good, or it is the first
  of a run;  consecutive bad periods; good named pulses; the second it names or would name; last TE -/
  ppsFree : Option Nat := none
  ppsTime : Int := 0
  ppsNamed : Bool := true
  ppsGood : Bool := false
  ppsBad : Nat := 0
  ppsCount : Nat := 0
  ppsSec : Option Nat := none
  ppsTe : Int := 0
  /-- PTP: FREE at the first of the present run of VALID samples; last TE in 1/65,536 ns -/
  ptpSince : Option Nat := none
  ptpTe : Int := 0
  /-- the line reference slots, and the groups of the ensemble (R174, R178) -/
  slots : NMap SlotX := []
  groups : List GroupX := []
  /-- R176: the slot steered to, and its phase at the second on which that began -/
  synSlot : Option Nat := none
  synRef : Option Int := none
  /-- the mean path delay of the last PTP_SAMPLE (Table 7.10); the members through which the PTP service's ports last ran, by course, and one
  of them has changed and no offset is held since (R195) -/
  pathDelay : Int := 0
  ptpPorts : List (Nat × Nat) := []
  ptpMoved : Bool := false
  /-- seconds measured, seconds in Holdover-Ensemble, ns towards the next second of TS_HOLD_T -/
  sec : Nat := 0
  ensT : Nat := 0
  holdNs : Nat := 0
  /-- PPS_OUT is high; the second its last edge named; a TOD_OUT message for it is due; the last one sent, with
  its clock class -/
  ppsOut : Bool := false
  ppsOutSec : Nat := 0
  todDue : Bool := false
  tod : Option (Nat × Nat) := none
  /-- what services last received: ENG_STATE (STATE, active reference, TS_HOLD_T, clockClass, member courses),
  and by slot the time and FREE of TIME_READ -/
  sent : Option (Nat × Nat × Nat × Nat × List Nat) := none
  timeRead : NMap (Nat × Nat) := []
  /-- QL of the last information PDU sent, by course (R196) -/
  ssm : NMap Nat := []
  /-- QL of the last event PDU sent, by course (R196) -/
  ssmEvent : NMap Nat := []
  /-- CLKOUTn runs, and its level (R183) -/
  clkRuns : NMap Bool := []
  clkLevel : NMap Bool := []
  deriving DecidableEq, Repr

/-- An operation of a spar port, from its request (R207, R208, R231). -/
structure Op where
  master : Nat
  port : Nat
  tag : Nat
  /-- 0 read word, 1 write word, 2 read block, 3 write block -/
  kind : Nat
  addr : Nat
  /-- mask and data of each write beat -/
  beats : List (Nat × Nat) := []
  /-- when it was acknowledged, and its number among all acknowledged (R233, R237) -/
  at_ : Nat := 0
  seq : Nat := 0
  /-- it passes the compatibility window's arbiter (R235, R236) -/
  win : Bool := false
  /-- answered DENIED (R209, R226, R238) -/
  denied : Bool := false
  /-- its request was delivered poisoned; its response was, with the data received (R242) -/
  badReq : Bool := false
  badResp : Option (List (BitVec 256)) := none
  /-- the block of its request, or of its response, is under re-send (R241) -/
  waitReq : Bool := false
  waitResp : Bool := false
  /-- a conflict has been counted for it (R224) -/
  conf : Bool := false
  /-- the bank has served it: STATUS and data of each response beat -/
  served : Option (List (Nat × List Byte)) := none
  deriving DecidableEq, Repr

/-- The last response delivered on a spar port: tag, and STATUS and data of each beat. -/
structure SparAnswer where
  tag : Nat := 0
  beats : List (Nat × List Byte) := []
  deriving DecidableEq, Repr

/-- A guarded block under re-send: how often its check has failed, and the block as last received (R241). -/
structure GuardX where
  fails : Nat
  block : GuardedBlock
  deriving DecidableEq, Repr

/-- Tier M beside its bytes (R222 to R246). -/
structure MtX where
  /-- words that hold an uncorrectable error, by address: its syndrome in bits 15 to 0, and above them the count of draws
  that names its changed bits (R229) -/
  bad : NMap Nat := []
  /-- operations acknowledged and not yet answered, and requests that wait, each in arrival order -/
  ops : List Op := []
  waits : List Op := []
  /-- the master whose port was last given a freed place (R231) -/
  lastServed : Nat := 0
  /-- last response on each spar port, by master × 8 + port -/
  answers : NMap SparAnswer := []
  /-- the next row that each bank scrubs (R228) -/
  scrub : NMap Nat := []
  /-- operations acknowledged so far -/
  nextSeq : Nat := 0
  /-- the value of COMPAT that awaits the operations acknowledged before its commit, and their number (R236) -/
  compat : Bool := false
  compatSeq : Nat := 0
  /-- the instant of the collision that MT_COLLIDE holds (R234) -/
  collideAt : Option Nat := none
  /-- blocks under re-send, by what a re-send request names: the bundle and direction, and the TAG where there is one (R241) -/
  guards : NMap GuardX := []
  /-- the 4 bytes that the last window read returned, little-endian -/
  winRead : Nat := 0
  deriving DecidableEq, Repr

/-- A page table entry (Table 10.1), its check bits left to `Pte.word`. -/
structure Pte where
  next : Nat := 0
  state : Nat := 0
  eoq : Bool := false
  queue : Nat := 0
  fill : Nat := 0
  sor : Bool := false
  eor : Bool := false
  deriving DecidableEq, Repr

/-- A group's scheduler state (R260): position, fresh, and deficits by child (queue q as q, group g as
16,384 + g). -/
structure SchedX where
  ptr : Nat := 0
  fresh : Bool := true
  defs : NMap Nat := []
  deriving DecidableEq, Repr

/-- A request of a queue port (Table 10.2). OP: 0 ENQ, 1 DEQ, 2 NOTIFY, 3 STATUS. -/
structure QReq where
  /-- time of its arrival -/
  at_ : Nat := 0
  op : Nat
  who : Nat
  port : Nat
  grp : Bool := false
  tgt : Nat
  data : List Byte := []
  pte : List EccSeen := []
  seen : List EccSeen := []
  deriving DecidableEq, Repr

/-- The last response on a queue port: STATUS, queue, LEN, and STATUS and data of each beat. -/
structure QAnswer where
  status : Nat := 0
  queue : Nat := 0
  len : Nat := 0
  beats : List (Nat × List Byte) := []
  deriving DecidableEq, Repr

/-- Purlin (R248 to R260). -/
structure PuX where
  /-- page table entries other than those of free or reserved pages, by page -/
  ptes : NMap Pte := []
  /-- the free-page list, head first, as runs of rising pages: first page and length -/
  free : List (Nat × Nat) := []
  /-- reserved pages, as first page and length -/
  resv : List (Nat × Nat) := []
  /-- scheduler state by group (R260) -/
  sched : NMap SchedX := []
  /-- NOTIFYs acknowledged and not yet answered (R254) -/
  notifies : List QReq := []
  /-- requests that wait for domain M (R232) -/
  waits : List QReq := []
  /-- last response on each queue port, by requester × 4 + port -/
  answers : NMap QAnswer := []
  /-- queues whose EN of 1 waits for the sweep (R257) -/
  pendEn : List Nat := []
  deriving DecidableEq, Repr

/-- A context: resident slot 0 to 7, or Pnn where `paged`. -/
structure Ctx where
  paged : Bool := false
  num : Nat := 0
  deriving DecidableEq, Repr

/-- A pending selection of a region (R212 to R218): the context, the course whose boundary it waits for with the
boundaries met when it was made, and whether its page-in came after it fell due. -/
structure SelX where
  ctx : Ctx
  course : Option (Nat × Nat) := none
  late : Bool := false
  /-- asked for by CSW_REQ -/
  self : Bool := false
  deriving DecidableEq, Repr

/-- A page-in under way (R216). -/
structure PagingX where
  pnum : Nat
  frame : Nat
  /-- started by PREFETCH -/
  prefetch : Bool := false
  deriving DecidableEq, Repr

/-- The two halves of a transceiver's lane gutter (R204, R205). -/
structure GutX where
  inb : List GutterWord := []
  outb : List GutterWord := []
  /-- a word was lost, so the next one stored carries ERR -/
  errNext : Bool := false
  /-- the outbound half refills to 8 words before the shell takes from it -/
  filling : Bool := true
  /-- a word whose GO_REQ stands without GO_ACK, as the outbound half is full -/
  outWait : Option GutterWord := none
  /-- progress to the shell's next word-clock edge -/
  edge : Nat := 0
  /-- what the shell last sent: 0 words, 1 idle, 2 the error indication -/
  sent : Nat := 0
  deriving DecidableEq, Repr

/-- A fabric region (R198 to R221). -/
structure FbX where
  /-- the storage elements of the working copy, and the shadow of each slot -/
  work : Nat := 0
  shadow : NMap Nat := []
  /-- the pending selection, and the page-in under way (R213, R216) -/
  sel : Option SelX := none
  paging : Option PagingX := none
  /-- the page-in of the pending selection failed, and is retried (R217) -/
  retry : Bool := false
  /-- slots in the order in which they last ran, latest first -/
  recent : List Nat := []
  /-- the last CST_READ response and CSW_RES that the region received -/
  cst : List Nat := []
  csw : Option Nat := none
  /-- the context that ran last (R215) -/
  last : Ctx := {}
  /-- its next service message arrives poisoned (R242) -/
  msgLost : Bool := false
  /-- quiet under a quiesce request: its column withdrawn, its requests not acknowledged (R325) -/
  quiet : Bool := false
  /-- the region is in Fault, or under logic BIST -/
  fault : Bool := false
  bist : Bool := false
  deriving DecidableEq, Repr

/-- What the image sets up for the regions and the context store (R215, R216, R324). -/
structure ImgX where
  /-- Tier M base of the context store, and the paged contexts in it as a mask (R215) -/
  ctxBase : Nat := 0
  paged : Mask := 0
  /-- paged contexts whose last page-in failed (R217) -/
  failed : Mask := 0
  /-- initial storage values by context unit (R215) -/
  init : NMap Nat := []
  /-- each region's client column, and the rows that the power policy lists for the region -/
  column : NMap Nat := []
  rows : NMap (List Nat) := []
  /-- logic BIST signatures of the image's contexts by context unit, with their cell counts -/
  sigs : NMap (Nat × Nat) := []
  deriving DecidableEq, Repr

/-- A staged write of a transaction (R262): the word, its register, and the data under the mask. -/
structure StagedWrite where
  addr : Nat
  reg : Reg
  i : Nat
  data : Nat
  mask : Nat
  deriving DecidableEq, Repr

/-- A transaction slot of the Gate. -/
structure GateX where
  staged : List StagedWrite := []
  /-- boundaries or markers of the named course counted when the commit was requested -/
  mark : Nat := 0
  /-- a re-staging of an aborted rate change (R267) -/
  again : Bool := false
  deriving DecidableEq, Repr

/-- Memory BIST and soft repairs (R302 to R306). -/
structure MbX where
  /-- the block under test; the blocks to test before the pass goes on at `ptr` -/
  under : Option Nat := none
  todo : List Nat := []
  ptr : Option Nat := none
  /-- yields of each block in this pass -/
  yields : NMap Nat := []
  /-- a failure was found in this run (R304) -/
  failed : Bool := false
  /-- another master's operation on the block under test was served: the engine yields (R303) -/
  touched : Bool := false
  /-- STOP was written -/
  stop : Bool := false
  /-- soft repairs of each bank, as KIND and INDEX; the one whose copy is under way, with its bank -/
  soft : NMap (List (Bool × Nat)) := []
  copy : Option (Nat × Bool × Nat) := none
  deriving DecidableEq, Repr

/-- What eFuse holds, from the factory or programmed since. -/
structure FuseX where
  /-- hard repairs of each bank, as KIND and INDEX (R305) -/
  repairs : NMap (List (Bool × Nat)) := []
  /-- this part's serial number (MG_SERIAL, R271) -/
  serial : Nat := 0
  /-- Dormer lifecycle, active key slot, seal counter with the bits left and the base (R272, R281) -/
  life : Nat := 0
  keySlot : Nat := 0
  sealCount : Nat := 0
  sealLeft : Nat := 4096
  sealBase : Nat := 0
  /-- K_SEAL slots, each 32 bytes, absent where unused; a slot blown to all ones holds 32 bytes 0xFF; the active slot fails
  its check -/
  kSeal : NMap (List Byte) := []
  keyErr : Bool := false
  /-- tamper counts by source -/
  tamper : NMap Nat := []
  /-- K_GATE, blank while all zeros (R378) -/
  kGate : List Byte := List.replicate 32 0
  /-- image key slots: SHA-384 hashes by slot, and the slots revoked (R349, R358) -/
  imgKeys : NMap Nat := []
  imgRevoked : Mask := 0
  deriving DecidableEq, Repr

/-- A frame between its ingress latch and the correction stage (R151, R164): its octets to the FCS, T_in in 1/1024 ns, and
what was decided at the latch. -/
structure FlightX where
  bytes : List Byte
  tIn : Int
  /-- a candidate of R158, and whether it is to be corrected -/
  candidate : Bool := false
  correct : Bool := false
  ecpri : Bool := false
  /-- offsets of the corrected field and of the UDP checksum -/
  field : Nat := 0
  csum : Option Nat := none
  deriving DecidableEq, Repr

/-- A frame that an insertion point has placed and that has yet to reach the correction stage: its record (R192). -/
structure PlacedX where
  record : List Byte
  deriving DecidableEq, Repr

/-- A timestamp unit with the insertion and extraction point of the same number u (R150, R189). -/
structure PointX where
  /-- frames between the ingress latch and the correction stage; frames placed and not yet at that stage -/
  flight : List FlightX := []
  placed : List PlacedX := []
  /-- byte times towards the next byte of credit (R191) -/
  credRem : Nat := 0
  /-- the last frame sent -/
  sent : List Byte := []
  /-- the next record that crosses the frame port arrives poisoned (R242) -/
  lost : Bool := false
  deriving DecidableEq, Repr

/-- A classifier command under way (R187): OP, REPLACE, and the 32 octets staged when it was written. -/
structure ClsX where
  op : Nat
  replace : Bool := false
  entry : List Byte
  deriving DecidableEq, Repr

/-- A tenant meter's counts in the running interval (R273). -/
structure MeterX where
  bytesAb : Nat := 0
  bytesBa : Nat := 0
  framesAb : Nat := 0
  framesBa : Nat := 0
  sat : Bool := false
  deriving DecidableEq, Repr

/-- The Dormer (R269 to R284): its interval, its ring, and the work under way. -/
structure DmX where
  /-- an interval runs: its start as time (1/65,536 ns) and FREE -/
  running : Bool := false
  startT : Nat := 0
  startFree : Nat := 0
  /-- a LOAD or STEP fell in it; TB_STS.GAP was set in it -/
  stepped : Bool := false
  gap : Bool := false
  /-- the meters' counts in the interval (R273) -/
  meters : NMap MeterX := []
  /-- time quality (R275): TE in ps, the sum exact in 1/65,536 ps; edges; FREE at the last edge -/
  teMin : Option Int := none
  teMax : Option Int := none
  teSum : Int := 0
  nPulse : Nat := 0
  edge : Option Nat := none
  /-- from ENG_STATE: FREE at the last message, its STATE, TS_HOLD_T and clockClass; time in each state in 1/1024 ns -/
  msgFree : Nat := 0
  msgState : Nat := 0
  msgHold : Nat := 0
  msgClass : Nat := 248
  inState : NMap Nat := []
  worst : Nat := 0
  nTrans : Nat := 0
  /-- a ring is open, its identifier, the next SEQ; records that wait to be written, each without SEQ and MAC; the front
  one has failed once -/
  ring : Bool := false
  ringId : Nat := 0
  seq : Nat := 0
  recs : List (List Byte) := []
  retry : Bool := false
  /-- the copy that DM_SEL started: none where the number was not in the ring -/
  copy : Option (List Byte) := none
  /-- a record has been written to the ring; record writing has failed, until a ring next opens -/
  shown : Bool := false
  halted : Bool := false
  /-- tampers counted in the Eaves latch and not yet in eFuse, by source; a wipe waits for domain M -/
  latch : NMap Nat := []
  wipeDue : Bool := false
  /-- the votes are to be withdrawn once the records are written (R284) -/
  resting : Bool := false
  /-- TAMPER holds column 9's votes -/
  tampered : Bool := false
  /-- tiers whose last temperature sample lay outside the range -/
  hot : Mask := 0
  /-- tiers whose excursion outside the range has been confirmed as a tamper -/
  hotDone : Mask := 0
  deriving DecidableEq, Repr

/-- The test access port (R382, R383): the instruction loaded, the boundary register's update latches, what it last captured,
the identification register's content, the bypass register is selected, and the part waits for RESET_N to return to service. -/
structure JtagX where
  ir : Nat := 1
  boundary : List Bool := []
  captured : List Bool := []
  idcode : Nat := 0
  bypassed : Bool := false
  out : Bool := false
  deriving DecidableEq, Repr

/-- The whole part, but for Tier M's bytes and the queue of commands. -/
structure Dev where
  /-- register fields that have been set; see `Fld.resetOf` for the rest -/
  regs : RegFile := []
  watched : List Watch := []
  lanes : NMap LaneX := []
  segs : NMap SegX := []
  courses : NMap CourseX := []
  refs : NMap RefX := []
  tb : TbX := {}
  mg : MgX := {}
  trig : TrigX := {}
  pw : PwX := {}
  cal : CalX := {}
  boot : BootX := {}
  /-- boundaries met by each course, counted for waiting commits (R86) -/
  bnd : NMap Nat := []
  /-- the region that each service port served last, as its number div 16 (R211) -/
  svcTurn : NMap Nat := []
  /-- markers met by each course, counted for waiting commits (R263) -/
  marks : NMap Nat := []
  /-- stand-in claims that wait, in order of confirmation (R64), by transceiver -/
  standQ : List Nat := []
  eaves : EavesX := {}
  eng : EngX := {}
  mt : MtX := {}
  pu : PuX := {}
  fb : NMap FbX := []
  gut : NMap GutX := []
  img : ImgX := {}
  gate : NMap GateX := []
  mb : MbX := {}
  fuse : FuseX := {}
  points : NMap PointX := []
  cls : Option ClsX := none
  dm : DmX := {}
  jtag : JtagX := {}
  /-- ns since power good, as the idle ticks count them -/
  now : Nat := 0
  /-- free values drawn so far -/
  draws : Nat := 0
  deriving DecidableEq, Repr

/-- The machine's faults. -/
inductive Fault where
  /-- Raised by no meaning: the specification names no command at which the part stops.  Safe. -/
  | none
  deriving DecidableEq, Repr

/-- Why a command is refused. -/
inductive Refusal where
  /-- Raised by a command whose meaning is not written yet, under its mnemonic.  Safe. -/
  | notModelled (mnemonic : String)
  deriving DecidableEq, Repr

/-- The machine: the part, Tier M's bytes, and the commands that wait, first in first out. -/
structure State where
  dev : Dev
  mem : List Host.Cell
  pending : List Instr
  deriving DecidableEq, Repr

/-- The part with its supplies down, nothing received: every register at its reset value. -/
def State.reset : State := { dev := {}, mem := [], pending := [] }

end Sys2Proof.Machine
end

