-- ==== Sys2Proof/Machine/Ops.lean ====
section
/-! DEFINITION. The named operations over registers, hidden state, counters, alerts, faults, health and time
that every meaning is written with. -/
namespace Sys2Proof.Machine

/-! ## Registers -/

/-- Unit kind of a fixed unit ID (Table 1.6), as UD_IDENT.KIND codes it; 0 for the rest. -/
def unitKindRom (id : Nat) : Nat :=
  if 0x040 ≤ id ∧ id ≤ 0x07F then 1
  else if 0x080 ≤ id ∧ id ≤ 0x0BF then 3
  else if 0x0C0 ≤ id ∧ id ≤ 0x10C then 7
  else if 0x200 ≤ id ∧ id ≤ 0x3FF then 2
  else if 0x400 ≤ id ∧ id ≤ 0x63F then 4
  else if 0xF00 ≤ id ∧ id ≤ 0xFFF then 0xA
  else 0

/-- First unit ID of the range of Table 1.6 that a fixed unit ID lies in. -/
def unitBaseRom (id : Nat) : Nat :=
  if id < 0x080 then 0x040 else if id < 0x0C0 then 0x080 else if id < 0x200 then 0x0C0
  else if id < 0x400 then 0x200 else if id < 0x600 then 0x400 else if id < 0x640 then 0x600 else 0xF00

/-- The reset value of a field: the field table's, or for the resets marked ROM the value of R27, R41, Table
14.21 and Table 14.23. -/
def Fld.resetOf (f : Fld) (i : Nat) : Nat :=
  match f.reg with
  | .UD_IDENT =>
    if f.lo = 0 then (if unitKindRom i = 0 then 0 else i)
    else if f.lo = 12 then unitKindRom i else f.rst
  | .UD_INDEX => if unitKindRom i = 0 then 0 else i - unitBaseRom i
  | .UD_VOTE =>
    if f.lo = 0 then
      (if unitKindRom i = 1 then 1 + (i - 0x040) / 8
       else if unitKindRom i = 3 then 10 + (i - 0x080)
       else if unitKindRom i = 0 then 0 else 0x7F)
    else if f.lo = 8 ∧ unitKindRom i = 1 then 3 else f.rst
  | .PW_DOM =>
    if f.lo = 0 then (if i = 0 then 2 else 0)
    else if f.lo = 16 then (if 1 ≤ i ∧ i ≤ 8 then 80 else if 10 ≤ i ∧ i ≤ 73 then 60 else 0)
    else f.rst
  | .PW_ACTSET => if i ≤ 1 then 0xFFFFFFFF else if i = 2 then 0x1FFF else 0
  | _ => f.rst

/-- The value of a register field. -/
def Dev.rd (d : Dev) (f : Fld) (i : Nat := 0) : Nat :=
  ((d.regs.find? ⟨f.reg, f.lo, i⟩).getD (f.resetOf i)) % 2 ^ f.w

/-- A one-bit field, or any field, as a truth value. -/
def Dev.on (d : Dev) (f : Fld) (i : Nat := 0) : Bool := decide (d.rd f i ≠ 0)

/-- Mark every staged write of a transaction whose register is `(r, i)` as overtaken (R265). -/
def Dev.watchHit (d : Dev) (r : Reg) (i : Nat) : List Watch :=
  d.watched.map (fun w => if w.reg = r ∧ w.i = i then { w with hit := true } else w)

/-- Write a register field, its value cut to the field's width. -/
def Dev.wr (d : Dev) (f : Fld) (i : Nat) (v : Nat) : Dev :=
  { d with
    regs := d.regs.put ⟨f.reg, f.lo, i⟩ (v % 2 ^ f.w)
    watched := d.watchHit f.reg i }

/-- Write instance 0. -/
def Dev.wr0 (d : Dev) (f : Fld) (v : Nat) : Dev := d.wr f 0 v

/-- Write a field only where its value changes, so that a rule which restates a value is no write of the
register under R265. -/
def Dev.wrc (d : Dev) (f : Fld) (i : Nat) (v : Nat) : Dev :=
  if d.rd f i = v % 2 ^ f.w then d else d.wr f i v

/-- Count one event, saturating at the field's greatest value (R68). -/
def Dev.bump (d : Dev) (f : Fld) (i : Nat := 0) : Dev :=
  d.wr f i (min (d.rd f i + 1) (2 ^ f.w - 1))

/-- Count several events, saturating. -/
def Dev.bumpBy (d : Dev) (f : Fld) (i : Nat) (n : Nat) : Dev :=
  if n = 0 then d else d.wr f i (min (d.rd f i + n) (2 ^ f.w - 1))

/-- Fold over a list of numbers. -/
def Dev.each (d : Dev) (l : List Nat) (g : Nat → Dev → Dev) : Dev := l.foldl (fun d n => g n d) d

def Dev.when (d : Dev) (c : Bool) (g : Dev → Dev) : Dev := if c then g d else d

/-- The cells of a Vote Board row, bit c for client c (R323). -/
def Dev.voteMask (d : Dev) (row : Nat) : Nat :=
  d.rd F.PW_VB_LO_LO row + d.rd F.PW_VB_HI_HI row * 2 ^ 32

/-- Entries of the Unit Descriptor table: no chain of parents or members is longer (R20). -/
def unitCount : Nat := 4096

/-- Courses of the Course State Table: no nesting of courses is deeper. -/
def courseCount : Nat := 512

/-- Rows of the Domain Groups above a unit, through its parents (R323). -/
def Dev.groupRows (d : Dev) (fuel id : Nat) : List Nat :=
  match fuel with
  | 0 => []
  | fuel + 1 =>
    let p := d.rd F.UD_IDENT_PARENT id
    if p = 0 then []
    else d.rd F.UD_VOTE_DOMAIN p :: d.groupRows fuel p

/-- The clients whose votes hold a domain: its own row and the rows of every Domain Group above it (R323). -/
def Dev.effMask (d : Dev) (row : Nat) : Nat :=
  let rows := (if row < 77 then d.groupRows unitCount (0x0C0 + row) else []).filter (fun r => 77 ≤ r ∧ r < 127)
  rows.foldl (fun m r => m ||| d.voteMask r) (d.voteMask row)

/-- The instances of a field that have been set to something other than 0. -/
def Dev.listed (d : Dev) (f : Fld) : List Nat :=
  d.regs.filterMap (fun p => if p.1.reg = f.reg ∧ p.1.lo = f.lo ∧ p.2 ≠ 0 then some p.1.i else none)

/-! ## Hidden state by index -/

/-- The index of a transceiver: TP number on side A, 64 + TP number on side B (R32). -/
def laneIx (tp : Nat) (s : Side) : Nat := if s = .a then tp else tp + 64

/-- The transceiver that sends what transceiver `l` receives. -/
def laneOpp (l : Nat) : Nat := (l + 64) % 128

def laneTp (l : Nat) : Nat := l % 64
def laneBay (l : Nat) : Nat := l % 64 / 8
/-- The flashing slice of a transceiver's bay and side, as LN_FS_STS counts them. -/
def laneFs (l : Nat) : Nat := l % 64 / 8 + 8 * (l / 64)
def lanePad (l : Nat) : Nat := l % 8
/-- The transceiver on a pad of a flashing slice's bay and side. -/
def fsLane (fs pad : Nat) : Nat := 8 * (fs % 8) + pad + 64 * (fs / 8)

def sideN (s : Side) : Nat := if s = .a then 0 else 1
def otherSide (s : Side) : Side := if s = .a then .b else .a
def segIx (n : Nat) (s : Side) : Nat := 2 * n + sideN s

def Dev.lane (d : Dev) (l : Nat) : LaneX := d.lanes.at l {}
def Dev.seg (d : Dev) (k : Nat) : SegX := d.segs.at k {}
def Dev.course (d : Dev) (n : Nat) : CourseX := d.courses.at n {}
def Dev.ref (d : Dev) (r : Nat) : RefX := d.refs.at r {}

def Dev.modLane (d : Dev) (l : Nat) (g : LaneX → LaneX) : Dev :=
  { d with lanes := d.lanes.put l (g (d.lane l)) }
def Dev.modSeg (d : Dev) (k : Nat) (g : SegX → SegX) : Dev :=
  { d with segs := d.segs.put k (g (d.seg k)) }
def Dev.modCourse (d : Dev) (n : Nat) (g : CourseX → CourseX) : Dev :=
  { d with courses := d.courses.put n (g (d.course n)) }
def Dev.modRef (d : Dev) (r : Nat) (g : RefX → RefX) : Dev :=
  { d with refs := d.refs.put r (g (d.ref r)) }

def refIx (r : RefIn) : Nat := match r with | .refclkA => 0 | .refclkB => 1 | .oscIn => 2

/-! ## Course membership (Table 3.18) -/

/-- Through-path `tp` is a member lane of course `n` (Table 3.18). -/
def Dev.hasLane (d : Dev) (n tp : Nat) : Bool := bit (d.rd F.CS_LANES_LANES (2 * n + tp / 32)) (tp % 32)

/-- Member lanes in ascending through-path order. -/
def Dev.courseTps (d : Dev) (n : Nat) : List Nat := (List.range 64).filter (fun tp => d.hasLane n tp)

/-- Member lanes in logical order (R71). -/
def Dev.logicalTps (d : Dev) (n : Nat) : List Nat :=
  if d.on F.CS_CTL_REVERSE n then (d.courseTps n).reverse else d.courseTps n

/-- The through-path of a logical lane. -/
def Dev.logicalTp (d : Dev) (n i : Nat) : Option Nat := (d.logicalTps n)[i]?

/-- The transceivers of a course on one side. -/
def Dev.courseSideLanes (d : Dev) (n : Nat) (s : Side) : List Nat := (d.courseTps n).map (fun tp => laneIx tp s)

/-- Every transceiver of a course. -/
def Dev.courseLanes (d : Dev) (n : Nat) : List Nat := d.courseSideLanes n .a ++ d.courseSideLanes n .b

/-- The courses whose entries name a through-path. -/
def Dev.laneCourses (d : Dev) (tp : Nat) : List Nat :=
  ((d.listed F.CS_LANES_LANES).filter (fun k => k % 2 = tp / 32 ∧ bit (d.rd F.CS_LANES_LANES k) (tp % 32))).map (· / 2)

/-- The course that a lane serves: the one outside Disabled, else the first that names it (R70, R72). -/
def Dev.laneCourse (d : Dev) (tp : Nat) : Option Nat :=
  let l := d.laneCourses tp
  match l.find? (fun n => decide (d.rd F.CS_STS_KSTATE n ≠ 0)) with
  | some n => some n
  | none => l.head?

/-- A course carries data: Run, Degraded or Idle. -/
def Dev.inService (d : Dev) (n : Nat) : Bool :=
  decide (d.rd F.CS_STS_KSTATE n = 4 ∨ d.rd F.CS_STS_KSTATE n = 5 ∨ d.rd F.CS_STS_KSTATE n = 6)

def Dev.proto (d : Dev) (n : Nat) : Proto := protoOf (d.rd F.CS_CTL_PROTO n)
def Dev.decodedMode (d : Dev) (n : Nat) : Bool := decide (d.rd F.CS_CTL_MODE n = 2)

/-- A latency-locked course (R79). -/
def Dev.latencyLocked (d : Dev) (n : Nat) : Bool :=
  decide (d.rd F.CS_CTL_MODE n = 1)
    || (d.decodedMode n && decide (d.proto n = .cpri) && ! d.on F.CS_CTL_VIA_FABRIC n)

/-- A Select Aggregate course (R74, R93). -/
def Dev.selectAggregate (d : Dev) (n : Nat) : Bool := decide (d.rd F.CS_CTL_ROLE n = 1 ∧ d.rd F.UD_IDENT_POLICY (0x200 + n) = 3)

/-- The members of a group, along its chain of links (Table 1.11). -/
def Dev.membersFrom (d : Dev) (fuel id : Nat) : List Nat :=
  match fuel with
  | 0 => []
  | fuel + 1 => if id = 0 then [] else id :: d.membersFrom fuel (d.rd F.UD_LINKS_NEXT_SIB id)

def Dev.members (d : Dev) (g : Nat) : List Nat := d.membersFrom unitCount (d.rd F.UD_LINKS_FIRST_CHILD g)

/-- The boundary of a course is at once (Table 3.10): it is not in service; or it is a Decoded Ethernet course, whose stream is
idle between one command and the next, since a frame is one command; or it is an Aggregate course of which that holds for
the member that gives its boundary, or that has no such member. -/
def Dev.boundaryNow (d : Dev) (fuel n : Nat) : Bool :=
  if d.rd F.CS_CTL_ROLE n = 1 then
    match fuel with
    | 0 => true
    | fuel + 1 =>
      let kids := (d.members (0x200 + n)).filter (fun u => decide (0x200 ≤ u ∧ u < 0x400))
      if d.rd F.UD_IDENT_POLICY (0x200 + n) = 3 then
        let a := d.rd F.CS_SEL_ACTIVE n
        ! kids.contains a || d.boundaryNow fuel (a - 0x200)
      else
        match (kids.filter (fun u => d.inService (u - 0x200))).foldl min 0x400 with
        | 0x400 => true
        | u => d.boundaryNow fuel (u - 0x200)
  else ! d.inService n || (decide (d.proto n = .eth) && d.decodedMode n)

/-! ## Trims and path delays in force (R286) -/

def calKey (kind target param : Nat) : Nat := (kind * 256 + target) * 32 + param

/-- The PARAM that a kind's values depend on: the family for PLLBAND, the rate for TSDLY. -/
def calParam (kind param : Nat) : Nat := if kind = 4 ∨ kind = 5 then param else 0

/-- ROM nominal path delays (Table 6.21), INGD and EGRD in 1/1024 ns. -/
def romDelay (rate : Nat) : Nat × Nat :=
  match rateRow rate with
  | none => (0, 0)
  | some r =>
    let ui (n : Nat) : Nat := (n * 1024 * 1000000 * 2 + r.kbps) / (2 * r.kbps)
    let ns (n : Nat) : Nat := n * 1024
    match r.code with
    | .c8b10 => (ns 32 + ui 20, ns 48 + ui 20)
    | .c64b66 => (ns 34 + ui 66, ns 56 + ui 66)
    | .c128b130 => (ns 34 + ui 130, ns 56 + ui 130)
    | .pam4 =>
      if rate = 0x13 then (ns 42, ns 64) else if rate = 0x14 then (ns 38, ns 60) else (ns 36, ns 58)

/-- The factory constants of a trim, as the words of Table 12.13. -/
def factoryTrims (kind param : Nat) : List Nat :=
  match kind with
  | 0 => [16 + 16 * 256, 0, 0]
  | 5 => [(romDelay param).1, (romDelay param).2, 0]
  | _ => [0, 0, 0]

/-- The trims or path delays in force (R286). -/
def Dev.trimsOf (d : Dev) (kind target param : Nat) : List Nat :=
  (d.cal.trims.find? (calKey kind target (calParam kind param))).getD (factoryTrims kind (calParam kind param))

/-- A whole number of 1/64 UI of a course's rate in 1/1024 ns, to the nearest (R152). -/
def uiOffset (rate : Nat) (phase : Int) : Int :=
  match rateRow rate with
  | none => 0
  | some r =>
    let k : Int := if r.code = .pam4 then 2 else 1
    (2 * phase * k * 1024000000 + 64 * (r.kbps : Int)) / (2 * 64 * (r.kbps : Int))

/-- The position term PIN or POUT of a timestamp point `ui` unit intervals into its block, codeword and serialiser word, to the nearest
1/1024 ns (R151). -/
def positionTerm (rate ui : Nat) : Int := uiOffset rate (64 * ui)

/-! ## Points and units of a course -/

/-- A course that a timestamp unit of through-path `tp` serves for residence correction: an Ethernet Leaf or Span
course in Decoded mode (R157, R189). -/
def Dev.decodedEth (d : Dev) (tp : Nat) : Option Nat :=
  (d.laneCourse tp).filter (fun n => decide (d.proto n = .eth) && d.decodedMode n
    && decide (d.rd F.CS_CTL_ROLE n = 0 ∨ d.rd F.CS_CTL_ROLE n = 2))

/-- The timebase is in Fine with its PLL locked. -/
def Dev.tbFine (d : Dev) : Bool := d.on F.TB_STS_MODE && d.on F.TB_STS_LOCK

/-- TSU_STS.ACTIVE of unit `u` (R157). -/
def Dev.tsuActive (d : Dev) (u : Nat) : Bool :=
  (d.decodedEth (u / 2)).elim false (fun n => d.on F.CS_CTL_TIMING n && d.inService n)
    && d.tbFine && (d.on F.TSU_CTL_PTP_EN u || d.on F.TSU_CTL_ECPRI_EN u)

/-- INGD and EGRD of unit `u` for its course's rate: the ROM nominals of Table 6.21 in Coarse, the path-delay
table in Fine (R153). -/
def Dev.pathDelay (d : Dev) (u : Nat) : Nat × Nat :=
  let rate := (d.laneCourse (u / 2)).elim 0 (fun n => d.rd F.CS_RATE_RATE n)
  if d.on F.TB_STS_MODE then
    let ws := d.trimsOf 5 u rate
    (ws.getD 0 0 % 2 ^ 24, ws.getD 1 0 % 2 ^ 24)
  else romDelay rate

/-- Insertion and extraction point `u` is active (R189). -/
def Dev.pointActive (d : Dev) (u : Nat) : Bool :=
  (d.decodedEth (u / 2)).elim false (fun n =>
    decide (d.logicalTp n 0 = some (u / 2)) && decide (d.rd F.CS_STS_KSTATE n = 4 ∨ d.rd F.CS_STS_KSTATE n = 5))
    && (d.on F.TS_IE_CTL_EXT_EN u || d.on F.TS_IE_CTL_INS_EN u)

/-! ## Page table entries (R249, R252) -/

/-- The integers from 3 upward that are no power of two: Hamming positions of the data bits in order. -/
def hammingPositions : List Nat :=
  (List.range 63).filter (fun p => decide (3 ≤ p) && ! (List.range 6).any (fun j => decide (p = 2 ^ j)))

/-- Exclusive or of a list of bits. -/
def xorAll (l : List Bool) : Bool := l.foldl (fun a b => a != b) false

/-- The CHECK bits of an entry's bits 0 to 55. -/
def pteCheck (data : Nat) : Nat :=
  let ham (j : Nat) : Bool :=
    xorAll ((List.range 56).map (fun k => bit data k && bit (hammingPositions.getD k 0) j))
  let low := (List.range 6).foldl (fun a j => a + b2n (ham j) * 2 ^ j) 0
  let all := xorAll ((List.range 56).map (fun k => bit data k)) != xorAll ((List.range 6).map ham)
  low + b2n all * 64

/-- The entry of Table 10.1 as 64 bits. -/
def Pte.word (e : Pte) : Nat :=
  let data := e.next + e.state * 2 ^ 18 + b2n e.eoq * 2 ^ 20 + e.queue * 2 ^ 21 + e.fill * 2 ^ 36
    + b2n e.sor * 2 ^ 46 + b2n e.eor * 2 ^ 47
  data + pteCheck data * 2 ^ 56

def inRuns (runs : List (Nat × Nat)) (p : Nat) : Bool := runs.any (fun r => decide (r.1 ≤ p ∧ p < r.1 + r.2))

/-- The entry of a page. A page that is neither free, reserved nor listed has been left out of the free list. -/
def Dev.pte (d : Dev) (p : Nat) : Pte :=
  match d.pu.ptes.find? p with
  | some e => e
  | none => if inRuns d.pu.resv p then { state := 2 } else {}

/-! ## What registers show -/

/-- The effective pace of a region: CAP, or the limit where CAP is 0, never more than the limit (R200). -/
def Dev.effPace (d : Dev) (r : Nat) : Nat :=
  let lim := d.rd F.FB_PACE_STS_LIMIT r
  let cap := d.rd F.FB_PACE_CAP r
  if cap = 0 then lim else min cap lim


def countBits (n m : Nat) : Nat := ((List.range n).filter (fun b => bit m b)).length

/-- K_GATE is blank (R378). -/
def Dev.gateKeyBlank (d : Dev) : Bool := d.fuse.kGate.all (fun b => decide (b = 0))

/-- TG_UL_STS.STATE: 0 Locked, 1 Challenge, 2 Unlocked, 3 Unavailable (R378). -/
def Dev.ulState (d : Dev) : Nat := if d.gateKeyBlank then 3 else d.rd F.TG_UL_STS_STATE

/-- Whole seconds that a wait in ns still takes. -/
def secondsLeft (ns : Nat) : Nat := (ns + 999999999) / 1000000000

/-- A field that shows eFuse or the unlock state: the Dormer's lifecycle, key slot, seal and tamper counts (R272, R281, R282),
the serial number, the image key slots, K_GATE and the wait of R380. -/
def Dev.fuseField (d : Dev) (f : Fld) : Option Nat :=
  match f.reg with
  | .DM_STS => if f.lo = 0 then some d.fuse.life else if f.lo = 4 then some d.fuse.keySlot else none
  | .DM_SEALCNT => some (if f.lo = 0 then d.fuse.sealCount else d.fuse.sealLeft)
  | .DM_TAMPER => some (min 255 (d.fuse.tamper.at (f.lo / 8) 0 + d.dm.latch.at (f.lo / 8) 0))
  | .MG_SERIAL_LO => some (d.fuse.serial % 2 ^ 32)
  | .MG_SERIAL_HI => some (d.fuse.serial / 2 ^ 32 % 2 ^ 32)
  | .CF_KEYSTS =>
    some ((List.range 4).foldl (fun a k =>
      a + (if bit d.fuse.imgRevoked k then 2 else b2n (d.fuse.imgKeys.find? k).isSome) * 4 ^ k) 0)
  | .TG_UL_STS => if f.lo = 0 then some d.ulState else none
  | .TG_UL_LEFT => if d.ulState = 2 then none else some (secondsLeft d.mg.ulWait)
  | _ => none

/-! ## Adaptation (R45) -/

/-- Greatest magnitude of a DFE tap h(k), in 1/128 of main cursor (Table 2.5). -/
def dfeLimit (k : Nat) : Nat := if k = 1 then 64 else if k ≤ 4 then 32 else 16

/-- A receiver adapts: ADAPT is Continuous, and the lane is neither Disabled, in Lane Idle, under test nor in Fault. -/
def Dev.adapting (d : Dev) (l : Nat) : Bool :=
  decide (d.rd F.LN_RX_EQ_ADAPT l = 0) && decide (1 ≤ d.rd F.LN_STS_KSTATE l ∧ d.rd F.LN_STS_KSTATE l ≤ 6)

/-- A two's complement value of magnitude at most `m`, in `w` bits. -/
def within (w m v : Nat) : Nat := (v % (2 * m + 1) + 2 ^ w - m) % 2 ^ w

/-- CTLE, the DFE tap h(k) and the FFE tap t of a receiver as they stand: what adaptation has reached, or what is stored. -/
def Dev.ctleNow (d : Dev) (l : Nat) : Nat :=
  if d.adapting l then Config.adapted d.now l 0 % 33 else d.rd F.LN_RX_EQ_CTLE l
def Dev.dfeNow (d : Dev) (f : Fld) (i : Nat) : Nat :=
  let k := 4 * (i % 3) + f.lo / 8 + 1
  if d.adapting (i / 3) then within 8 (dfeLimit k) (Config.adapted d.now (i / 3) k) else d.rd f i
def Dev.ffeNow (d : Dev) (l t : Nat) : Nat :=
  if t = 8 then 256
  else if d.adapting l && d.on F.LN_RX_EQ_FFE_EN l then within 10 128 (Config.adapted d.now l (16 + t))
  else (d.lanes.at l {}).ffe.at t 0

/-! ## Services -/

def Dev.engState (d : Dev) : Nat := d.rd F.TS_STS_STATE

/-- clockClass of Table 7.11. -/
def Dev.clockClass (d : Dev) : Nat :=
  let pps := decide (d.eng.lastRef = 1)
  match d.engState with
  | 2 => if pps then 6 else d.eng.parentCls
  | 3 => if pps then 7 else 135
  | 4 => if pps then 7 else 135
  | 5 => if pps then 140 else 165
  | 1 => d.eng.cls
  | _ => 248

/-- The service slot that a course is bound to (CS_CTX.SVC). -/
def Dev.boundService (d : Dev) (n : Nat) : Option Nat :=
  let u := d.rd F.CS_CTX_SVC n
  if u ≠ 0 ∧ d.rd F.UD_IDENT_KIND u = 9 then some (d.rd F.UD_INDEX_INDEX u) else none

/-- TS_SVC_STS.PORTS: the courses bound to a service slot. -/
def Dev.svcPorts (d : Dev) (k : Nat) : Nat := min 16 ((d.listed F.CS_CTX_SVC).filter (fun n => decide (d.boundService n = some k))).length

/-- TS_SVC_STS.CCLASS: the clockClass that a PTP port service advertises, of Table 7.11 unless its yealm has set another (R195). -/
def Dev.svcClass (d : Dev) (k : Nat) : Nat :=
  if d.rd F.TS_SVC_STS_KIND k ≠ 1 then 0
  else if d.rd F.TS_SVC_STS_CCLASS k ≠ 0 then d.rd F.TS_SVC_STS_CCLASS k else d.clockClass

/-- A field as it reads now: UD_VOTE.HELD and HOLDERS follow the Vote Board (Table 1.12), the receiver settings follow adaptation (R45), PORTS and CCLASS of a service its bindings and the engine (R194, R195), LN_RX_FFE_DATA shows
the selected tap with F0 at 256 (Table 2.26), CL_PDT_DATA, PU_PTE and SN_DATA what CL_PDT_SEL, PU_PTSEL and SN_SEL select, every other field holds its value. -/
def Dev.fieldNow (d : Dev) (f : Fld) (i : Nat) : Nat :=
  match f.reg with
  | .UD_VOTE =>
    if f.lo = 15 then
      b2n (bit (d.voteMask (d.rd F.UD_VOTE_DOMAIN i)) (d.rd F.UD_VOTE_CLIENT i) && d.rd F.UD_VOTE_DOMAIN i != 0x7F)
    else if f.lo = 16 ∧ d.rd F.UD_IDENT_KIND i = 7 then countBits 64 (d.effMask (d.rd F.UD_INDEX_INDEX i))
    else if f.lo = 16 ∧ d.rd F.UD_IDENT_KIND i = 8 then countBits 64 (d.voteMask (d.rd F.UD_VOTE_DOMAIN i))
    else d.rd f i
  | .LN_RX_EQ => if f.lo = 0 then d.ctleNow i else d.rd f i
  | .LN_RX_DFE => d.dfeNow f i
  | .LN_RX_FFE_DATA => d.ffeNow i (d.rd F.LN_RX_FFE_SEL_TAP i)
  | .CS_LAT => if f.lo = 31 ∧ ! d.latencyLocked (i / 2) then 0 else d.rd f i
  | .CS_SEL => if d.selectAggregate i then d.rd f i else 0
  | .TSU_STS => if f.lo = 0 then b2n (d.tsuActive i) else d.rd f i
  | .TSU_INGD => (d.pathDelay i).1
  | .TSU_EGRD => (d.pathDelay i).2
  | .FB_PACE_STS =>
    if f.lo = 16 then min (d.effPace i) (Config.paceMeasured d.now i) else d.rd f i
  | .CL_PDT_DATA => (d.trimsOf 5 (d.rd F.CL_PDT_SEL_UNIT) (d.rd F.CL_PDT_SEL_RATE)).getD (d.rd F.CL_PDT_SEL_DIR) 0 % 2 ^ 24
  | .PU_PTE_LO => (d.pte (d.rd F.PU_PTSEL_PAGE)).word % 2 ^ 32
  | .PU_PTE_HI => (d.pte (d.rd F.PU_PTSEL_PAGE)).word / 2 ^ 32
  | .SN_DATA =>
    ((d.trig.snaps.at (d.rd F.SN_SEL_ID + d.rd F.SN_SEL_BLOCK * 4096) {}).words.getD i 0) % 2 ^ 32
  | .TS_SVC_STS => if f.lo = 12 then d.svcPorts i else if f.lo = 24 then d.svcClass i else d.rd f i
  | .TS_IE_STS => if f.lo = 15 then b2n (d.pointActive i) else d.rd f i
  | .CF_RCV_STS => if f.lo = 0 then (if d.on F.CF_RCV_STS_ACTIVE then 1024 - d.boot.rcv.length else 0) else d.rd f i
  | _ => (d.fuseField f).getD (d.rd f i)

/-- The word a register holds: its readable fields in place. -/
def Dev.word (d : Dev) (r : Reg) (i : Nat := 0) : Nat :=
  r.fields.foldl (fun a f => if f.acc = .WO then a else a + d.fieldNow f i % 2 ^ f.w * 2 ^ f.lo) 0

/-- Write a word into the fields of a register that it covers, changed fields only. -/
def Dev.putWord (d : Dev) (r : Reg) (i w : Nat) : Dev :=
  r.fields.foldl (fun d f => d.wrc f i (bits w f.lo f.w)) d

/-! ## Time (R143) -/

/-- One nanosecond in the units of the timebase accumulator, 1 ns / (65,536 × 10^9). -/
def accNs : Nat := 65536 * 1000000000

/-- FREE before its wrap: 1/1024 ns since AT powered on. -/
def Dev.freeU (d : Dev) : Nat := d.tb.acc * 1024 / accNs

/-- FREE, the step-free count in 1/1024 ns, modulo 2^64. -/
def Dev.free (d : Dev) : Nat := d.freeU % 2 ^ 64

/-- Seconds wrap at 2^48. -/
def timeWrap : Int := ((2 ^ 48 * 1000000000 * 65536 : Nat) : Int)

/-- The time in 1/65,536 ns: FREE plus OFS. -/
def Dev.time (d : Dev) : Nat := (((d.freeU * 64 : Nat) : Int) + d.tb.ofs).emod timeWrap |>.toNat

def timeSec (t : Nat) : Nat := t / (1000000000 * 65536)
def timeNs (t : Nat) : Nat := t / 65536 % 1000000000
def timeFrac (t : Nat) : Nat := t % 65536

/-! ## Power domains -/

/-- Vote Board row of a domain is On (Table 14.2). -/
def Dev.domOn (d : Dev) (row : Nat) : Bool := decide (d.rd F.PW_DOM_STATE row = 2)

def rowA (bay : Nat) : Nat := 1 + bay
def rowAT : Nat := 9
def rowL (r : Nat) : Nat := 10 + r
def rowM : Nat := 74
def rowC : Nat := 75
def rowD : Nat := 76

/-- An access to a block whose domain is not On is ignored, and OFFACC is set (R322). -/
def Dev.whenOn (d : Dev) (row : Nat) (g : Dev → Dev) : Dev :=
  if row = 0 ∨ d.domOn row then g d else d.wr0 F.PW_STS_OFFACC 1

/-! ## Alerts, faults, health -/

/-- An event of Table 17.3: set the bit of MG_ALERT (R376). A bit that becomes set in MG_ALERT AND MG_ALERTEN
also joins the bits of the next in-band interrupt (R377). -/
def Dev.alert (d : Dev) (b : Nat) : Dev :=
  if bit (d.rd F.MG_ALERT_ALERT) b then d
  else
    let d1 := d.wr0 F.MG_ALERT_ALERT (d.rd F.MG_ALERT_ALERT + 2 ^ b)
    if bit (d.rd F.MG_ALERTEN_EN) b then
      { d1 with mg := { d1.mg with ibi := if bit d1.mg.ibi b then d1.mg.ibi else d1.mg.ibi + 2 ^ b } }
    else d1

/-- ALERT_N is driven low (R376). -/
def Dev.alertN (d : Dev) : Bool :=
  (List.range 14).all (fun b => ! (bit (d.rd F.MG_ALERT_ALERT) b && bit (d.rd F.MG_ALERTEN_EN) b))

/-- A unit reports a fault: FCODE takes the code, FLATCH latches, and alert FAULT rises with the first such
unit in MG_FAULT_ID (Table 1.13, Table 17.3). -/
def Dev.unitFault (d : Dev) (id code : Nat) : Dev :=
  let d1 := d.wr F.UD_FAULT_FCODE id code
  if d.on F.UD_FAULT_FLATCH id then d1
  else
    let d2 := (d1.wr F.UD_FAULT_FLATCH id 1).alert 6
    if d2.on F.MG_FAULT_ID_VALID then d2
    else (d2.wr0 F.MG_FAULT_ID_ID id).wr0 F.MG_FAULT_ID_VALID 1

/-- Publish a unit's KSTATE and health in its descriptor; EVENTS counts a published change of HEALTH (R25). -/
def Dev.publish (d : Dev) (id ks health : Nat) : Dev :=
  let d1 := d.wrc F.UD_STATE_KSTATE id ks
  if d.rd F.UD_STATE_HEALTH id = health % 8 then d1
  else (d1.wr F.UD_STATE_HEALTH id health).bump F.UD_EVENTS_EVENTS id

/-- Draw the next free value's number. -/
def Dev.draw (d : Dev) : Dev := { d with draws := d.draws + 1 }

end Sys2Proof.Machine
end

