-- ==== Sys2Proof/Machine/Trigger.lean ====
section
/-! DEFINITION. The Ridge Trigger and the snapshot slots (R312 to R318 of spec/13_self_test_snapshot.md). -/
namespace Sys2Proof.Machine

/-- The domain row that a register's block is powered from, for reads while it is not On (R322, Table 14.1).
Eaves is row 0. -/
def regDomain (r : Reg) (i : Nat) : Nat :=
  match r.block with
  | .ln =>
    match r with
    | .LN_PLL_CTL | .LN_PLL_STS => rowA (i / 2)
    | .LN_IDLE_TQ => rowA i
    | .LN_FS_STS => rowA (i % 8)
    | .LN_RX_DFE => rowA (i / 3 % 64 / 8)
    | _ => rowA (i % 64 / 8)
  | .tsu => rowA (i / 2 / 8)
  | .ts =>
    match r with
    | .TS_IE_CTL | .TS_IE_STS | .TS_IE_CNT_EXT | .TS_IE_CNT_INS | .TS_IE_CNT_DROP | .TS_IE_CNT_LATE =>
      rowA (i / 2 / 8)
    | _ => rowAT
  | .tb => rowAT
  | .fb =>
    match r with
    | .FB_SLOT => rowL (i / 8)
    | .FB_GUTMAP | .FB_WIN_BASE | .FB_WIN_LIM => rowL (i / 4)
    | _ => rowL i
  | .mt | .pu | .st => rowM
  | .dm => rowD
  | _ => 0

/-- A register word for a snapshot, with whether its domain was not On (R316). -/
def Dev.snapWord (d : Dev) (r : Reg) (i : Nat) : Nat × Bool :=
  let row := regDomain r i
  if row = 0 ∨ d.domOn row then (d.word r i, false) else (0, true)

/-- The kind-specific registers of Table 13.6 for a unit, by its KIND and INDEX. -/
def unitSnapRegs (kind ix : Nat) : List (Reg × Nat) :=
  match kind with
  | 1 => [(.LN_STS, ix), (.LN_STS, ix + 64), (.LN_CNT_LOL, ix), (.LN_CNT_LOL, ix + 64), (.LN_CNT_RESCUE, ix),
      (.LN_CNT_RESCUE, ix + 64), (.LN_PT_STS, ix), (.LN_PT_STS, ix + 64)]
  | 2 => [(.CS_CTL, ix), (.CS_RATE, ix), (.CS_STS, ix), (.CS_LAT, 2 * ix), (.CS_LAT, 2 * ix + 1), (.CS_SKEW, ix),
      (.CS_CNT_DEG, ix), (.CS_CNT_TRAIN, ix)]
  | 3 => [(.FB_STS, ix), (.FB_PACE_STS, ix), (.FB_CNT_GOVF, ix), (.FB_CNT_GUNF, ix), (.FB_CNT_DENY, ix),
      (.FB_CNT_SW, ix)]
  | 5 => [(.PU_QPAGES, ix), (.PU_QDEPTH, ix), (.PU_QSTS, ix), (.PU_QDROP, ix)]
  | 6 => [(.PU_GUSED, ix)]
  | 9 => [(.TS_SVC_STS, ix)]
  | _ => []

/-- The registers of a block slot (Table 13.6). -/
def blockSnapRegs (b : Nat) : List (Reg × Nat) :=
  match b with
  | 0 => [(.TB_STS, 0), (.TB_ADJ, 0), (.TB_CTL, 0)]
  | 1 => [(.TS_STS, 0), (.TS_TE, 0), (.TS_HOLD_T, 0)] ++ (List.range 13).map (fun k => (Reg.TS_LREF_STS, k))
  | 2 => [(.MT_STS, 0), (.MT_INFLT, 0), (.MT_CNT_CE, 0), (.MT_CNT_UE, 0), (.MT_CNT_RESEND, 0),
      (.MT_CNT_POISON, 0), (.MT_CNT_DENY, 0)]
  | 3 => [(.PU_STS, 0), (.PU_POOL, 0), (.PU_CNT_DROPCAP, 0), (.PU_CNT_DROPPOOL, 0), (.PU_CNT_PTCE, 0),
      (.PU_CNT_PTUE, 0)]
  | 4 => (List.range 16).map (fun k => (Reg.TG_SLOT_STS, k))
  | 5 => [(.CL_STS, 0), (.CL_RES, 0), (.CL_RES, 1), (.CL_RES, 2), (.CL_RES, 3), (.CL_VCAL, 0), (.CL_CALREF, 0)]
  | 6 => [(.ST_MSTS, 0), (.ST_MPROG, 0), (.ST_MFAIL_CNT, 0), (.ST_LSTS, 0), (.ST_LCNT, 0)]
  | _ => []

def padTo (n : Nat) (l : List Nat) : List Nat := (l ++ List.replicate (n - l.length) 0).take n

/-- The eight words of a unit's descriptor. -/
def descriptorRegs (id : Nat) : List (Reg × Nat) :=
  [(.UD_IDENT, id), (.UD_STATE, id), (.UD_LINKS, id), (.UD_VOTE, id), (.UD_FAULT, id), (.UD_SNAP, id),
   (.UD_EVENTS, id), (.UD_INDEX, id)]

/-- The 23 words of a slot (R316) for an event's SEQ and tag. -/
def Dev.snapWords (d : Dev) (slot seq : Nat) (tag : Option (Nat × Nat)) : List Nat :=
  let rows : List (Reg × Nat) :=
    if slot < 4096 then
      unitSnapRegs (d.rd F.UD_IDENT_KIND slot) (d.rd F.UD_INDEX_INDEX slot)
    else blockSnapRegs (slot - 4096)
  let got := rows.map (fun p => d.snapWord p.1 p.2)
  let body :=
    if slot < 4096 then
      (descriptorRegs slot).map (fun p => d.word p.1 p.2) ++ padTo 8 (got.map (fun p => p.1))
    else padTo 16 (got.map (fun p => p.1))
  let off := got.any (fun p => p.2)
  let flags := b2n off + 2 * b2n tag.isNone + seq % 65536 * 65536
  let t := (tag.map (fun p => p.1)).getD 0
  let fr := (tag.map (fun p => p.2)).getD 0
  body ++ [flags, timeSec t % 2 ^ 32, timeSec t / 2 ^ 32 % 2 ^ 16, timeNs t, timeFrac t, fr % 2 ^ 32,
    fr / 2 ^ 32 % 2 ^ 32]

/-- Latch one armed slot (R315). -/
def Dev.latchSlot (d : Dev) (slot src : Nat) : Dev :=
  let words := d.snapWords slot (d.rd F.SN_LAST_SEQ) d.trig.tag
  let d1 :=
    if slot < 4096 then
      ((d.wr F.UD_SNAP_ARMED slot 0).wr F.UD_SNAP_SRC slot src).wr F.UD_SNAP_VALID slot 1
    else
      let b := slot - 4096
      ((d.wr F.SN_BSLOT_ARMED b 0).wr F.SN_BSLOT_SRC b src).wr F.SN_BSLOT_VALID b 1
  { d1 with trig := { d1.trig with snaps := d1.trig.snaps.put slot { words := words, event := d1.trig.events } } }

/-- The slots that are armed: unit slots and block slots. -/
def Dev.armedSlots (d : Dev) : List Nat :=
  d.listed F.UD_SNAP_ARMED ++ (d.listed F.SN_BSLOT_ARMED).map (fun b => 4096 + b)

/-- Lowest set bit of a mask, 0 where none. -/
def lowBit (m : Nat) : Nat := ((List.range 32).find? (fun b => bit m b)).getD 0

/-- OUTSEL admits an event with this MASK (R318). MASK bit src − 1 stands for source src. -/
def outAdmits (outsel mask : Nat) : Bool :=
  if outsel = 1 then true else if outsel = 2 then decide (mask / 2 ≠ 0) else false

/-- A new event: counted, tagged, reported, latched into every armed slot, and sent to SNAP_OUT and, as
TRIG_IN, to every region that is On (R211). -/
def Dev.fireEvent (d : Dev) (b : Nat) : Dev :=
  let at_ := d.domOn rowAT
  let tag := if at_ then some (d.time, d.free) else none
  let t := if at_ then d.time else 0
  let d1 := { d with trig := { d.trig with last := some d.now, events := d.trig.events + 1, tag := tag
                                           trigIn := ((List.range 64).filter (fun r => d.domOn (rowL r))).foldl (fun m r => m.put r tag) d.trig.trigIn } }
  let d2 := (d1.bump F.SN_CNT_EVT_COUNT).wr0 F.SN_LAST_SEQ (d1.rd F.SN_LAST_SEQ + 1)
  let d3 := (d2.wr0 F.SN_LAST_MASK (2 ^ b)).wr0 F.SN_LAST_LATE 0
  let d4 := (d3.wr0 F.SN_TAG_S_LO_V (timeSec t)).wr0 F.SN_TAG_S_HI_V (timeSec t / 2 ^ 32)
  let d5 := (d4.wr0 F.SN_TAG_S_HI_NOTB (b2n (! at_))).wr0 F.SN_TAG_NS_V (timeNs t)
  let d6 := (d5.wr0 F.SN_TAG_FRAC_V (timeFrac t)).alert 9
  let d7 := d6.each d6.armedSlots (fun slot d => d.latchSlot slot (b + 1))
  if outAdmits (d.rd F.SN_CTL_OUTSEL) (2 ^ b) then { d7 with trig := { d7.trig with snapOut := true } } else d7

/-- A trigger source fires, power being good (R10, R312, R313): it forms an event, joins the event of the same tick, or is merged. -/
def Dev.fire (d : Dev) (src : Nat) : Dev :=
  let b := src - 1
  if ! bit (d.rd F.SN_SRCEN_EN) b ∨ ! d.pw.good then d
  else
    match d.trig.last with
    | some t =>
      if t = d.now then
        let m := d.rd F.SN_LAST_MASK
        let m' := if bit m b then m else m + 2 ^ b
        let d1 := d.wr0 F.SN_LAST_MASK m'
        let mine := (d1.trig.snaps.filter (fun p => p.2.event = d1.trig.events)).map (fun p => p.1)
        let d2 := d1.each mine (fun slot d =>
          if slot < 4096 then d.wr F.UD_SNAP_SRC slot (lowBit m' + 1)
          else d.wr F.SN_BSLOT_SRC (slot - 4096) (lowBit m' + 1))
        if outAdmits (d.rd F.SN_CTL_OUTSEL) m' then { d2 with trig := { d2.trig with snapOut := true } } else d2
      else if d.now < t + 16 then
        let l := d.rd F.SN_LAST_LATE
        (d.bump F.SN_CNT_MERGED_COUNT).wr0 F.SN_LAST_LATE (if bit l b then l else l + 2 ^ b)
      else d.fireEvent b
    | none => d.fireEvent b

/-- Arm a slot, power being good (R10); a slot armed on the tick of an event latches for it (R315, R366). -/
def Dev.armSlot (d : Dev) (slot : Nat) : Dev :=
  let d1 :=
    if slot < 4096 then (d.wr F.UD_SNAP_ARMED slot 1).wr F.UD_SNAP_VALID slot 0
    else (d.wr F.SN_BSLOT_ARMED (slot - 4096) 1).wr F.SN_BSLOT_VALID (slot - 4096) 0
  if ! d.pw.good then d
  else if d.trig.last = some d.now then d1.latchSlot slot (lowBit (d.rd F.SN_LAST_MASK) + 1) else d1

end Sys2Proof.Machine
end

