-- ==== Sys2Proof/Machine/Votes.lean ====
section
/-! DEFINITION. Votes and the start of domain entry and exit (R323 to R326, R332, R333 of
spec/14_power.md). -/
namespace Sys2Proof.Machine

/-- Health of a domain by its KSTATE (Table 14.2). -/
def domHealth (st : Nat) : Nat := if st = 0 then 3 else if st = 1 then 2 else if st = 2 then 0 else 4

def Dev.dom (d : Dev) (row : Nat) : DomX := d.pw.doms.at row {}

def Dev.modDom (d : Dev) (row : Nat) (g : DomX → DomX) : Dev :=
  { d with pw := { d.pw with doms := d.pw.doms.put row (g (d.dom row)) } }

def Dev.modPw (d : Dev) (g : PwX → PwX) : Dev := { d with pw := g d.pw }

/-- The step of Table 14.6 in which a domain rises while the power-up sequence runs. -/
def riseStep (row : Nat) : Nat :=
  if row = rowM ∨ row = rowC then 3
  else if row = rowD ∨ (10 ≤ row ∧ row ≤ 73) then 4
  else 1

/-- The idle state a domain goes to (R321): Off in a device Off transition, else PW_DOMr.IDLE where Table 14.1
allows Off, which it does for the A and L rows. -/
def Dev.idlesOff (d : Dev) (row : Nat) : Bool :=
  if d.rd F.PW_STS_DEV = 5 ∨ (d.on F.PW_STS_BUSY ∧ d.rd F.PW_STS_TARGET = 5) then true
  else d.on F.PW_DOM_IDLE row && decide ((1 ≤ row ∧ row ≤ 8) ∨ (10 ≤ row ∧ row ≤ 73))

/-- A domain begins to leave its state: its entry or exit is under way. -/
def Dev.domStart (d : Dev) (row : Nat) (ph : DomPhase) (off : Bool) : Dev :=
  (d.modDom row (fun x => { x with phase := ph, toOff := off, since := d.now })).wr F.PW_DOM_TRANS row 1

/-- A domain may rise: power is good, VDD_CORE in range where it feeds the domain, and the power-up sequence has come to the
domain's step. -/
def Dev.mayRise (d : Dev) (row : Nat) : Bool :=
  d.pw.good && (decide (row < 10) || d.pw.core) && d.pw.seq.elim true (fun k => decide (riseStep row ≤ k))

/-- Compare a domain with its effective vote, and start an exit or an entry where they differ (R325, R326). A vote on the
tick on which the entry began, before its step 1, cancels the drop; a later one lets it complete. A domain in Fault waits
until every vote has been withdrawn (R332). A domain in Retain goes on to Off in a device Off transition (R321). -/
def Dev.domEval (d : Dev) (row : Nat) : Dev :=
  if row = 0 ∨ 77 ≤ row then d
  else
    let eff := decide (d.effMask row ≠ 0)
    let x := d.dom row
    let st := d.rd F.PW_DOM_STATE row
    match x.phase with
    | .exiting => d
    | .entering =>
      if eff ∧ x.since = d.now then (d.modDom row (fun x => { x with phase := .settled, toOff := false })).wr F.PW_DOM_TRANS row 0
      else d
    | .settled =>
      if st = 3 then
        if ! eff then d.modDom row (fun x => { x with faultHold := false })
        else if x.faultHold ∨ ! d.mayRise row then d
        else d.domStart row .exiting false
      else if st = 2 then
        if eff then d else d.domStart row .entering (d.idlesOff row)
      else if eff then
        if d.mayRise row then d.domStart row .exiting false else d
      else if st = 1 ∧ (d.rd F.PW_STS_DEV = 5 ∨ (d.on F.PW_STS_BUSY ∧ d.rd F.PW_STS_TARGET = 5)) then
        d.domStart row .entering true
      else d

/-- The rows whose effective vote a row's cells reach: the row itself, or every domain beneath a group row. -/
def Dev.rowsUnder (d : Dev) (row : Nat) : List Nat :=
  if row < 77 then [row]
  else (List.range 77).filter (fun r => (d.groupRows unitCount (0x0C0 + r)).contains row)

/-- Client `col` places or withdraws its vote on a row (R323, R325), power being good (R10). -/
def Dev.vote (d : Dev) (col row : Nat) (on : Bool) : Dev :=
  let m := d.voteMask row
  if bit m col = on ∨ 127 ≤ row ∨ ! d.pw.good then d
  else
    let m' := if on then m + 2 ^ col else m - 2 ^ col
    let d1 := if col < 32 then d.wr F.PW_VB_LO_LO row m' else d.wr F.PW_VB_HI_HI row (m' / 2 ^ 32)
    d1.each (d.rowsUnder row) (fun r d => d.domEval r)

end Sys2Proof.Machine
end

