-- ==== Sys2Proof/Machine/CalCore.lean ====
section
/-! DEFINITION. The trims and path delays in force, and how a calibration command ends (R286 to R290, R293 of
spec/12_calibration.md).  Lane events preempt a calibration through these. -/
namespace Sys2Proof.Machine

def Dev.setTrims (d : Dev) (kind target param : Nat) (ws : List Nat) : Dev :=
  { d with cal := { d.cal with trims := d.cal.trims.put (calKey kind target (calParam kind param)) ws } }

/-- Put a list of words into CL_RES0 to CL_RES3. -/
def Dev.setRes (d : Dev) (ws : List Nat) : Dev :=
  d.each (List.range 4) (fun k d => d.wr F.CL_RES_RES k (ws.getD k 0))

/-- Vote Board row of a target's domain (Table 14.3, column 7). -/
def calRow (kind target : Nat) : Nat :=
  match kind with
  | 1 => rowA (target % 8)
  | 2 => if target < 128 then rowA (laneBay target) else rowA (target % 8)
  | 4 => rowA (target / 2 % 8)
  | _ => rowA (laneBay (target % 128))

/-- The timestamp units whose INGD and EGRD a transceiver's path delays are (R298). -/
def ingUnit (t : Nat) : Nat := 2 * (t % 64) + t / 64
def egrUnit (t : Nat) : Nat := 2 * (t % 64) + 1 - t / 64

/-- Vote Board row of the domain that holds a trim or a path-delay entry, which are kept by timestamp unit. -/
def trimRow (kind target : Nat) : Nat := if kind = 5 then rowA (target / 2 / 8) else calRow kind target

/-- The values in force for a command's kind and target, as words of Table 12.13. -/
def Dev.calValues (d : Dev) (kind target param : Nat) : List Nat :=
  if kind = 5 then
    [(d.trimsOf 5 (ingUnit target) param).getD 0 0, (d.trimsOf 5 (egrUnit target) param).getD 1 0, 0]
  else d.trimsOf kind target param

/-- Apply a result: the trims of the target, or the two path-delay entries (R298). -/
def Dev.calApply (d : Dev) (kind target param : Nat) (ws : List Nat) : Dev :=
  if kind = 5 then
    let i := ingUnit target
    let e := egrUnit target
    let d1 := d.setTrims 5 i param [ws.getD 0 0, (d.trimsOf 5 i param).getD 1 0, 0]
    d1.setTrims 5 e param [(d1.trimsOf 5 e param).getD 0 0, ws.getD 1 0, 0]
  else d.setTrims kind target param ws

/-- The command ends with an outcome of Table 12.4: an accepted result is applied where APPLY asks for it; claims and the vote
are released, DONE is set, and on any outcome but OK the values in force are in CL_RES (R289, R290). -/
def Dev.calEnd (d : Dev) (code : Nat) : Dev :=
  let c := d.cal
  let d0 := if code = 0 ∧ c.apply then d.calApply c.kind c.target c.param c.result else d
  let d1 := if code = 0 then d0 else d0.setRes (d0.calValues c.kind c.target c.param)
  let d2 := (d1.wr0 F.CL_STS_CODE code).wr0 F.CL_STS_STATE 0
  let d3 := if d2.on F.CL_STS_DONE then d2 else (d2.wr0 F.CL_STS_DONE 1).alert 7
  let d4 := { d3 with cal := { d3.cal with phase := .idle, runs := [], result := [] } }
  d4.vote 7 (calRow c.kind c.target) false

/-- A running calibration command holds this transceiver's lane on the flashing slice, or is about to. -/
def Dev.calHolds (d : Dev) (l : Nat) : Bool :=
  decide (d.cal.kind = 2 ∧ d.cal.target = l ∧ (d.cal.phase = .takeover ∨ d.cal.phase = .measure ∨ d.cal.phase = .returning)
    ∧ d.rd F.LN_FS_STS_OWNER (laneFs l) = 2)

end Sys2Proof.Machine
end

