-- ==== Sys2Proof/Machine/LaneCore.lean ====
section
/-! DEFINITION. Lanes, flashing slices and bay PLLs: the shared operations of spec/02_lane_tier.md and of the
loss sequence of spec/03_courses_datapaths.md. -/
namespace Sys2Proof.Machine

/-- The unit ID of a lane, and of a course (Table 1.6). -/
def laneUnit (tp : Nat) : Nat := 0x040 + tp
def courseUnit (n : Nat) : Nat := 0x200 + n

/-! ## Lane state -/

/-- A loss indication appears on a receive direction, and indications clear (R87). -/
def LaneX.indicate (x : LaneX) (c : LossCause) : LaneX := if x.loss.contains c then x else { x with loss := x.loss ++ [c] }
def LaneX.clears (x : LaneX) (cs : List LossCause) : LaneX := { x with loss := x.loss.filter (fun c => ! cs.contains c) }

def Dev.ks (d : Dev) (l : Nat) : Nat := d.rd F.LN_STS_KSTATE l

/-- KSTATE of a Lane unit: the direction with the worse health, side A where they are equal (R65). -/
def Dev.unitKs (d : Dev) (tp : Nat) : Nat :=
  if laneHealthOf (d.ks tp) < laneHealthOf (d.ks (tp + 64)) then d.ks (tp + 64) else d.ks tp

def Dev.laneHealth (d : Dev) (tp : Nat) : Nat := laneHealthOf (d.unitKs tp)

/-- The lanes over which a course evaluates R23: on a PCI Express course those of the trained width (R131). -/
def Dev.policyTps (d : Dev) (n : Nat) : List Nat :=
  let w := d.rd F.CS_PCI_STS_WIDTH n
  if d.proto n = .pcie ∧ w ≠ 0 then (d.logicalTps n).take w else d.courseTps n

/-- T_ALLSQ runs exactly while every member lane of a course in service is Squelched (Table 3.6); NDEG and
ON_FS of CS_STS follow the lanes. -/
def Dev.courseLaneStatus (d : Dev) (n : Nat) : Dev :=
  let tps := d.courseTps n
  let ndeg := (tps.filter (fun tp => d.laneHealth tp = 1)).length
  let onFs := (d.courseLanes n).any (fun l => d.on F.LN_STS_ON_FS l)
  let d1 := (d.wrc F.CS_STS_NDEG n ndeg).wrc F.CS_STS_ON_FS n (b2n onFs)
  let pol := d.policyTps n
  let all := d.inService n && ! pol.isEmpty && pol.all (fun tp => decide (d.unitKs tp = 6))
  if (d1.course n).tAllsq = all then d1 else d1.modCourse n (fun c => { c with tAllsq := all })

/-- Publish a Lane unit's state and what its course shows of it. -/
def Dev.laneRefresh (d : Dev) (tp : Nat) : Dev :=
  let d1 := d.publish (laneUnit tp) (d.unitKs tp) (d.laneHealth tp)
  match d1.laneCourse tp with
  | none => d1
  | some n => d1.courseLaneStatus n

/-- Adaptation stops, and the values that it has reached stay (R45, R49, Table 2.11). -/
def Dev.adaptHold (d : Dev) (l : Nat) : Dev :=
  if ! d.adapting l then d
  else
    let taps := (List.range 3).flatMap (fun j => (Reg.fields .LN_RX_DFE).map (fun f => (f, 3 * l + j)))
    let d1 := taps.foldl (fun e p => e.wr p.1 p.2 (d.dfeNow p.1 p.2)) (d.wr F.LN_RX_EQ_CTLE l (d.ctleNow l))
    if d.on F.LN_RX_EQ_FFE_EN l then
      d1.modLane l (fun x => { x with ffe := (List.range 32).foldl (fun m t => if t = 8 then m else m.put t (d.ffeNow l t)) x.ffe })
    else d1

/-- A receive direction takes a KSTATE; in one that does not adapt the values reached stay. -/
def Dev.setKs (d : Dev) (l ks : Nat) : Dev :=
  if d.ks l = ks then d
  else ((if 1 ≤ ks ∧ ks ≤ 6 then d else d.adaptHold l).wr F.LN_STS_KSTATE l ks).laneRefresh (laneTp l)

/-- A lane records a code of Table 2.15 (R66).  No rule names an event that raises BIST_FAIL (0x09) on a lane, and none does here
(DESIGN CHOICE, log entry 87). -/
def Dev.laneFault (d : Dev) (tp code : Nat) : Dev := d.unitFault (laneUnit tp) code

def Dev.setTxIdle (d : Dev) (l : Nat) (b : Bool) : Dev :=
  if (d.lane l).txIdle = b then d else d.modLane l (fun x => { x with txIdle := b })

/-- The transmitter's level at the ball: electrical idle by the lane's state, or by the loop of a lane test (Table 13.3), or by FORCE_SQ
(Table 2.21). -/
def Dev.txQuiet (d : Dev) (l : Nat) : Bool :=
  (if (d.lane l).testing then decide (d.rd F.LN_PT_CTL_LOOP l = 2) else (d.lane l).txIdle) || d.on F.LN_CTL_FORCE_SQ l

/-- LN_STS.ON_FS, and TSU_STS.FS of the direction whose ingress the slice takes; the phase offset of a flashing slice goes with the
slice (R152). -/
def Dev.setOnFs (d : Dev) (l : Nat) (b : Bool) : Dev :=
  let d1 := (d.wrc F.LN_STS_ON_FS l (b2n b)).wrc F.TSU_STS_FS (2 * laneTp l + l / 64) (b2n b)
  if b then d1 else d1.modLane l (fun x => { x with slicePhase := 0 })

/-- A flashing slice comes to carry a lane by a rescue or a stand-in: the phase offset that the part measures at the switch is a
free value (R152). -/
def Dev.onSlice (d : Dev) (l : Nat) : Dev :=
  (((d.setOnFs l true).bump F.LN_CNT_RESCUE_COUNT l).modLane l (fun x => { x with slicePhase := Config.slicePhase d.draws })).draw

/-! ## Flashing slices -/

def Dev.fsOwner (d : Dev) (fs : Nat) : Nat := d.rd F.LN_FS_STS_OWNER fs

/-- Set the claim fields of a flashing slice (Table 2.19). -/
def Dev.fsSet (d : Dev) (fs owner : Nat) (shadow carry : Bool) (pad : Nat) : Dev :=
  (((d.wrc F.LN_FS_STS_OWNER fs owner).wrc F.LN_FS_STS_SHADOW fs (b2n shadow)).wrc F.LN_FS_STS_CARRY fs (b2n carry)).wrc
    F.LN_FS_STS_PAD fs pad

def Dev.fsRelease (d : Dev) (fs : Nat) : Dev := d.fsSet fs 0 false false 0

/-- Some receiver of a course is under margining. -/
def Dev.marginActive (d : Dev) (n : Nat) : Bool := (d.courseLanes n).any (fun l => (d.lane l).margining)

/-- Margining of a receiver stops: the slice is released, or a rescue has taken it, and then the next response for the receiver is NAK
(R137). -/
def Dev.marginStop (d : Dev) (l : Nat) (release : Bool) : Dev :=
  if (d.lane l).margining then
    let d1 := d.modLane l (fun x => { x with margining := false, marginStep := none, marginNak := ! release })
    let d2 := if release then d1.fsRelease (laneFs l) else d1
    match d2.laneCourse (laneTp l) with
    | none => d2
    | some n => d2.wrc F.CS_PCI_MRG_ACTIVE n (b2n (d2.marginActive n))
  else d

/-- A claim of R64 goes before another: its loss or fault was confirmed earlier, or at once on the lower through-path. -/
def Dev.claimBefore (d : Dev) (m l : Nat) : Bool :=
  decide ((d.lane m).confirmed < (d.lane l).confirmed ∨ ((d.lane m).confirmed = (d.lane l).confirmed ∧ laneTp m < laneTp l))

/-- The stand-in claim of a flashing slice that is next in order of confirmation (R64). -/
def Dev.standInNext (d : Dev) (fs : Nat) : Option Nat :=
  (d.standQ.filter (fun l => decide (laneFs l = fs))).foldl (fun b l =>
    match b with | none => some l | some m => if d.claimBefore l m then some l else some m) none

/-- A calibration of flashing slice `fs` itself runs, which claims no slice (Table 12.1, R291). -/
def Dev.calOnSlice (d : Dev) (fs : Nat) : Bool :=
  decide (d.cal.kind = 2 ∧ d.cal.target = 128 + fs) && decide (d.cal.phase ≠ .idle ∧ d.cal.phase ≠ .claim)

/-- Take a flashing slice for a rescue or a stand-in where its holder yields (R64): it is free, its own calibration ending
ABORTED, or self-test (margining) holds it and stops.  A lane's calibration still on it, another rescue, a stand-in
confirmed earlier that waits, or a failed slice do not. -/
def Dev.fsClaim (d : Dev) (l : Nat) : Option Dev :=
  let fs := laneFs l
  if d.on F.LN_FS_STS_FAULT fs ∨ (d.standInNext fs).any (fun m => decide (m ≠ l) && d.claimBefore m l) then none
  else if d.fsOwner fs = 0 then some ((if d.calOnSlice fs then d.calEnd 5 else d).fsSet fs 1 false false (lanePad l))
  else if d.fsOwner fs = 3 then
    some ((d.marginStop (fsLane fs (d.rd F.LN_FS_STS_PAD fs)) false).fsSet fs 1 false false (lanePad l))
  else none

/-- The calibration that holds this lane's slice ends ABORTED at once, its old trims in force, and the slice
is released (R295, cases without a handover). -/
def Dev.calAbortNow (d : Dev) (l : Nat) : Dev :=
  if d.calHolds l then
    ((d.modLane l (fun x => { x with tShadow := false, returning := false })).fsRelease (laneFs l)).calEnd 5
  else d

/-- A loss on another lane of the bay side: the calibrated lane returns by a handover first, with its old
trims, and the command then reports ABORTED (R295). During the takeover the claim is given up at once. -/
def Dev.calPreempt (d : Dev) (l : Nat) : Dev :=
  let t := d.cal.target
  if d.cal.kind = 2 ∧ t < 128 ∧ laneFs t = laneFs l ∧ t ≠ l ∧ d.calHolds t then
    if d.on F.LN_STS_ON_FS t then
      { d with cal := { d.cal with phase := .returning, code := 5 } }.modLane t (fun x => { x with returning := true, tShadow := true })
    else d.calAbortNow t
  else d

/-- Put a lane back on its primary slice at once, without a handover (R88, R295): a rescue's slice is
released, a calibration's ends ABORTED; a granted stand-in keeps the slice (R64). -/
def Dev.toPrimary (d : Dev) (l : Nat) : Dev :=
  if (d.lane l).standIn ∨ (d.lane l).standInAcq then d
  else
    let d1 := d.calAbortNow l
    let fs := laneFs l
    let mine := decide (d1.fsOwner fs = 1 ∧ d1.rd F.LN_FS_STS_PAD fs = lanePad l) && ! (d1.lane l).standInWait
    let d2 := if mine then d1.fsRelease fs else d1
    d2.setOnFs l false

/-- Stop whatever sequence runs on a receive direction (R88). -/
def Dev.stopSeq (d : Dev) (l : Nat) : Dev :=
  (d.modLane l (fun x => { x with loss := [], tReacq := false, tRescue := false, tShadow := false
                                  byPrimary := false, returning := false, idleExit := false, refreshed := false
                                  eios := false })).toPrimary l

/-- Self-test votes on a bay while a lane test runs in it (Table 14.3). -/
def Dev.ptVote (d : Dev) (bay : Nat) : Dev :=
  d.vote 8 (rowA bay) (d.lanes.any (fun p => decide (laneBay p.1 = bay) && p.2.testing))

/-- A lane test ends with a RESULT of Table 13.13, and the lane's KSTATE goes back where the test had taken it. -/
def Dev.ptEnd (d : Dev) (l result : Nat) : Dev :=
  let d1 := (d.wr F.LN_PT_STS_STATE l 0).wr F.LN_PT_STS_RESULT l result
  let d2 := if d1.on F.LN_PT_STS_DONE l then d1 else (d1.wr F.LN_PT_STS_DONE l 1).alert 8
  let d3 := d2.modLane l (fun x => { x with testing := false })
  let d4 := if d3.ks l = 8 then d3.setKs l (d3.lane l).ksBefore else d3
  d4.ptVote (laneBay l)

/-- A lane test on a transceiver ends Aborted (R311). -/
def Dev.ptAbort (d : Dev) (l : Nat) : Dev := if (d.lane l).testing then d.ptEnd l 2 else d

/-- Step 4 of Table 3.11: the outbound transmitter of the same direction goes to electrical idle, KSTATE to
Squelched with FCODE 0x06 unless signal detect is deasserted, and a rescuing slice is released. -/
def Dev.squelch (d : Dev) (l : Nat) : Dev :=
  let d1 := d.modLane l (fun x => { x with tReacq := false, tRescue := false, byPrimary := false, loss := []
                                           tShadow := false, returning := false })
  let d2 := (d1.toPrimary l).setTxIdle (laneOpp l) true
  let d3 := d2.setKs l 6
  if d3.on F.LN_STS_SIGDET l then d3.laneFault (laneTp l) 6 else d3

/-! ## Transmit taps (R43) -/

/-- The taps that a word of LN_TX_FFE sets. -/
def tapsOfWord (w : Nat) : Taps :=
  ⟨signed 4 (bits w 0 4), signed 5 (bits w 4 5), signed 6 (bits w 9 6), bits w 15 7, signed 6 (bits w 22 6)⟩

def wordOfTaps (t : Taps) : Nat :=
  unsigned 4 t.cm3 + unsigned 5 t.cm2 * 2 ^ 4 + unsigned 6 t.cm1 * 2 ^ 9 + unsigned 7 t.c0 * 2 ^ 15
    + unsigned 6 t.cp1 * 2 ^ 22

/-- The transmit taps in force. -/
def Dev.taps (d : Dev) (l : Nat) : Taps := tapsOfWord (d.word .LN_TX_FFE l)

def Dev.setTaps (d : Dev) (l : Nat) (t : Taps) : Dev := d.putWord .LN_TX_FFE l (wordOfTaps t)

/-! ## Bay PLLs and references -/

def pllIx (bay n : Nat) : Nat := 2 * bay + n

/-- The reference a PLL is set up on. -/
def Dev.pllRef (d : Dev) (p : Nat) : RefX := d.ref (d.rd F.LN_PLL_CTL_REFSEL p)

/-- The PLL's family accepts the frequency identified on its reference. -/
def Dev.pllAccepts (d : Dev) (p : Nat) : Bool :=
  decide (pllNdiv (d.rd F.LN_PLL_CTL_FAMILY p) (d.pllRef p).id ≠ 0)

/-- Status bits that follow the selected reference (Table 2.17). -/
def Dev.pllRefresh (d : Dev) (p : Nat) : Dev :=
  let r := d.pllRef p
  let los := if d.rd F.LN_PLL_CTL_FAMILY p = 0 then decide (r.id = 0) else ! d.pllAccepts p
  let d1 := (d.wrc F.LN_PLL_STS_REFID p r.id).wrc F.LN_PLL_STS_REFLOS p (b2n los)
  let d2 := (d1.wrc F.LN_PLL_STS_SPREAD p (b2n r.spread)).wrc F.LN_PLL_STS_DOWN p (b2n (r.spread && r.down))
  d2.wrc F.LN_PLL_STS_SPREAD_PPM p (min 255 (r.ppm / 25))

/-- R36: FP-low belongs on PLL0 of a bay, and FP-high on PLL1. -/
def pllTakes (k fam : Nat) : Bool := decide (fam ≠ 9 ∨ k = 0) && decide (fam ≠ 10 ∨ k = 1)

/-- The bay PLL that holds a family, whether or not it is locked (R36, R38). -/
def Dev.pllHolding (d : Dev) (bay fam : Nat) : Option Nat :=
  if fam = 0 then none
  else [0, 1].find? (fun k => pllTakes k fam && decide (d.rd F.LN_PLL_CTL_FAMILY (pllIx bay k) = fam))

/-- The transceivers that a PLL serves: lanes of the bay outside Disabled whose PLLSEL names it. -/
def Dev.pllLanes (d : Dev) (p : Nat) : List Nat :=
  (List.range 16).map (fun k => 8 * (p / 2) + k % 8 + 64 * (k / 8)) |>.filter
    (fun l => decide (d.ks l ≠ 0 ∧ d.rd F.LN_STS_PLLSEL l = p % 2))

/-- A reference on which a family can be set up now: the PLL's own first. -/
def Dev.refFor (d : Dev) (p fam : Nat) : Option Nat :=
  let own := d.rd F.LN_PLL_CTL_REFSEL p
  if pllNdiv fam (d.ref own).id ≠ 0 then some own
  else if pllNdiv fam (d.ref (1 - own)).id ≠ 0 then some (1 - own)
  else none

/-- The PLL that R38 lets a course retune to a family, with the reference: an unused one first. -/
def Dev.retuneable (d : Dev) (n bay fam : Nat) : Option (Nat × Nat) :=
  if d.on F.CS_CTL_BOOTPROF n then none
  else
    let free (k : Nat) : Bool := (d.pllLanes (pllIx bay k)).isEmpty
    let own (k : Nat) : Bool := (d.pllLanes (pllIx bay k)).all (fun l => d.hasLane n (laneTp l))
    let ok (k : Nat) (c : Bool) : Option (Nat × Nat) :=
      if c && pllTakes k fam then (d.refFor (pllIx bay k) fam).map (fun r => (k, r)) else none
    (ok 0 (free 0)).or ((ok 1 (free 1)).or ((ok 0 (own 0)).or (ok 1 (own 1))))

/-- A bay PLL holds the family, or R38 permits a retune to it. -/
def Dev.familyHeld (d : Dev) (n bay fam : Nat) : Bool :=
  (d.pllHolding bay fam).isSome || (d.retuneable n bay fam).isSome

/-- Another course outside Disabled has a lane in the bay, and PCI Express is the protocol of one of the two only (R36). -/
def Dev.bayMixed (d : Dev) (n bay : Nat) : Bool :=
  (List.range 8).any (fun k => (d.laneCourses (8 * bay + k)).any (fun m =>
    decide (m ≠ n ∧ d.rd F.CS_STS_KSTATE m ≠ 0) && ! ((d.proto m = .pcie) == (d.proto n = .pcie))))

/-- A bay can hold a family for a course (R36, R38): a bay with PCI Express lanes holds FP-low and FP-high, and carries no other
protocol. -/
def Dev.familyOk (d : Dev) (n bay fam : Nat) : Bool :=
  ! d.bayMixed n bay && d.familyHeld n bay fam
    && (decide (d.proto n ≠ .pcie) || (d.familyHeld n bay 9 && d.familyHeld n bay 10))

/-- The bays of a course's lanes. -/
def Dev.courseBays (d : Dev) (n : Nat) : List Nat :=
  (List.range 8).filter (fun b => (d.courseTps n).any (fun tp => decide (tp / 8 = b)))

def Dev.rateHasPll (d : Dev) (n rate : Nat) : Bool :=
  (d.courseBays n).all (fun b => d.familyOk n b (rateFamily rate))

/-- Set up or retune a PLL: it holds the family from this moment and locks at PLL_LOCK. -/
def Dev.retune (d : Dev) (p fam ref : Nat) : Dev :=
  let d1 := (d.wrc F.LN_PLL_CTL_FAMILY p fam).wrc F.LN_PLL_CTL_REFSEL p ref
  let nd := pllNdiv fam (d.ref ref).id
  let d2 := if nd = 0 then d1 else d1.wrc F.LN_PLL_CTL_NDIV p nd
  (d2.wrc F.LN_PLL_STS_LOCK p 0).pllRefresh p

/-- A bay's PLL is retuned to a family for a course, where none holds it and R38 permits it. -/
def Dev.bayTakes (d : Dev) (n bay fam : Nat) : Dev :=
  if (d.pllHolding bay fam).isSome then d
  else match d.retuneable n bay fam with
    | some (k, r) => d.retune (pllIx bay k) fam r
    | none => d

/-- A transceiver is served by the bay PLL of a rate's family; a bay of PCI Express lanes holds both its families (R36). -/
def Dev.laneToPll (d : Dev) (n l rate : Nat) : Dev :=
  let bay := laneBay l
  let d0 := if d.proto n = .pcie then (d.bayTakes n bay 9).bayTakes n bay 10 else d
  let d1 := d0.bayTakes n bay (rateFamily rate)
  match d1.pllHolding bay (rateFamily rate) with
  | some k => d1.wrc F.LN_STS_PLLSEL l k
  | none => d1

/-- A receiver takes a rate: its PLL, and the FFE at PAM4 rates (R45). -/
def Dev.rxToRate (d : Dev) (n l rate : Nat) : Dev :=
  ((d.laneToPll n l rate).wrc F.LN_RX_EQ_FFE_EN l (b2n (ratePam4 rate))).modLane l (fun x => { x with rxRate := rate })

/-- A transceiver takes a rate in both directions. -/
def Dev.laneToRate (d : Dev) (n l rate : Nat) : Dev := (d.rxToRate n l rate).modLane l (fun x => { x with txRate := rate })

/-- The state that Table 12.1 requires of a calibration's target. -/
def Dev.calState (d : Dev) (kind t param : Nat) : Bool :=
  match kind with
  | 0 => decide (d.unitKs (laneTp t) = 0) && ! d.on F.LN_STS_SIGDET t
  | 1 => (List.range 16).all (fun k => decide (d.ks (8 * t + k % 8 + 64 * (k / 8)) = 0)) && decide (d.fsOwner t = 0 ∧ d.fsOwner (t + 8) = 0)
  | 2 => if t < 128 then decide (d.ks t = 0 ∨ d.ks t = 2) || d.calHolds t else decide (d.fsOwner (t - 128) = 0)
  | 3 => decide (d.ks t ≠ 9)
  | 4 => (d.pllLanes t).isEmpty
  | _ => decide (d.unitKs (laneTp t) = 0) && d.tbFine && (d.pllHolding (laneBay t) (rateFamily param)).isSome

/-- A calibration ends ABORTED where its target leaves the state that Table 12.1 requires during a run (R295). -/
def Dev.calCheck (d : Dev) : Dev :=
  if d.cal.phase = .measure ∧ ! d.calState d.cal.kind d.cal.target d.cal.param then d.calEnd 5 else d

/-- A rate above 12.5 Gb/s (R335). -/
def fastRate (rate : Nat) : Bool := (rateRow rate).elim false (fun r => decide (12500000 < r.kbps))

/-- A lane of the bay runs faster than 12.5 Gb/s. -/
def Dev.bayFast (d : Dev) (bay : Nat) : Bool :=
  (List.range 16).any (fun k =>
    let l := 8 * bay + k % 8 + 64 * (k / 8)
    decide (d.ks l ≠ 0) && fastRate (d.lane l).rxRate)

/-- A bay's shell runs at 0.80 V, or steps. -/
def Dev.shellLow (d : Dev) (bay : Nat) : Bool :=
  decide (d.rd F.PW_DOM_VNOW (rowA bay) = 60) || (d.pw.vtarget.find? (rowA bay)).isSome

/-- A rate change of a course waits until the shells of its bays are at 0.90 V and settled (R335). -/
def Dev.shellWaits (d : Dev) (n rate : Nat) : Bool := fastRate rate && (d.courseBays n).any (fun b => d.shellLow b)

/-- The step up to 0.90 V that such a change makes at once. -/
def Dev.shellRaise (d : Dev) (n : Nat) : Dev :=
  d.each ((d.courseBays n).filter (fun b => d.shellLow b)) (fun b d =>
    d.modPw (fun p => { p with vtarget := p.vtarget.put (rowA b) 80 }))

/-- A step to 0.80 V withheld for a fast lane starts once no lane of the bay is fast. -/
def Dev.shellRelease (d : Dev) (bay : Nat) : Dev :=
  if d.on F.PW_DOM_VWAIT (rowA bay) ∧ ! d.bayFast bay ∧ (d.pw.vtarget.find? (rowA bay)).isNone then
    (d.wrc F.PW_DOM_VWAIT (rowA bay) 0).modPw (fun p => { p with vtarget := p.vtarget.put (rowA bay) (d.rd F.PW_DOM_VSET (rowA bay)) })
  else d

/-- A PLL's lock serves a lane. -/
def Dev.lanePllLocked (d : Dev) (l : Nat) : Bool :=
  d.on F.LN_PLL_STS_LOCK (pllIx (laneBay l) (d.rd F.LN_STS_PLLSEL l))

/-- The bay PLL that would serve a course at a rate of a family, with its reference: the one that holds the family, or the one that
R38 would retune. -/
def Dev.pllFor (d : Dev) (n bay fam : Nat) : Nat × Nat :=
  match d.pllHolding bay fam with
  | some k => (k, d.rd F.LN_PLL_CTL_REFSEL (pllIx bay k))
  | none => (d.retuneable n bay fam).getD (0, d.rd F.LN_PLL_CTL_REFSEL (pllIx bay 0))

/-- The reference check of R42 for a course at a rate: its PLLs' references are not spread, or the course is a
PCI Express course without timing on a down-spread of at most 6,000 ppm. -/
def Dev.refAccepted (d : Dev) (n rate : Nat) : Bool :=
  (d.courseBays n).all (fun b =>
    let r := d.ref (d.pllFor n b (rateFamily rate)).2
    ! r.spread || (decide (d.proto n = .pcie) && ! d.on F.CS_CTL_TIMING n && r.down && decide (r.ppm ≤ 6000)))

/-- Record a refused reference: FCODE 0x03 on the lanes, REFUSED on the PLLs (R42). -/
def Dev.refuseRef (d : Dev) (n rate : Nat) : Dev :=
  let d1 := d.each (d.courseTps n) (fun tp d => d.laneFault tp 3)
  d1.each (d1.courseBays n) (fun b d =>
    d.wr F.LN_PLL_STS_REFUSED (pllIx b (d.pllFor n b (rateFamily rate)).1) 1)

end Sys2Proof.Machine
end

