-- ==== Sys2Proof/Machine/CourseCore.lean ====
section
/-! DEFINITION. The course state machine and the segments: Tables 3.1 to 3.10 of
spec/03_courses_datapaths.md, Table 4.5 of spec/04_training_ethernet_cpri.md and R23, R24 of
spec/01_architecture.md. -/
namespace Sys2Proof.Machine

/-! ## Policy (R23) -/

/-- The health that at least `q` of the members reach or better. -/
def nthBest (hs : List Nat) (q : Nat) : Nat :=
  ((List.range 5).find? (fun h => decide (q ≤ (hs.filter (fun x => decide (x ≤ h))).length))).getD 3

/-- The policy result of a group: policy code, quorum, its members' health, and the active member's. -/
def policyResult (policy quorum : Nat) (hs : List Nat) (active : Option Nat) : Nat :=
  if hs.isEmpty then 3
  else if policy = 0 then nthBest hs hs.length
  else if policy = 1 then nthBest hs 1
  else if policy = 2 then nthBest hs quorum
  else active.getD 3

/-- Health of a unit as its block has it: lanes and courses from their state, others from the descriptor. -/
def Dev.unitHealth (d : Dev) (id : Nat) : Nat :=
  if 0x040 ≤ id ∧ id < 0x080 then d.laneHealth (id - 0x040)
  else if 0x200 ≤ id ∧ id < 0x400 then courseHealthOf (d.rd F.CS_STS_KSTATE (id - 0x200))
  else d.rd F.UD_STATE_HEALTH id

/-- The policy result of a course over its lanes (R73), or of an Aggregate over its member courses. -/
def Dev.coursePolicy (d : Dev) (n : Nat) : Nat :=
  let u := courseUnit n
  let pol := d.rd F.UD_IDENT_POLICY u
  let q := d.rd F.UD_STATE_QUORUM u
  if d.rd F.CS_CTL_ROLE n = 1 then
    let a := d.rd F.CS_SEL_ACTIVE n
    policyResult pol q ((d.members u).map d.unitHealth) (if a = 0 then none else some (d.unitHealth a))
  else policyResult pol q ((d.policyTps n).map d.laneHealth) none

/-! ## Span courses (R72) -/

/-- The courses above a course. -/
def Dev.coursesAbove (d : Dev) (fuel id : Nat) : List Nat :=
  match fuel with
  | 0 => []
  | fuel + 1 =>
    let p := d.rd F.UD_IDENT_PARENT id
    if 0x200 ≤ p ∧ p < 0x400 then (p - 0x200) :: d.coursesAbove fuel p else []

def Dev.ancestors (d : Dev) (n : Nat) : List Nat := d.coursesAbove courseCount (courseUnit n)

/-- A Span course above holds the course in Disabled. -/
def Dev.held (d : Dev) (n : Nat) : Bool :=
  (d.ancestors n).any (fun m => decide (d.rd F.CS_CTL_ROLE m = 2 ∧ d.rd F.CS_STS_KSTATE m ≠ 0))

/-- The courses whose entry is in use: CS_CTL.ENABLE or KSTATE set. -/
def Dev.usedCourses (d : Dev) : List Nat :=
  (d.listed F.CS_CTL_ENABLE ++ (d.listed F.CS_STS_KSTATE).filter (fun n => ! d.on F.CS_CTL_ENABLE n))

/-- The courses beneath a course. -/
def Dev.coursesBelow (d : Dev) (n : Nat) : List Nat := d.usedCourses.filter (fun m => (d.ancestors m).contains n)

/-! ## Profiles (R84) -/

def widthAllowed (p : Proto) (k : Nat) : Bool :=
  match p with
  | .eth => decide (k = 1 ∨ k = 2 ∨ k = 4 ∨ k = 8)
  | .cpri => decide (k = 1)
  | .pcie => decide (k = 1 ∨ k = 2 ∨ k = 4 ∨ k = 8 ∨ k = 16)
  | .rsvd => false

/-- The course learns its rate: Ethernet with AN, or CPRI with FOLLOW. -/
def Dev.learnsRate (d : Dev) (n : Nat) : Bool :=
  match d.proto n with
  | .eth => d.on F.CS_CTL_AN n
  | .cpri => d.on F.CS_CPRI_CFG_FOLLOW n
  | _ => false

/-- A course's profile is valid (R84), and no committed transaction holds it in Disabled. -/
def Dev.profileValid (d : Dev) (n : Nat) : Bool :=
  let p := d.proto n
  let tps := d.courseTps n
  let rate := d.rd F.CS_RATE_RATE n
  let rmin := d.rd F.CS_RATE_RMIN n
  let rmax := d.rd F.CS_RATE_RMAX n
  let far := tps.any (fun tp => decide (16 ≤ tp))
  let phy := d.rd F.CS_ETH_CFG_PHY n
  let codes := decide (d.rd F.CS_CTL_MODE n ≠ 3 ∧ d.rd F.CS_CTL_PROTO n ≠ 3 ∧ d.rd F.CS_CTL_ROLE n ≠ 3
    ∧ d.rd F.CS_RATE_FEC n ≠ 3)
  let window := rateAllowed p rmin && rateAllowed p rmax && decide (rmin ≤ rmax)
    && (if p = .pcie then decide (rmin = 0x08) else true)
  let rateIn := if rate = 0 then d.learnsRate n else rateAllowed p rate && decide (rmin ≤ rate ∧ rate ≤ rmax)
  let top := ! (far && decide (rate = 0x15 ∨ rmax = 0x15))
  let fam := decide (rate = 0) || d.rateHasPll n rate
  let phyOk :=
    if p = .eth ∧ ! d.on F.CS_CTL_AN n then
      match phyRow phy with
      | none => false
      | some r => decide ((r.lanes = 0 ∨ r.lanes = tps.length) ∧ (r.rate = 0 ∨ r.rate = rate))
    else true
  let alone := tps.all (fun tp => (d.laneCourses tp).all (fun m =>
    decide (m = n ∨ d.rd F.CS_STS_KSTATE m = 0)
      || (decide (d.rd F.CS_CTL_ROLE n = 2) && (d.ancestors m).contains n)))
  ! (d.course n).barred && codes && widthAllowed p tps.length && window && rateIn && top && fam && phyOk && alone

/-! ## Entries to the course states -/

def segFld (s : Side) : Fld := if s = .a then F.CS_STS_SEGA else F.CS_STS_SEGB
def Dev.segState (d : Dev) (n : Nat) (s : Side) : Nat := d.rd (segFld s) n
def Dev.setSeg (d : Dev) (n : Nat) (s : Side) (v : Nat) : Dev := d.wrc (segFld s) n v
def Dev.setSegs (d : Dev) (n v : Nat) : Dev := (d.setSeg n .a v).setSeg n .b v
def Dev.modSegs (d : Dev) (n : Nat) (g : SegX → SegX) : Dev := (d.modSeg (2 * n) g).modSeg (2 * n + 1) g

/-- A course takes a KSTATE: its time of change, and its descriptor's mirror (R85, R26). Leaving Idle ends a lane
test on a lane in Lane Idle (R311). -/
def Dev.setCourse (d : Dev) (n ks : Nat) : Dev :=
  if d.rd F.CS_STS_KSTATE n = ks then d
  else
    let d0 := if d.rd F.CS_STS_KSTATE n = 6 then d.each (d.courseLanes n) (fun l d => d.ptAbort l) else d
    let d1 := d0.wr F.CS_STS_KSTATE n ks
    let t := d.time
    let d2 := (d1.wr F.CS_TCHG_S_SEC n (timeSec t)).wr F.CS_TCHG_NS_NSEC n (timeNs t)
    (d2.publish (courseUnit n) ks (courseHealthOf ks)).courseLaneStatus n

/-- A course records a code of Table 3.9. -/
def Dev.courseFault (d : Dev) (n code : Nat) : Dev := (d.wr F.CS_STS_FCODE n code).unitFault (courseUnit n) code

def Dev.courseTxIdle (d : Dev) (n : Nat) (b : Bool) : Dev := d.each (d.courseLanes n) (fun l d => d.setTxIdle l b)
def Dev.sideTxIdle (d : Dev) (n : Nat) (s : Side) (b : Bool) : Dev :=
  d.each (d.courseSideLanes n s) (fun l d => d.setTxIdle l b)

/-- Column 3 of the Vote Board follows the courses outside Disabled (Table 14.3). -/
def Dev.courseVotes (d : Dev) (n : Nat) : Dev :=
  let live := (d.listed F.CS_STS_KSTATE)
  let d1 := d.each (d.courseBays n) (fun b d => d.vote 3 (rowA b)
    (live.any (fun m => (d.courseTps m).any (fun tp => decide (tp / 8 = b)))))
  let r := d.rd F.CS_CTX_REGION n
  if d.on F.CS_CTL_VIA_FABRIC n then
    d1.vote 3 (rowL r) (live.any (fun m => d.on F.CS_CTL_VIA_FABRIC m && decide (d.rd F.CS_CTX_REGION m = r)))
  else d1

/-- The status of the PCI Express layout clears on entry to Detect (Table 5.9), and margining ends (R137). -/
def Dev.pciClear (d : Dev) (n : Nat) : Dev :=
  if d.proto n = .pcie then
    let d1 := d.each (d.courseLanes n) (fun l d => d.marginStop l true)
    d1.each (Reg.fields .CS_PCI_STS |>.map (fun f => f.lo)) (fun lo d =>
      match (Reg.fields .CS_PCI_STS).find? (fun f => f.lo = lo) with
      | some f => d.wrc f n 0
      | none => d)
  else d

/-- The course enters Disabled (row 1 of Table 3.7). -/
def Dev.enterDisabled (d : Dev) (n : Nat) : Dev :=
  let d1 := d.each (d.courseLanes n) (fun l d => ((d.marginStop l true).stopSeq l).setKs l 0)
  let d2 := (d1.courseTxIdle n true).wrc F.CS_STS_BACKOFF n 0
  let d3 := (d2.setSegs n 0).modSegs n (fun _ => {})
  let d4 := d3.modCourse n (fun c => { barred := c.barred })
  let d5 := d4.setCourse n 0
  (d5.each (d5.courseBays n) (fun b d => d.shellRelease b)).courseVotes n

/-- R43: on a PCI Express course the taps c-3 and c-2 are 0; what they held goes to c0, so that the magnitudes still add up. -/
def Dev.pcieTaps (d : Dev) (l : Nat) : Dev :=
  let t := d.taps l
  if t.cm3 = 0 ∧ t.cm2 = 0 then d
  else d.setTaps l { t with cm3 := 0, cm2 := 0, c0 := t.c0 + t.cm3.natAbs + t.cm2.natAbs }

/-- A lane begins to acquire, on the bay PLL that holds its course's family; on a PLL unlocked because its reference is absent it
is in Fault with FCODE 0x02 instead, until the PLL locks (R38 to R40). -/
def Dev.laneAcquire (d : Dev) (n l : Nat) : Dev :=
  let d1 := match d.pllHolding (laneBay l) (rateFamily (d.rd F.CS_RATE_RATE n)) with
    | some k => d.wrc F.LN_STS_PLLSEL l k
    | none => d
  let d2 := if d1.proto n = .pcie then d1.pcieTaps l else d1
  let p := pllIx (laneBay l) (d2.rd F.LN_STS_PLLSEL l)
  let d3 := d2.wrc F.LN_STS_LOCK l 0
  if d3.on F.LN_PLL_STS_REFLOS p ∧ ! d3.on F.LN_PLL_STS_LOCK p ∧ d3.rd F.LN_PLL_CTL_FAMILY p ≠ 0 then
    (d3.setKs l 9).laneFault (laneTp l) 2
  else d3.setKs l 1

/-- The course enters Detect: each member lane that is not in Fault goes to Acquire, and one whose primary slice has failed
stays in Fault until a stand-in carries it (R64); any loss sequence stops, both segments go to Detect (R83, Table 4.5). -/
def Dev.enterDetect (d : Dev) (n : Nat) : Dev :=
  let d1 := d.pciClear n
  let d2 := d1.each (d.courseLanes n) (fun l d =>
    let d := (d.ptAbort l).stopSeq l
    if (d.lane l).sliceFailed ∧ ! (d.lane l).standIn then d.setKs l 9
    else if d.ks l = 9 then d else d.laneAcquire n l)
  let d3 := (d2.setSegs n 0).modSegs n (fun _ => {})
  let d4 := d3.modCourse n (fun c => { c with tAllsq := false, tHold := false, holdLost := false })
  let d5 := if d4.proto n = .eth then (d4.wrc F.CS_ETH_RES_DONE_A n 0).wrc F.CS_ETH_RES_DONE_B n 0 else d4
  (d5.setCourse n 1).courseVotes n

/-- A Span course takes its lanes: the courses beneath it pass to Disabled, and it enters Detect (R72, R84). -/
def Dev.spanDetect (d : Dev) (n : Nat) : Dev :=
  let beneath := if d.rd F.CS_CTL_ROLE n = 2 then d.coursesBelow n else []
  (d.each beneath (fun m d => if d.rd F.CS_STS_KSTATE m = 0 ∨ d.rd F.CS_CTL_ROLE m = 1 then d else d.enterDisabled m)).enterDetect n

/-- A back-off step (R82): transmitters idle, partner activity ignored until BACKOFF_END. PCI Express courses
take none. -/
def Dev.backoffStep (d : Dev) (n : Nat) : Dev :=
  let d1 := d.courseTxIdle n true
  if d.proto n = .pcie then d1 else d1.modCourse n (fun c => { c with backoff := true })

/-- The lane whose silence a segment's timer watches in Negotiate: logical lane 0 of its side. -/
def Dev.lane0 (d : Dev) (n : Nat) (s : Side) : Option Nat := (d.logicalTp n 0).map (fun tp => laneIx tp s)

def Dev.sideQuietAny (d : Dev) (n : Nat) (s : Side) : Bool :=
  (d.courseSideLanes n s).any (fun l => ! d.on F.LN_STS_SIGDET l)

/-- A segment enters Negotiate (Table 4.5): its pages and page status start afresh and TNEG starts. -/
def Dev.segNegotiate (d : Dev) (n : Nat) (s : Side) : Dev :=
  let k := segIx n s
  let quiet := (d.lane0 n s).elim false (fun l => ! d.on F.LN_STS_SIGDET l)
  let isCpri := decide (d.proto n = .cpri)
  let watch := isCpri || d.on F.CS_CTL_AN n
  let d1 := (d.setSeg n s 1).modSeg k (fun _ => { tneg := watch, silence := watch && quiet, measuring := isCpri })
  if isCpri then d1
  else
    let done := if s = .a then F.CS_ETH_RES_DONE_A else F.CS_ETH_RES_DONE_B
    ((d1.wrc F.CS_ETH_PG_HI_NPCNT k 0).wrc F.CS_ETH_PG_HI_VALID k 0).wrc done n 0

/-- What logical lane 0 of a side receives in auto-negotiation is re-sent on the other side; silence as electrical idle (R95).  Nothing
is forwarded to a segment in Train or Ready, whose lanes carry training frames or data (R97, R100). -/
def Dev.forwardIdle (d : Dev) (n : Nat) (s : Side) (idle : Bool) : Dev :=
  match d.lane0 n s with
  | none => d
  | some l =>
    if d.segState n (otherSide s) = 2 ∨ d.segState n (otherSide s) = 3 then d else d.setTxIdle (laneOpp l) idle

/-- Logical lane 0 of a side is silent. -/
def Dev.lane0Quiet (d : Dev) (n : Nat) (s : Side) : Bool := (d.lane0 n s).elim true (fun l => ! d.on F.LN_STS_SIGDET l)

/-- The course enters Negotiate: segments to Negotiate; on Ethernet logical lane 0 of each side forwards and
the other lanes stay in electrical idle (R95); a CPRI course without FOLLOW runs both directions at its rate (R112). -/
def Dev.enterNegotiate (d : Dev) (n : Nat) : Dev :=
  let d1 := (d.segNegotiate n .a).segNegotiate n .b
  let d2 := d1.courseTxIdle n true
  let d3 :=
    if d.proto n = .eth then
      let d3 := (d2.forwardIdle n .a (d2.lane0Quiet n .a)).forwardIdle n .b (d2.lane0Quiet n .b)
      d3.bump F.CS_ETH_CNT_AN_COUNT n
    else if d2.on F.CS_CPRI_CFG_FOLLOW n then d2
    else (d2.each (d2.courseLanes n) (fun l d => d.laneToRate n l (d.rd F.CS_RATE_RATE n))).courseTxIdle n false
  d3.setCourse n 2

/-- The status of CS_ETH_TRx clears on entry to Train (Table 4.11). -/
def Dev.trClear (d : Dev) (k : Nat) : Dev :=
  (Reg.fields .CS_ETH_TR).foldl (fun d f => d.wrc f k 0) d

def ltssmFld (s : Side) : Fld := if s = .a then F.CS_PCI_STS_LTSSM_A else F.CS_PCI_STS_LTSSM_B

/-- What the electrical idle of a PCI Express course in service shows of the partners (R128, R138): L0s on a side all of whose
lanes are in Lane Idle, L1 where both sides are, L0 again once a lane has left it. -/
def Dev.pciIdleState (d : Dev) (n : Nat) : Dev :=
  if d.proto n = .pcie ∧ d.inService n then
    let quiet (s : Side) : Bool := ! (d.policyTps n).isEmpty && (d.policyTps n).all (fun tp => decide (d.ks (laneIx tp s) = 7))
    let one (d : Dev) (s : Side) : Dev :=
      if quiet s then d.wrc (ltssmFld s) n (if quiet (otherSide s) then 6 else 5)
      else if d.rd (ltssmFld s) n = 5 ∨ d.rd (ltssmFld s) n = 6 then d.wrc (ltssmFld s) n 3
      else d
    one (one d .a) .b
  else d

/-- What a lane's Lane Idle changes of the state its PCIe course shows. -/
def Dev.laneIdleShown (d : Dev) (l : Nat) : Dev :=
  match d.laneCourse (laneTp l) with
  | none => d
  | some n => d.pciIdleState n

/-- HFNSYNC of a segment (CS_CPRI_STS). -/
def hfnFld (s : Side) : Fld := if s = .a then F.CS_CPRI_STS_HFN_A else F.CS_CPRI_STS_HFN_B

/-- An Ethernet course whose PHY type trains (Table 4.2). -/
def Dev.trains (d : Dev) (n : Nat) : Bool := decide (d.proto n = .eth ∧ phyClause (d.rd F.CS_ETH_CFG_PHY n) ≠ 0)

/-- A segment enters Train (Table 4.5): its timer starts, and its partner's silence is watched; where the PHY type trains, training
frames start on every lane, and ask a PAM4 partner to precode where CS_ETH_CFG says so (R100, R105); where HFNSYNC is already held
its HFNHOLD run starts (R115).  A rate that is being measured still is (R112). -/
def Dev.segTrain (d : Dev) (n : Nat) (s : Side) : Dev :=
  let k := segIx n s
  let p := d.proto n
  let d1 := if p = .eth then d.trClear k else d
  (d1.setSeg n s 2).modSeg k (fun x =>
    { x with tneg := decide (p = .cpri), ttrain := decide (p = .eth), tdata := false
             frames := d.trains n
             askPrecode := d.trains n && d.on F.CS_ETH_CFG_PRECODE_REQ n && ratePam4 (d.rd F.CS_RATE_RATE n)
             silence := decide (p ≠ .pcie) && d.sideQuietAny n s
             ended := false, amLock := false, sdsSeen := false, lastTs2 := false
             hfnHold := decide (p = .cpri) && d.on (hfnFld s) n })

/-- The course enters Train: lanes to CS_RATE.RATE; training frames start on every lane where the PHY type
trains, with the initial request of CS_ETH_CFG.INIT to each partner (R101); a 0x20 course holds its transmitters idle (R107), the others
transmit. -/
def Dev.enterTrain (d : Dev) (n : Nat) : Dev :=
  let rate := d.rd F.CS_RATE_RATE n
  let d1 := (d.segTrain n .a).segTrain n .b
  let d2 := d1.each (d1.courseLanes n) (fun l d =>
    let d := if (d.lane l).rxRate = rate then d else d.wrc F.LN_STS_LOCK l 0
    let d := if d.proto n = .cpri ∧ d.on F.CS_CPRI_CFG_FOLLOW n then d else d.laneToRate n l rate
    let req := if d.trains n then some (.initial (d.rd F.CS_ETH_CFG_INIT n)) else none
    d.modLane l (fun x => { x with precode := false, ownRequest := req }))
  let quiet := decide (d2.proto n = .eth) && ! d2.trains n
  let d3 := d2.each (d2.courseBays n) (fun b d => d.shellRelease b)
  (d3.courseTxIdle n quiet).setCourse n 3

/-- The course's lanes leave service for training (row 16, R88): rescues are abandoned, lanes on flashing
slices return to their primaries, and the lanes acquire. -/
def Dev.leaveService (d : Dev) (n : Nat) : Dev :=
  let d1 := d.each (d.courseLanes n) (fun l d =>
    let d := (d.marginStop l true).stopSeq l
    if d.ks l = 9 ∨ d.ks l = 7 then d else d.setKs l 1)
  d1.modCourse n (fun c => { c with tAllsq := false })

/-- Write CS_LAT_AB and CS_LAT_BA (R79, R155): in Fine the measured latencies, or free values where the command brings none, in
Coarse the ROM nominal ones; VALID is 0 on a course that is not latency-locked. -/
def Dev.writeLat (d : Dev) (n : Nat) (lat : Option (BitVec 24 × BitVec 24)) : Dev :=
  if d.latencyLocked n then
    let rate := d.rd F.CS_RATE_RATE n
    let v := if d.on F.TB_STS_MODE then lat.getD (Config.latency d.draws 0, Config.latency d.draws 1)
      else (Config.romLatency rate 0, Config.romLatency rate 1)
    let d1 := if lat.isNone then d.draw else d
    let d2 := (d1.wr F.CS_LAT_LAT (2 * n) v.1.toNat).wr F.CS_LAT_VALID (2 * n) 1
    (d2.wr F.CS_LAT_LAT (2 * n + 1) v.2.toNat).wr F.CS_LAT_VALID (2 * n + 1) 1
  else (d.wrc F.CS_LAT_VALID (2 * n) 0).wrc F.CS_LAT_VALID (2 * n + 1) 0

/-- The course enters Run (row 14), but for a silent lane outside the trained width of a PCI Express course (R131): BACKOFF := 0, CS_LAT written, transmitters carry data, every timer of
Table 4.6 and T_HOLD stop (R109). -/
def Dev.enterRun (d : Dev) (n : Nat) (lat : Option (BitVec 24 × BitVec 24)) : Dev :=
  let d1 := (d.wrc F.CS_STS_BACKOFF n 0).writeLat n lat
  let d2 := d1.each (d1.courseLanes n) (fun l d =>
    if (d.ks l = 1 ∨ d.ks l = 2 ∨ d.ks l = 3) ∧ ((d.policyTps n).contains (laneTp l) ∨ d.on F.LN_STS_SIGDET l) then
      let d := d.setTxIdle (laneOpp l) false
      (d.setKs l (if (d.lane l).standIn then 3 else 2)).wrc F.LN_STS_LOCK l 1
    else d)
  let d3 := (d2.setSegs n 4).modSegs n (fun x =>
    { x with tneg := false, silence := false, ttrain := false, tdata := false, hfnHold := false })
  let d4 := d3.modCourse n (fun c => { c with tHold := false, holdLost := false })
  d4.setCourse n 4

/-! ## Segment events -/

/-- Table 4.5, rows 2 to 4, and row 12 of Table 3.7: a segment times out or loses its partner; its transmitters go to electrical
idle, in Negotiate until a page is forwarded (R95). -/
def Dev.segLost (d : Dev) (n : Nat) (s : Side) (partner : Bool) : Dev :=
  let k := segIx n s
  let d1 := if partner ∨ d.proto n ≠ .eth then d else d.wrc F.CS_ETH_TR_TMO k 1
  let d2 :=
    if d.proto n = .eth ∧ d.on F.CS_CTL_AN n then
      ((d1.segNegotiate n s).sideTxIdle n s true).wrc F.CS_ETH_TR_RR_SENT k 0
    else
      let d2 := (d1.setSeg n s 0).modSeg k (fun _ => {})
      d2.sideTxIdle n s true
  d2.modCourse n (fun c => { c with tHold := true, holdLost := c.holdLost || partner })

/-- Markers that a Decoded receive direction must lock to before it is Ready: none on a single lane without
FEC, which has no alignment markers. -/
def Dev.needsMarkers (d : Dev) (n : Nat) : Bool :=
  d.decodedMode n && ! (decide ((d.courseTps n).length = 1) && decide (d.rd F.CS_RATE_FEC n = 0))

/-- The Ready condition of R107 for an Ethernet segment, and of R128 for PCI Express. -/
def Dev.segReadyCond (d : Dev) (n : Nat) (s : Side) : Bool :=
  let x := d.seg (segIx n s)
  match d.proto n with
  | .eth =>
    if ! d.trains n then
      (d.courseSideLanes n s).all (fun l => d.on F.LN_STS_LOCK l) && (! d.needsMarkers n || x.amLock)
    else d.on F.CS_ETH_TR_RR_SENT (segIx n s) && x.ended && (! d.needsMarkers n || x.amLock)
  | .pcie => x.sdsSeen
  | _ => false

/-- A segment in Train whose Ready condition holds becomes Ready; T_DATA and TTRAIN keep to Table 4.6. -/
def Dev.segReady (d : Dev) (n : Nat) (s : Side) : Dev :=
  if d.segState n s = 2 ∧ d.segReadyCond n s then
    (d.setSeg n s 3).modSeg (segIx n s) (fun x => { x with ttrain := false, tdata := false, frames := false, askPrecode := false })
  else d

def Dev.segsReady (d : Dev) (n : Nat) : Dev := (d.segReady n .a).segReady n .b

/-- Receivers of a segment trained and its partner ready on every lane (R106). -/
def Dev.segTrained (d : Dev) (n : Nat) (s : Side) : Bool :=
  let k := segIx n s
  let full := 2 ^ (d.courseTps n).length - 1
  decide (d.rd F.CS_ETH_TR_LRDY k = full ∧ d.rd F.CS_ETH_TR_PRDY k = full)

/-- R106: with both segments trained, receiver ready is set on both together, and T_DATA starts. -/
def Dev.receiverReady (d : Dev) (n : Nat) : Dev :=
  if d.segState n .a = 2 ∧ d.segState n .b = 2 ∧ d.segTrained n .a ∧ d.segTrained n .b
      ∧ ! d.on F.CS_ETH_TR_RR_SENT (2 * n) then
    ((d.wr F.CS_ETH_TR_RR_SENT (2 * n) 1).wr F.CS_ETH_TR_RR_SENT (2 * n + 1) 1).modSegs n
      (fun x => { x with tdata := true })
  else d

/-! ## Table 3.7 -/

/-- The events that an evaluation of Table 3.7 starts with; levels are read from the state. -/
structure CourseEv where
  /-- a committed change of row 2 -/
  changed : Bool := false
  /-- a Clause 73 page begins on a segment (row 7) -/
  page : Bool := false
  /-- a partner starts negotiation (true) or training (false) (row 16) -/
  restart : Option Bool := none
  /-- a committed change of RATE (row 16) -/
  newRate : Bool := false
  /-- row 9 has applied in this evaluation -/
  refused : Bool := false
  holdExpired : Bool := false
  allsqExpired : Bool := false
  /-- a PCI Express partner is lost (R127) -/
  pciLost : Bool := false
  lat : Option (BitVec 24 × BitVec 24) := none
  deriving DecidableEq, Repr

/-- Skew within R57: at most 180 ns in each direction of a Decoded course of several lanes. -/
def Dev.skewOk (d : Dev) (n : Nat) (s : Side) : Bool :=
  ! d.decodedMode n || decide ((d.courseTps n).length ≤ 1) || decide ((d.seg (segIx n s)).skewNs ≤ 180)

/-- FCODE 0x08 on the lane whose markers arrive last in a direction beyond the limit (R57). -/
def Dev.skewFault (d : Dev) (n : Nat) (s : Side) : Dev :=
  if d.skewOk n s then d else d.laneFault (d.seg (segIx n s)).skewLast 8

/-- The first failing condition of row 10's guard, in the order of R98; none where the guard holds. For CPRI
the rate is the common one (R115). -/
def Dev.row10Fails (d : Dev) (n rate hcd : Nat) : Option Nat :=
  let tech :=
    if d.proto n = .eth then
      match phyRow hcd with
      | none => true
      | some r => decide (r.lanes ≠ (d.courseTps n).length) || decide (r.rate = 0) || (d.decodedMode n && ! r.decoded)
        || (d.decodedMode n && decide (d.rd F.CS_ETH_RES_FEC n = 3))
    else false
  if tech then some 0x09
  else if ! decide (d.rd F.CS_RATE_RMIN n ≤ rate ∧ rate ≤ d.rd F.CS_RATE_RMAX n)
      || (decide (rate = 0x15) && (d.courseTps n).any (fun tp => decide (16 ≤ tp))) then some 0x0A
  else if ! d.rateHasPll n rate then some 0x04
  else if ! d.refAccepted n rate then some 0x03
  else none

/-- Record NO_PLL on the lanes of a course (R38). -/
def Dev.noPll (d : Dev) (n : Nat) : Dev := d.each (d.courseTps n) (fun tp d => d.laneFault tp 4)

/-- The rate that a course's resolution has settled on. -/
def Dev.resolvedRate (d : Dev) (n : Nat) : Nat :=
  if d.proto n = .eth then (phyRow (d.rd F.CS_ETH_RES_HCD n)).elim 0 PhyRow.rate
  else if d.on F.CS_CPRI_CFG_FOLLOW n then d.rd F.CS_CPRI_STS_RXRATE_A n
  else d.rd F.CS_RATE_RATE n

/-- Rows 10 and 11, at the moment both segments' resolutions are complete. -/
def Dev.resolve (d : Dev) (n : Nat) : Dev :=
  let hcd := d.rd F.CS_ETH_RES_HCD n
  let rate := d.resolvedRate n
  match d.row10Fails n rate hcd with
  | none =>
    let d1 :=
      if d.proto n = .eth then
        let fec := d.rd F.CS_ETH_RES_FEC n
        ((d.wrc F.CS_ETH_CFG_PHY n hcd).wrc F.CS_RATE_RATE n rate).wrc F.CS_RATE_FEC n (if fec = 3 then 0 else fec)
      else if d.rd F.CS_RATE_RATE n = rate then d
      else (d.wr F.CS_RATE_RATE n rate).bump F.CS_CPRI_CNT_RATE_COUNT n
    d1.enterTrain n
  | some code =>
    let d1 := d.courseFault n code
    let d2 := if code = 4 then d1.noPll n else if code = 3 then d1.refuseRef n rate else d1
    (d2.backoffStep n).enterDetect n

/-- Row 8's condition: signal on every lane of both sides, or receivers detected on both pseudo-ports. -/
def Dev.row8Ready (d : Dev) (n : Nat) : Bool :=
  match d.proto n with
  | .eth => ! d.on F.CS_CTL_AN n && ! (d.courseTps n).isEmpty && (d.courseLanes n).all (fun l => d.on F.LN_STS_SIGDET l)
  | .pcie => (d.seg (2 * n)).rxDet && (d.seg (2 * n + 1)).rxDet
  | _ => false

def Dev.row7Ready (d : Dev) (n : Nat) (e : CourseEv) : Bool :=
  match d.proto n with
  | .eth => d.on F.CS_CTL_AN n && e.page
  | .cpri => ! (d.courseTps n).isEmpty && (d.courseLanes n).all (fun l => d.on F.LN_STS_SIGDET l)
  | _ => false

/-- A row that takes the course's lanes to a rate, once the shells of its bays allow it (R335). -/
def Dev.whenShell (d : Dev) (n rate : Nat) (r : Option (Dev × CourseEv)) : Option (Dev × CourseEv) :=
  if d.shellWaits n rate then
    let d1 := d.shellRaise n
    if d1.pw.vtarget = d.pw.vtarget then none else some (d1, {})
  else r

/-- The rate that row 7 takes a CPRI course's lanes to at once, and row 10 any course's; 0 where it takes none. -/
def Dev.row7Rate (d : Dev) (n : Nat) : Nat :=
  if d.proto n = .cpri ∧ ! d.on F.CS_CPRI_CFG_FOLLOW n then d.rd F.CS_RATE_RATE n else 0
def Dev.row10Rate (d : Dev) (n : Nat) : Nat :=
  if (d.row10Fails n (d.resolvedRate n) (d.rd F.CS_ETH_RES_HCD n)).isNone then d.resolvedRate n else 0

/-- The topmost row of Table 3.7 that applies, with what it does and the events that remain; none where no
row applies. -/
def Dev.courseRow (d : Dev) (n : Nat) (e : CourseEv) : Option (Dev × CourseEv) :=
  let ks := d.rd F.CS_STS_KSTATE n
  let enabled := d.on F.CS_CTL_ENABLE n && decide (d.rd F.CS_CTL_MODE n ≠ 0) && ! d.held n
  let pol := d.coursePolicy n
  let served := decide (ks = 4 ∨ ks = 5 ∨ ks = 6)
  let training := decide (ks = 2 ∨ ks = 3)
  if ks ≠ 0 ∧ ! enabled then some (d.enterDisabled n, {})                                          -- row 1
  else if ks ≠ 0 ∧ e.changed then                                                                   -- row 2
    let d1 := d.enterDisabled n
    if d1.profileValid n then some (d1.spanDetect n, { e with changed := false })
    else some (d1.courseFault n 7, {})
  else if ks ≠ 0 ∧ ks ≠ 7 ∧ pol = 4 then                                                            -- row 3
    some ((d.courseFault n 1).setCourse n 7, e)
  else if ks = 7 ∧ (d.policyTps n).all (fun tp => decide (d.laneHealth tp ≠ 4)) then                -- row 4
    some (d.enterDetect n, {})
  else if ks = 0 ∧ enabled then                                                                     -- rows 5, 6
    if d.profileValid n then some (d.spanDetect n, {})
    else if d.rd F.CS_STS_FCODE n = 7 ∧ ! e.changed then none
    else some (d.courseFault n 7, { e with changed := false })
  else if ks = 1 ∧ ! (d.course n).backoff ∧ d.row7Ready n e then                                    -- row 7
    d.whenShell n (d.row7Rate n) (some (d.enterNegotiate n, { e with page := false }))
  else if ks = 1 ∧ ! (d.course n).backoff ∧ d.row8Ready n ∧ d.refAccepted n (d.rd F.CS_RATE_RATE n) then  -- row 8
    d.whenShell n (d.rd F.CS_RATE_RATE n) (some (d.enterTrain n, e))
  else if ks = 1 ∧ ! (d.course n).backoff ∧ d.row8Ready n ∧ ! e.refused then                       -- row 9
    some (((d.courseFault n 3).refuseRef n (d.rd F.CS_RATE_RATE n)).backoffStep n, { e with refused := true })
  else if ks = 2 ∧ (d.seg (2 * n)).done ∧ (d.seg (2 * n + 1)).done then                             -- rows 10, 11
    d.whenShell n (d.row10Rate n) (some (d.resolve n, e))
  else if training ∧ e.pciLost then                                                                 -- rows 12, 13
    some (((d.courseFault n 6).courseTxIdle n true).enterDetect n, { e with pciLost := false })
  else if training ∧ (e.holdExpired ∨ (d.segState n .a = 0 ∧ d.segState n .b = 0)) then             -- row 13
    let d1 := d.courseFault n (if (d.course n).holdLost then 6 else 5)
    some ((d1.backoffStep n).enterDetect n, { e with holdExpired := false })
  else if ks = 3 ∧ d.segState n .a = 3 ∧ d.segState n .b = 3 then
    if d.skewOk n .a ∧ d.skewOk n .b then some (d.enterRun n e.lat, e)                              -- row 14
    else                                                                                            -- row 15
      let d1 := ((d.skewFault n .a).skewFault n .b).courseFault n 2
      some ((d1.backoffStep n).enterDetect n, e)
  else if served ∧ e.pciLost then                                                                   -- R127
    let d1 := d.bump F.CS_CNT_TRAIN_COUNT n
    some (((d1.courseFault n 6).courseTxIdle n true).enterDetect n, { e with pciLost := false, restart := none })
  else if served ∧ (e.restart.isSome ∨ e.newRate) then                                              -- row 16
    let d1 := (d.leaveService n).bump F.CS_CNT_TRAIN_COUNT n
    let rate := d1.rd F.CS_RATE_RATE n
    let d2 :=
      if e.restart = some true ∧ ! e.newRate then d1.enterNegotiate n
      else if d1.refAccepted n rate then d1.enterTrain n
      else (((d1.courseFault n 3).refuseRef n rate).backoffStep n).enterDetect n                    -- R42
    some (d2, { e with restart := none, newRate := false, refused := true })
  else if ks = 5 ∧ e.allsqExpired then                                                              -- row 17
    some (((d.courseFault n 8).courseTxIdle n true).enterDetect n, { e with allsqExpired := false })
  else if served ∧ pol = 3 then some ((d.courseFault n 0x0B).enterDetect n, e)                      -- row 18
  else if ks = 4 ∧ pol = 1 then some ((d.setCourse n 5).bump F.CS_CNT_DEG_COUNT n, e)               -- row 19
  else if (ks = 4 ∨ ks = 5) ∧ pol = 2 then some (d.setCourse n 6, e)                                -- row 20
  else if (ks = 5 ∨ ks = 6) ∧ pol = 0 then some ((d.writeLat n e.lat).setCourse n 4, e)             -- row 21
  else if ks = 6 ∧ pol = 1 then some ((d.setCourse n 5).bump F.CS_CNT_DEG_COUNT n, e)               -- row 22
  else none

/-- The policy rows 3, 4 and 17 to 22 wait for the publication of a member change (R25), and the remaining
rows are evaluated until none applies (R83). -/
def Dev.courseRun (d : Dev) (fuel n : Nat) (e : CourseEv) : Dev :=
  match fuel with
  | 0 => d
  | fuel + 1 =>
    match d.courseRow n e with
    | none => d
    | some (d', e') => d'.courseRun fuel n e'

/-! ## Aggregate courses (R74) -/

/-- The KSTATE of an Aggregate course (Table 3.3); Disabled too where a committed transaction left it so (R70), and, a DESIGN CHOICE
(log entry 81), where its result is Down with no active member or no member at all. -/
def Dev.aggregateKs (d : Dev) (n : Nat) : Nat :=
  if ! d.on F.CS_CTL_ENABLE n ∨ (d.course n).barred then 0
  else
    let u := courseUnit n
    let kids := (d.members u).filter (fun m => decide (0x200 ≤ m ∧ m < 0x400))
    match d.coursePolicy n with
    | 0 => 4
    | 1 => 5
    | 2 => 6
    | 4 => 7
    | _ =>
      if d.rd F.UD_IDENT_POLICY u = 3 then
        let a := d.rd F.CS_SEL_ACTIVE n
        if a = 0 then 0 else d.rd F.CS_STS_KSTATE (a - 0x200)
      else
        let down := (kids.map (fun m => d.rd F.CS_STS_KSTATE (m - 0x200))).filter (fun k => decide (courseHealthOf k = 3))
        down.foldl max 0

/-- R24 for a group with these members: the member to make active, if any. -/
def autoSwitch (health : Nat → Nat) (members : List Nat) (active : Nat) : Option Nat :=
  let best (l : List Nat) : Option Nat :=
    l.foldl (fun b m =>
      match b with
      | none => some m
      | some x => if health m < health x ∨ (health m = health x ∧ m < x) then some m else some x) none
  if active = 0 then
    (best members).bind (fun m => if health m < 3 then some m else none)
  else if health active = 3 ∨ health active = 4 then
    (best (members.filter (· ≠ active))).bind (fun m => if health m < health active then some m else none)
  else none

/-- A Select Aggregate with AUTO set switches its active member (R24, R93). -/
def Dev.aggregateSwitch (d : Dev) (n : Nat) : Dev :=
  let u := courseUnit n
  if d.rd F.UD_IDENT_POLICY u = 3 ∧ d.on F.UD_IDENT_AUTO u then
    match autoSwitch d.unitHealth (d.members u) (d.rd F.CS_SEL_ACTIVE n) with
    | some m => (d.wr F.CS_SEL_ACTIVE n m).wr F.UD_STATE_ACTIVE u m
    | none => d
  else d

def Dev.aggregateEval (d : Dev) (n : Nat) : Dev :=
  let d1 := d.aggregateSwitch n
  d1.setCourse n (d1.aggregateKs n)

/-! ## Evaluation -/

/-- Rows applied in one evaluation, at most. -/
def courseFuel : Nat := 12

/-- The courses beneath a Span course evaluate Table 3.7, as its hold on them begins or ends (R72). -/
def Dev.belowEval (d : Dev) (n : Nat) : Dev :=
  d.each (d.coursesBelow n) (fun m d => if d.rd F.CS_CTL_ROLE m = 1 then d else d.courseRun courseFuel m {})

/-- Evaluate Table 3.7 for a course on an event, then for the courses beneath a Span course whose hold has
changed (R72). An Aggregate has no state machine. A calibration that the change disturbs ends (R295). -/
def Dev.courseEval (d : Dev) (n : Nat) (e : CourseEv := {}) : Dev :=
  if d.rd F.CS_CTL_ROLE n = 1 then d.aggregateEval n
  else
    let was := d.rd F.CS_STS_KSTATE n
    let d1 := d.courseRun courseFuel n e
    let now := d1.rd F.CS_STS_KSTATE n
    (if d.rd F.CS_CTL_ROLE n = 2 ∧ (was = 0) ≠ (now = 0) then d1.belowEval n else d1).calCheck

/-- Evaluate the course that a lane serves. -/
def Dev.evalLaneCourse (d : Dev) (l : Nat) (e : CourseEv := {}) : Dev :=
  match d.laneCourse (laneTp l) with
  | none => d
  | some n => d.courseEval n e

end Sys2Proof.Machine
end

