-- ==== Sys2Proof/Machine/GateCore.lean ====
section
/-! DEFINITION. Transaction slots: their ends, due commits and the relock of the Gate (R261 to R266 of
spec/10_purlin_transactions.md, R381 of spec/17_management_registers.md). -/
namespace Sys2Proof.Machine

def Dev.gateSlot (d : Dev) (k : Nat) : GateX := d.gate.at k {}
def Dev.modGate (d : Dev) (k : Nat) (g : GateX → GateX) : Dev := { d with gate := d.gate.put k (g (d.gateSlot k)) }

/-- A slot ends with an outcome of Table 10.6: its staged writes and watches go, the Gate's counters, the transaction abort
source and alert GATE follow. -/
def Dev.gateEnd (d : Dev) (k outcome : Nat) : Dev :=
  let d1 := (d.wr F.TG_SLOT_STS_STATE k 3).wr F.TG_SLOT_STS_OUTCOME k outcome
  let d2 := { d1.modGate k (fun g => { g with staged := [] }) with watched := d1.watched.filter (fun w => decide (w.slot ≠ k)) }
  if outcome = 1 then d2.bump F.TG_CNT_COMMIT_COUNT
  else
    let d3 := (d2.bump F.TG_CNT_ABORT_COUNT).fire 7
    if 9 ≤ k then d3.alert 11 else d3

/-- The commit that a slot has requested is due: at once in Immediate mode, else when the named course has met a boundary or
marker since (R263, Table 3.10). -/
def Dev.commitDue (d : Dev) (k : Nat) : Bool :=
  let n := d.rd F.TG_SLOT_STS_COURSE k
  let m := (d.gateSlot k).mark
  decide (d.rd F.TG_SLOT_STS_STATE k = 2) &&
    match d.rd F.TG_SLOT_STS_MODE k with
    | 1 => d.boundaryNow courseCount n || decide (m < d.bnd.at n 0)
    | 2 =>
      if d.decodedMode n then decide (d.proto n = .eth) || decide (m < d.marks.at n 0)
      else d.boundaryNow courseCount n || decide (m < d.bnd.at n 0)
    | _ => true

/-- Slots of a range that are open, or whose commit is requested and not yet due, end Revoked. -/
def Dev.revoke (d : Dev) (ks : List Nat) : Dev :=
  d.each ks (fun k d =>
    let st := d.rd F.TG_SLOT_STS_STATE k
    if st = 1 ∨ (st = 2 ∧ ! d.commitDue k) then d.gateEnd k 5 else d)

/-- The Gate relocks (R381). -/
def Dev.gateRelock (d : Dev) : Dev :=
  if d.ulState ≠ 2 then d
  else (((d.wr0 F.TG_UL_STS_STATE 0).wr0 F.TG_UL_LEFT_LEFT 0).revoke [9, 10, 11, 12, 13, 14, 15]).alert 11

end Sys2Proof.Machine
end

