-- ==== Sys2Proof/Machine/Mem.lean ====
section
/-! DEFINITION. Tier M's bytes: a list of address and byte in one canonical form (R222, R223, R226 of
spec/09_memory_tier.md). -/
namespace Sys2Proof.Machine

/-- The bytes of Tier M that do not hold what an unlisted address reads as, addresses rising. -/
abbrev Memory := List Host.Cell

/-- What an unlisted byte of Tier M reads as.  DESIGN CHOICE, unsafe: the specification gives the contents of
Tier M after power-on no value. -/
def Memory.blank : Byte := 0

/-- The canonical form: addresses strictly rising, no listed byte equal to what an unlisted address reads as. -/
def Memory.wfFrom (lo : Nat) : Memory → Bool
  | [] => true
  | (a, v) :: t => decide (lo ≤ a) && decide (v ≠ Memory.blank) && Memory.wfFrom (a + 1) t

def Memory.wf (m : Memory) : Bool := Memory.wfFrom 0 m

/-- Read one byte. -/
def Memory.get (m : Memory) (a : Nat) : Byte :=
  match m with
  | [] => Memory.blank
  | (a', v) :: t => if a = a' then v else Memory.get t a

/-- Write one byte. -/
def Memory.put (m : Memory) (a : Nat) (v : Byte) : Memory :=
  match m with
  | [] => if v = Memory.blank then [] else [(a, v)]
  | (a', v') :: t =>
    if a < a' then (if v = Memory.blank then (a', v') :: t else (a, v) :: (a', v') :: t)
    else if a = a' then (if v = Memory.blank then t else (a, v) :: t)
    else (a', v') :: Memory.put t a v

/-- Read `n` bytes upward from an address. -/
def Memory.read (m : Memory) (a n : Nat) : List Byte := (List.range n).map (fun k => m.get (a + k))

/-- Write bytes upward from an address. -/
def Memory.write (m : Memory) (a : Nat) (bs : List Byte) : Memory :=
  match bs with
  | [] => m
  | b :: t => Memory.write (m.put a b) (a + 1) t

/-- Drop the bytes of an address range: they read as unlisted. -/
def Memory.clear (m : Memory) (lo hi : Nat) : Memory := m.filter (fun c => ! decide (lo ≤ c.1 ∧ c.1 < hi))

/-- What an enabled byte becomes in a view (Table 9.1): 0 normal, 1 set, 2 clear. -/
def viewByte (view : Nat) (old data : Byte) : Byte :=
  match view with
  | 1 => old ||| data
  | 2 => old &&& ~~~ data
  | _ => data

/-- Byte `k` of a number, least significant first. -/
def byteOf (v k : Nat) : Byte := BitVec.ofNat 8 (v / 2 ^ (8 * k))

/-- The little-endian bytes of a number (R8). -/
def bytesLE (v n : Nat) : List Byte := (List.range n).map (byteOf v)

/-- The number that little-endian bytes stand for. -/
def natLE : List Byte → Nat
  | [] => 0
  | b :: t => b.toNat + 256 * natLE t

/-- The number that big-endian bytes stand for (network order). -/
def natBE (l : List Byte) : Nat := natLE l.reverse

def bytesBE (v n : Nat) : List Byte := (bytesLE v n).reverse

/-- Write the enabled bytes of one word in a view. -/
def Memory.writeWord (m : Memory) (a view mask data : Nat) : Memory :=
  (List.range 32).foldl
    (fun m k => if bit mask k then m.put (a + k) (viewByte view (m.get (a + k)) (byteOf data k)) else m) m

/-- The first byte of the word that an address lies in. -/
def wordAddr (a : Nat) : Nat := a / 32 * 32

/-- The bank that a word address decodes to (R223). -/
def bankOf (a : Nat) : Nat := a / 32 % 512

/-- The address of a bank's row. -/
def bankRow (bank row : Nat) : Nat := row * 16384 + bank * 32

/-- The address range of the secure region (R238). -/
def inSecure (a : Nat) : Bool := decide (0x7C00000 ≤ a ∧ a < 0x8000000)

/-! ## CRC-32 in its reflected form -/

/-- One octet through a reflected CRC of 32 bits. -/
def crcStep (poly : Nat) (crc : Nat) (b : Byte) : Nat :=
  (List.range 8).foldl (fun c _ => if c % 2 = 1 then Nat.xor (c / 2) poly else c / 2) (Nat.xor crc b.toNat)

def crc32With (poly : Nat) (l : List Byte) : Nat := Nat.xor (l.foldl (crcStep poly) 0xFFFFFFFF) 0xFFFFFFFF

/-- CRC-32C, the polynomial and bit order of RFC 3720 (R240). -/
def crc32c (l : List Byte) : Nat := crc32With 0x82F63B78 l

/-- The frame check sequence of IEEE 802.3. -/
def crc32eth (l : List Byte) : Nat := crc32With 0xEDB88320 l

end Sys2Proof.Machine
end

