-- ==== Sys2Proof/Machine/Sha.lean ====
section
/-! DEFINITION. SHA-256 and HMAC-SHA-256, the seal tag of R279 of spec/11_dormer.md and the answer tag of R379 of
spec/17_management_registers.md (FIPS 180-4, RFC 2104). -/
namespace Sys2Proof.Machine

/-- The greatest number whose `k`-th power is at most `n`, its bits below `b` still to find. -/
def rootBelow (k n : Nat) (b r : Nat) : Nat :=
  match b with
  | 0 => r
  | b + 1 => rootBelow k n b (if (r + 2 ^ b) ^ k ≤ n then r + 2 ^ b else r)

/-- FIPS 180-4 takes its constants from roots of primes: the first 32 bits of the fractional part of the `k`-th root. -/
def rootFraction (k p : Nat) : BitVec 32 := BitVec.ofNat 32 (rootBelow k (p * 2 ^ (32 * k)) 40 0)

/-- The first 64 primes, the last of them 311: no smaller factor from 2 to 17. -/
def shaPrimes : List Nat :=
  ((List.range 310).map (· + 2)).filter (fun p => (List.range 16).all (fun q => decide (p ≤ q + 2) || decide (p % (q + 2) ≠ 0)))

/-- The round constants, from the cube roots of the first 64 primes. -/
def shaK : List (BitVec 32) := shaPrimes.map (rootFraction 3)

/-- The initial hash value, from the square roots of the first 8 primes. -/
def shaInit : List (BitVec 32) := (shaPrimes.take 8).map (rootFraction 2)

/-- The exclusive or of a word's right rotations. -/
def turns (x : BitVec 32) (by_ : List Nat) : BitVec 32 := by_.foldl (fun y n => y ^^^ x.rotateRight n) 0

/-- The next schedule word from the last sixteen, newest first. -/
def shaNext (w : List (BitVec 32)) : BitVec 32 :=
  let a := w.getD 14 0
  let b := w.getD 1 0
  let s0 := turns a [7, 18] ^^^ (a >>> 3)
  let s1 := turns b [17, 19] ^^^ (b >>> 10)
  s1 + w.getD 6 0 + s0 + w.getD 15 0

/-- The schedule, newest word first. -/
def shaSchedule (n : Nat) (w : List (BitVec 32)) : List (BitVec 32) :=
  match n with
  | 0 => w
  | n + 1 => shaSchedule n (shaNext w :: w)

/-- The eight working variables. -/
structure ShaVars where
  a : BitVec 32
  b : BitVec 32
  c : BitVec 32
  d : BitVec 32
  e : BitVec 32
  f : BitVec 32
  g : BitVec 32
  h : BitVec 32
  deriving DecidableEq, Repr

/-- One round. -/
def ShaVars.round (v : ShaVars) (k w : BitVec 32) : ShaVars :=
  let s1 := turns v.e [6, 11, 25]
  let ch := (v.e &&& v.f) ^^^ (~~~ v.e &&& v.g)
  let t1 := v.h + s1 + ch + k + w
  let s0 := turns v.a [2, 13, 22]
  let maj := (v.a &&& v.b) ^^^ (v.a &&& v.c) ^^^ (v.b &&& v.c)
  ⟨t1 + (s0 + maj), v.a, v.b, v.c, v.d + t1, v.e, v.f, v.g⟩

def ShaVars.list (v : ShaVars) : List (BitVec 32) := [v.a, v.b, v.c, v.d, v.e, v.f, v.g, v.h]

def ShaVars.ofList (l : List (BitVec 32)) : ShaVars :=
  ⟨l.getD 0 0, l.getD 1 0, l.getD 2 0, l.getD 3 0, l.getD 4 0, l.getD 5 0, l.getD 6 0, l.getD 7 0⟩

/-- One block of 64 octets. -/
def shaBlock (h : List (BitVec 32)) (block : List Byte) : List (BitVec 32) :=
  let ws := (List.range 16).map (fun k => BitVec.ofNat 32 (natBE ((block.drop (4 * k)).take 4)))
  let w := (shaSchedule 48 ws.reverse).reverse
  let v := (List.zip shaK w).foldl (fun v kw => v.round kw.1 kw.2) (ShaVars.ofList h)
  List.zipWith (· + ·) h v.list

/-- The message with its padding and length. -/
def shaPad (m : List Byte) : List Byte :=
  let n := m.length
  m ++ [0x80] ++ List.replicate ((119 - n % 64) % 64) 0 ++ bytesBE (8 * n) 8

/-- The hash of a message, 32 octets. -/
def sha256 (m : List Byte) : List Byte :=
  let p := shaPad m
  let h := (List.range (p.length / 64)).foldl (fun h k => shaBlock h ((p.drop (64 * k)).take 64)) shaInit
  (h.map (fun w => bytesBE w.toNat 4)).flatten

/-- HMAC-SHA-256 under a key of at most 64 octets. -/
def hmacSha256 (key m : List Byte) : List Byte :=
  let k := key ++ List.replicate (64 - key.length) 0
  sha256 (k.map (fun b => b ^^^ 0x5C) ++ sha256 (k.map (fun b => b ^^^ 0x36) ++ m))

end Sys2Proof.Machine
end

