-- ==== Sys2Proof/Machine/Records.lean ====
section
/-! DEFINITION. The Dormer's seal records, intervals and ring, and its votes at a device Rest or Off and at the next
wake (R273 to R279, R284 of spec/11_dormer.md). -/
namespace Sys2Proof.Machine

def Dev.modDm (d : Dev) (g : DmX → DmX) : Dev := { d with dm := g d.dm }

/-- Listed meters, ascending. -/
def Dev.meterList (d : Dev) : List Nat := (List.range 256).filter (fun m => bit (d.rd F.DM_MLIST_LIST (m / 32)) (m % 32))

/-- Every listed meter takes a KSTATE of Table 11.1, every other one Not counting; a Fault records its code. -/
def Dev.setMeters (d : Dev) (ks code : Nat) : Dev :=
  let l := d.meterList
  let d1 := d.each (List.range 256) (fun m d => if l.contains m then d else d.publish (0xF00 + m) 0 3)
  d1.each l (fun m d =>
    let d1 := d.publish (0xF00 + m) ks (if ks = 1 then 0 else if ks = 2 then 4 else 3)
    if code = 0 then d1 else d1.unitFault (0xF00 + m) code)

/-- Records of one interval (R277). -/
def partsOf (nmeter : Nat) : Nat := max 1 ((nmeter + 11) / 12)

/-! ## Seal records (Tables 11.2 to 11.4) -/

/-- The header of a record, bytes 0 to 47, with its interval's start, end and length on FREE. -/
def Dev.recHeader (d : Dev) (kind part nparts seq startT endT dur flags : Nat) : List Byte :=
  let tam := (List.range 4).map (fun k => BitVec.ofNat 8 (min 255 (d.fuse.tamper.at k 0 + d.dm.latch.at k 0)))
  [BitVec.ofNat 8 kind, BitVec.ofNat 8 part, BitVec.ofNat 8 nparts, BitVec.ofNat 8 d.fuse.life] ++ bytesLE seq 4
    ++ bytesLE d.dm.ringId 8 ++ bytesLE (timeSec startT) 6 ++ bytesLE (timeNs startT) 4 ++ bytesLE (timeSec endT) 6
    ++ bytesLE (timeNs endT) 4 ++ bytesLE dur 4 ++ bytesLE d.fuse.sealCount 2
    ++ [BitVec.ofNat 8 d.fuse.keySlot, BitVec.ofNat 8 flags] ++ tam

/-- Append the MAC to a record's bytes 0 to 495 (R279). -/
def Dev.sealRecord (d : Dev) (body : List Byte) : List Byte :=
  let b := body ++ List.replicate (496 - body.length) 0
  b ++ (hmacSha256 (d.fuse.kSeal.at d.fuse.keySlot []) b).take 16

/-- 1/65,536 ps to the nearest ps, as 4 saturating bytes. -/
def tePs (v : Int) : List Byte := bytesLE (unsigned 32 (clampInt (-2147483648) 2147483647 ((v + 32768) / 65536))) 4

/-- The time-quality block. -/
def Dev.qualityBlock (d : Dev) : List Byte :=
  let m := d.dm
  let dur := d.freeU - m.startFree
  let last := d.freeU - max m.msgFree m.startFree
  let inState := m.inState.put m.msgState (m.inState.at m.msgState 0 + last)
  let te :=
    match m.teMin, m.teMax with
    | some a, some b => tePs a ++ tePs b ++ tePs (Q.of m.teSum m.nPulse).round
    | _, _ => ((List.range 3).map (fun k => bytesLE (Config.noEdge d.draws k).toNat 4)).flatten
  let miss := dur / (1024 * 1000000000) - m.nPulse
  te ++ bytesLE (min 65535 m.nPulse) 2 ++ bytesLE (min 65535 miss) 2
    ++ ((List.range 6).map (fun st => bytesLE (inState.at st 0 / (1024 * 1000000000)) 4)).flatten
    ++ [BitVec.ofNat 8 m.msgState, BitVec.ofNat 8 m.worst] ++ bytesLE (min 65535 m.nTrans) 2 ++ bytesLE m.msgHold 4
    ++ [BitVec.ofNat 8 m.msgClass] ++ List.replicate 15 0

/-- A meter's entry. -/
def Dev.meterEntry (d : Dev) (m : Nat) : List Byte :=
  let x := d.dm.meters.at m {}
  [BitVec.ofNat 8 m, BitVec.ofNat 8 (1 + 2 * b2n x.sat), 0, 0] ++ bytesLE x.bytesAb 8 ++ bytesLE x.bytesBa 8
    ++ bytesLE x.framesAb 6 ++ bytesLE x.framesBa 6

/-! ## Intervals and the ring (R276 to R278) -/

/-- A new interval starts at this tick. -/
def Dev.intervalStart (d : Dev) : Dev :=
  d.modDm (fun m =>
    { m with running := true, startT := d.time, startFree := d.freeU, stepped := false, gap := false, meters := []
             teMin := none, teMax := none, teSum := 0, nPulse := 0, inState := [], worst := m.msgState, nTrans := 0 })

/-- FREE has advanced past the limit of an interval. -/
def Dev.intervalLong (d : Dev) : Bool :=
  decide ((d.rd F.DM_CFG_INTERVAL * 60 + 1) * 1000000000 * 1024 ≤ d.freeU - d.dm.startFree)

/-- The running interval ends: its records are composed. -/
def Dev.intervalEnd (d : Dev) (short : Bool) : Dev :=
  if ! d.dm.running then d
  else
    let ms := d.meterList
    let n := partsOf ms.length
    let dur := (d.freeU - d.dm.startFree) / 1024 / 1000
    let flags := b2n short + 2 * b2n d.dm.stepped + 4 * b2n d.dm.gap
    let tq := d.qualityBlock
    let rec_ (p : Nat) : List Byte :=
      d.sealRecord (d.recHeader 2 p n (d.dm.seq + p) d.dm.startT d.time dur flags ++ tq
        ++ (((ms.drop (12 * p)).take 12).map d.meterEntry).flatten)
    let recs := if d.dm.ring ∧ ! d.dm.halted then (List.range n).map rec_ else []
    d.draw.modDm (fun m => { m with running := false, recs := m.recs ++ recs, seq := m.seq + recs.length })

/-- A ring opens (R278): SEQ 0, a fresh RING_ID, an Open record, the first interval, and the meters count. -/
def Dev.ringOpen (d : Dev) : Dev :=
  let lo := (Config.random d.draws 0).toNat
  let hi := (Config.random d.draws 1).toNat
  let d1 := (d.draw.wr0 F.DM_RING_ID_LO_ID_LO lo).wr0 F.DM_RING_ID_HI_ID_HI hi
  let d2 := (d1.wr0 F.DM_SEQ_OLD_OLD 0).wr0 F.DM_SEQ_NEW_NEW 0
  let d3 := d2.modDm (fun m => { m with ring := true, ringId := lo + hi * 2 ^ 32, seq := 1, recs := [], retry := false, shown := false, halted := false })
  let open_ := d3.sealRecord (d3.recHeader 1 0 1 0 d3.time d3.time 0 0)
  let d4 := d3.modDm (fun m => { m with recs := [open_] })
  let d5 := if d4.fuse.keyErr then d4.setMeters 2 2 else d4.setMeters 1 0
  d5.intervalStart

/-- The Dormer counts: sealed, Provisioned or Deployed (Table 11.1). -/
def Dev.dormerLive (d : Dev) : Bool := d.on F.DM_STS_SEALED && decide (d.fuse.life = 1 ∨ d.fuse.life = 2)

/-- What the Dormer forgets of its ring and interval. -/
def Dev.ringDrop (d : Dev) : Dev :=
  d.modDm (fun m => { m with running := false, recs := [], retry := false, ring := false, shown := false, meters := [] })

/-- The Dormer's votes on D and M (column 6). -/
def Dev.dormerVotes (d : Dev) (on : Bool) : Dev := (d.vote 6 rowD on).vote 6 rowM on

/-- The Dormer is unsealed: its configuration reads 0, its meters do not count, its votes are withdrawn. -/
def Dev.unseal (d : Dev) : Dev :=
  let d1 := (d.ringDrop).setMeters 0 0
  let d2 := (d1.wrc F.DM_STS_SEALED 0 0).wrc F.DM_STS_SUSP 0 0
  let d3 := ((d2.wrc F.DM_CFG_INTERVAL 0 0).wrc F.DM_CFG_TMPEN 0 0).wrc F.DM_CFG_RESTOK 0 0
  let d4 := (d3.wrc F.DM_CFG_NMETER 0 0).wrc F.DM_CFG_RINGSZ 0 0
  ((d4.each (List.range 8) (fun j d => d.wrc F.DM_MLIST_LIST j 0)).modDm (fun m => { m with resting := false })).dormerVotes false

/-! ## Rest and wake (R284) -/

/-- The votes are withdrawn once the records of a suspended Dormer are written (R284). -/
def Dev.restCheck (d : Dev) : Dev :=
  if d.dm.resting ∧ d.dm.recs = [] then
    ((d.modDm (fun m => { m with resting := false })).wr0 F.DM_STS_SUSP 1).dormerVotes false
  else d

/-- A device Rest or Off request: with RESTOK the Dormer ends its interval and withdraws its votes once the records are
written (R284). -/
def Dev.dormerRest (d : Dev) : Dev :=
  if d.on F.DM_STS_SEALED ∧ d.on F.DM_CFG_RESTOK ∧ ! d.on F.DM_STS_SUSP ∧ ! d.dm.resting then
    ((d.intervalEnd true).modDm (fun m => { m with resting := true })).restCheck
  else d

/-- The next wake: the Dormer votes again, and a new interval starts (R284). -/
def Dev.dormerWake (d : Dev) : Dev :=
  if d.on F.DM_STS_SEALED ∧ (d.on F.DM_STS_SUSP || d.dm.resting) then
    let d1 := ((d.wrc F.DM_STS_SUSP 0 0).modDm (fun m => { m with resting := false })).dormerVotes true
    if d1.dormerLive ∧ ! d1.dm.running then d1.intervalStart else d1
  else d

end Sys2Proof.Machine
end

