-- ==== Sys2Proof/Machine/PowerCore.lean ====
section
/-! DEFINITION. Domains reaching On or their idle state, device transitions and wakes (R321 to R338 of
spec/14_power.md). -/
namespace Sys2Proof.Machine

/-- A domain takes a state, and its unit reports it. -/
def Dev.setDom (d : Dev) (row st : Nat) : Dev :=
  ((d.wr F.PW_DOM_STATE row st).wr F.PW_DOM_TRANS row 0).publish (0x0C0 + row) st (domHealth st)

/-- Set an `ROWS` row set's mask over the 128 rows. -/
def Dev.rowSet (d : Dev) (f : Fld) : Nat :=
  d.rd f 0 + d.rd f 1 * 2 ^ 32 + d.rd f 2 * 2 ^ 64 + d.rd f 3 * 2 ^ 96

/-- Configuration of a region that it reloads from Tier C on its way back from Off, and what its slots there hold; no slot runs
(R215). -/
def keptOff (r : Reg) (lo : Nat) : Bool :=
  match r with
  | .FB_CFG | .FB_CTXSEL | .FB_GUTMAP | .FB_WIN_BASE | .FB_WIN_LIM => true
  | .FB_SLOT => decide (lo ≠ 9)
  | .FB_PACE => decide (lo = 16)
  | _ => false

/-- What a domain's registers and hidden state lose in Off (Table 14.2): registers return to reset, trims to
the factory constants (R286), the timebase restarts at 0 (R144), a region's storage and gutters are lost. -/
def Dev.domLose (d : Dev) (row : Nat) : Dev :=
  let d1 := { d with regs := d.regs.filter (fun p => decide (regDomain p.1.reg p.1.i ≠ row) || keptOff p.1.reg p.1.lo) }
  if 1 ≤ row ∧ row ≤ 8 then
    { d1 with
      lanes := d1.lanes.filter (fun p => decide (laneBay p.1 ≠ row - 1))
      points := d1.points.filter (fun p => decide (p.1 / 16 ≠ row - 1))
      cal := { d1.cal with trims := d1.cal.trims.filter (fun p => decide (trimRow (p.1 / 8192) (p.1 / 32 % 256) ≠ row)) } }
  else if row = rowAT then { d1 with tb := {}, eng := {}, cls := none }
  else if 10 ≤ row ∧ row ≤ 73 then 
    let r := row - 10
    let x := d.fb.at r {}
    -- what lies in Tier C, and what its selector has named, stays
    { d1 with fb := d1.fb.put r { shadow := x.shadow, recent := x.recent, sel := x.sel, retry := x.retry, last := x.last } }
  else if row = rowM then
    -- requests that have not been acknowledged wait on (R232)
    { d1 with mt := { waits := d.mt.waits, lastServed := d.mt.lastServed }, pu := { waits := d.pu.waits }, mb := {} }
  else d1

/-- The regulator of an A or L row comes back at its level before Retain, or at VSET from Off (R334, R335). -/
def Dev.supplyUp (d : Dev) (row : Nat) : Dev :=
  if (1 ≤ row ∧ row ≤ 8) ∨ (10 ≤ row ∧ row ≤ 73) then
    let x := d.dom row
    let v := if d.rd F.PW_DOM_STATE row = 0 ∨ x.level = 0 then d.rd F.PW_DOM_VSET row else x.level
    d.wrc F.PW_DOM_VNOW row v
  else d

/-- The supply goes to the retention level, or is removed: a step under way is dropped. -/
def Dev.supplyDown (d : Dev) (row : Nat) (off : Bool) : Dev :=
  if (1 ≤ row ∧ row ≤ 8) ∨ (10 ≤ row ∧ row ≤ 73) then
    let now := d.rd F.PW_DOM_VNOW row
    let d1 := d.modDom row (fun x => { x with level := if d.domOn row then now else x.level })
    let d2 := (d1.modPw (fun p => { p with vtarget := p.vtarget.del row, vlow := p.vlow.del row })).wrc F.PW_DOM_VWAIT row 0
    d2.wrc F.PW_DOM_VNOW row (if off then 0 else (Config.retentionLevel row).toNat)
  else d

/-- A domain has reached On (Table 14.8). -/
def Dev.domRaised (d : Dev) (row : Nat) : Dev :=
  let was := d.rd F.PW_DOM_STATE row
  let d1 := ((d.supplyUp row).modDom row (fun x => { x with phase := .settled, faultHold := false })).setDom row 2
  let d2 := if row = rowAT ∧ was = 1 then { d1.wr0 F.TB_STS_GAP 1 with dm := { d1.dm with gap := d1.dm.running || d1.dm.gap } } else d1
  d2.domEval row

/-- What stops as a domain's supply drops: a bay's PLLs, transmitters and a calibration on its lanes, the timebase PLL and the
Gate's open transactions with AT (R264, R295, R336). -/
def Dev.domStop (d : Dev) (row : Nat) : Dev :=
  let bay := row - 1
  if 1 ≤ row ∧ row ≤ 8 then
    let d1 := d.each [pllIx bay 0, pllIx bay 1] (fun p d => d.wrc F.LN_PLL_STS_LOCK p 0)
    d1.each (List.range 16) (fun k d =>
      let l := 8 * bay + k % 8 + 64 * (k / 8)
      (d.calAbortNow l).setTxIdle l true)
  else if row = rowAT then
    let d1 := d.wrc F.TB_STS_LOCK 0 0
    { d1 with tb := { d1.tb with holding := false } }.revoke (List.range 16)
  else d

/-- A domain has reached its idle state (Table 14.7). A vote that came during the entry brings it back to
On (R326). -/
def Dev.domLowered (d : Dev) (row : Nat) (off : Bool) : Dev :=
  let d1 := (d.domStop row).supplyDown row off
  let d2 := if off then d1.domLose row else d1
  let d3 := (d2.modDom row (fun x => { x with phase := .settled, toOff := false })).setDom row (if off then 0 else 1)
  d3.domEval row

/-- Rows of a mask that the Vote Board assigns. -/
def rowsOf (m : Nat) : List Nat := (List.range 127).filter (fun r => decide (r ≠ 0) && bit m r)

/-- The mask of a list of rows. -/
def maskOf (l : List Nat) : Nat := l.foldl (fun m r => if bit m r then m else m + 2 ^ r) 0

/-- The rows of a mask that lie in another, and those that do not. -/
def maskAnd (a b : Nat) : Nat := maskOf ((rowsOf a).filter (fun r => bit b r))
def maskLess (a b : Nat) : Nat := maskOf ((rowsOf a).filter (fun r => ! bit b r))

/-- Rows on which DEV votes (column 0). -/
def Dev.devMask (d : Dev) : Nat := maskOf ((rowsOf (2 ^ 127 - 2)).filter (fun r => bit (d.voteMask r) 0))

/-- DEV places or withdraws its votes to match a mask (column 0). -/
def Dev.devVotes (d : Dev) (mask : Nat) : Dev := d.each (rowsOf (2 ^ 127 - 2)) (fun r d => d.vote 0 r (bit mask r))

/-- The domains that a mask of rows reaches, through Domain Groups too. -/
def Dev.domainsOf (d : Dev) (m : Nat) : Nat := maskOf ((rowsOf m).map (fun r => d.rowsUnder r)).flatten

/-- A domain has not yet come down: On, or in a device Off transition any state but Off and Fault. -/
def Dev.notDown (d : Dev) (r : Nat) : Bool :=
  let st := d.rd F.PW_DOM_STATE r
  decide (st = 2) || (decide (st = 1) && (decide (d.rd F.PW_STS_DEV = 5) || decide (d.rd F.PW_STS_TARGET = 5)))

/-- Domains that the running or last transition takes down and that are not yet idle. -/
def Dev.heldRows (d : Dev) : List Nat := (rowsOf d.pw.withdrawn).filter (fun r => d.notDown r)

/-- ALERT_N, SNAP_OUT and PPS_OUT at their pads: a held group keeps its latched level, the timing outputs are held low
(Table 14.9). -/
def Dev.padAlertN (d : Dev) : Bool := if bit (d.rd F.PW_PADREL_HELD) 0 then d.pw.heldAlert else d.alertN
def Dev.padSnapOut (d : Dev) : Bool := if bit (d.rd F.PW_PADREL_HELD) 1 then d.pw.heldSnap else d.trig.snapOut
def Dev.padPpsOut (d : Dev) : Bool := ! bit (d.rd F.PW_PADREL_HELD) 3 && d.eng.ppsOut

/-- CLKOUT0 and CLKOUT1, and TOD_OUT while it sends, at their pads. -/
def Dev.padClkout (d : Dev) (n : Nat) : Bool := ! bit (d.rd F.PW_PADREL_HELD) 3 && d.eng.clkRuns.at n false && d.eng.clkLevel.at n false
def Dev.padTodLive (d : Dev) : Bool := ! bit (d.rd F.PW_PADREL_HELD) 3

/-- The edges of a bay at its pads: transmitters in electrical idle with common mode held in Retain and at high impedance in Off; receiver
terminations on in Retain and at high impedance in Off (R336). -/
def Dev.txHighZ (d : Dev) (l : Nat) : Bool := decide (d.rd F.PW_DOM_STATE (rowA (laneBay l)) = 0)
def Dev.rxTerminated (d : Dev) (l : Nat) : Bool := ! d.txHighZ l

/-- The pads of some groups latch their output states (R337). -/
def Dev.holdPads (d : Dev) (groups : Nat) : Dev :=
  if groups = 0 then d
  else
    let d1 := d.modPw (fun p => { p with heldAlert := d.padAlertN, heldSnap := d.padSnapOut })
    d1.wrc F.PW_PADREL_HELD 0 (d.rd F.PW_PADREL_HELD ||| groups)

/-- DEV's cells after a transition (Table 14.4). -/
def Dev.wantedVotes (d : Dev) (target : Nat) : Nat :=
  let cur := d.devMask
  let act := maskOf (rowsOf (d.rowSet F.PW_ACTSET_ROWS))
  let nap := d.rowSet F.PW_NAPSET_ROWS
  match target with
  | 1 => act ||| cur
  | 2 => if d.rd F.PW_STS_DEV = 1 then maskLess cur nap else maskLess act nap ||| cur
  | 4 => maskAnd cur (2 ^ rowAT)
  | _ => 0

/-- Withdraw votes for a transition to Nap, Rest or Off: quiesce requests, pads, the Gate and the Dormer (Table 14.4, R284,
R337, R381). -/
def Dev.goDown (d : Dev) (target : Nat) : Dev :=
  let cur := d.devMask
  let want := d.wantedVotes target
  let gone := maskLess cur want
  let down := if target = 5 then maskOf ((rowsOf (2 ^ 77 - 2)).filter (fun r => decide (d.rd F.PW_DOM_STATE r ≠ 0))) else d.domainsOf gone
  let u : UndoX := { at_ := d.now, votes := cur, held := d.rd F.PW_PADREL_HELD, withdrawn := d.pw.withdrawn }
  let d1 := d.modPw (fun p => { p with withdrawn := down, holdrep := true, repDone := false, up := false
                                       quiesce := p.quiesce ||| gone, undo := some u })
  let d2 := (d1.wr0 F.PW_STS_QREQ 1).holdPads (if target = 3 ∨ target = 5 then 0xF else if target = 4 then 0x7 else 0)
  let d3 := if target = 5 then d2.gateRelock else d2
  let d4 := (if target = 2 then d3 else d3.dormerRest).devVotes want
  d4.each (if target = 5 then List.range 77 else []) (fun r d => d.domEval r)

/-- The loader votes C and M, unless BOOT_SEL names no image (Table 14.3, R343). -/
def Dev.loaderVotes (d : Dev) : Dev := if d.rd F.CF_STS_BOOT_SEL = 3 then d else (d.vote 2 rowC true).vote 2 rowM true

/-- Place votes for a transition to Active, or up to Nap (Table 14.4). From Off the power-up sequence runs, the loader votes
again and the ROM profile is formed again in every bay that is not On (R343, R345). -/
def Dev.goUp (d : Dev) (target : Nat) : Dev :=
  let want := d.wantedVotes target
  let d1 := d.modPw (fun p => { p with withdrawn := 0, holdrep := false, repDone := false, up := true, undo := none
                                       quiesce := if target = 1 then 0 else p.quiesce })
  let d2 := if target = 1 then (d1.wr0 F.PW_STS_QREQ 0).dormerWake else d1
  if d.rd F.PW_STS_DEV = 5 then
    let bays := (List.range 8).filter (fun b => ! d.domOn (rowA b))
    let d3 := (d2.modPw (fun p => { p with seq := some 1, fromOff := true })).wr0 F.PW_STS_STEP 0
    let d4 := { d3 with boot := { d3.boot with barePending := maskOf (bays.map (· + 1)) / 2, image := 0 } }
    -- R30: lanes that no profile course takes have no parent
    let d5 := d4.each (bays.flatMap (fun b => (List.range 8).map (fun k => laneUnit (8 * b + k)))) (fun u d =>
      (d.wrc F.UD_IDENT_PARENT u 0).wrc F.UD_LINKS_NEXT_SIB u 0)
    ((d5.wrc F.CF_STS_FULL 0 0).devVotes want).loaderVotes
  else d2.devVotes want

/-- Start a device transition (Table 14.4). -/
def Dev.transition (d : Dev) (target : Nat) : Dev :=
  let d1 := ((d.wr0 F.PW_STS_BUSY 1).wr0 F.PW_STS_TARGET target).wr0 F.PW_STS_PARTIAL 0
  if d.rd F.PW_STS_DEV < target then d1.goDown target else d1.goUp target

/-- Report the domains still held at the end of a transition (R328). -/
def Dev.reportHeld (d : Dev) : Dev :=
  match d.heldRows with
  | [] => d
  | r :: rest =>
    let d1 := d.wr0 F.PW_STS_PARTIAL 1
    let d2 :=
      if d1.on F.PW_HELD_VALID then d1
      else
        let m := d1.effMask r
        ((((d1.wr0 F.PW_HELD_ROW r).wr0 F.PW_HELD_COUNT (rest.length + 1)).wr0 F.PW_HELD_VALID 1).wr0 F.PW_HELD_CLO_CLO
          (m % 2 ^ 32)).wr0 F.PW_HELD_CHI_CHI (m / 2 ^ 32)
    if d2.on F.PW_STS_HELDF then d2 else (d2.wr0 F.PW_STS_HELDF 1).alert 0

/-- The power-up sequence waits for a step that VDD_CORE or a domain in Fault keeps from it (R332, R344). -/
def Dev.seqStuck (d : Dev) : Bool :=
  decide (d.pw.seq = some 3 ∨ d.pw.seq = some 4) && (! d.pw.core || decide (d.rd F.PW_DOM_STATE rowM = 3 ∨ d.rd F.PW_DOM_STATE rowC = 3))

/-- The running transition has ended: every domain that it brings up has settled; or every domain that it takes down is idle,
or still held once PW_HOLDREP has expired (R328). -/
def Dev.transitionOver (d : Dev) : Bool :=
  if d.pw.up then ! (d.pw.doms.any (fun p => decide (p.2.phase = .exiting)) || (d.pw.seq.isSome && ! d.seqStuck))
  else
    let rem := d.heldRows
    rem.isEmpty || (d.pw.repDone && rem.all (fun r => decide (d.effMask r ≠ 0)))

/-- Record a wake in PW_LASTWAKE (Table 14.5). -/
def Dev.recordWake (d : Dev) (src course timer : Nat) (replay : Bool) : Dev :=
  let d1 := ((d.wr0 F.PW_LASTWAKE_SRC src).wr0 F.PW_LASTWAKE_REPLAY (b2n replay)).wr0 F.PW_LASTWAKE_FROM (d.rd F.PW_STS_DEV)
  ((d1.wr0 F.PW_LASTWAKE_COURSE (if src = 3 then course else 0)).wr0 F.PW_LASTWAKE_TIMER (if src = 4 then timer else 0)).modPw
    (fun p => { p with waking := true })

/-- The running transition ends: the device is in its target state, and domains still held are reported. -/
def Dev.transitionEnd (d : Dev) : Dev :=
  let t := d.rd F.PW_STS_TARGET
  let d1 := ((d.wr0 F.PW_STS_BUSY 0).wr0 F.PW_STS_DEV t).wr0 F.PW_STS_TARGET 0
  let up := d1.pw.up
  let d2 := d1.modPw (fun p => { p with holdrep := false, repDone := false, up := false, undo := none })
  if up then (if t = 1 ∧ d2.pw.waking then (d2.modPw (fun p => { p with waking := false })).alert 13 else d2)
  else d2.reportHeld

/-- A request that Table 14.4 gives no row changes nothing. -/
def moveOk (frm to_ : Nat) : Bool :=
  match frm, to_ with
  | 1, 2 | 1, 3 | 2, 3 | 1, 4 | 2, 4 | 1, 5 | 2, 5 | 3, 5 | 4, 5 | 2, 1 | 3, 1 | 4, 1 | 5, 1 | 3, 2 | 4, 2 => true
  | _, _ => false

/-- The pending request or latched wake starts (R329, R331); while the loader runs it waits (R357). -/
def Dev.runPending (d : Dev) : Dev :=
  let pend := d.rd F.PW_STS_PEND
  if pend = 0 ∨ d.on F.CF_STS_LOADING then d
  else
    let w := d.pw.wake
    let d1 := (d.wr0 F.PW_STS_PEND 0).modPw (fun p => { p with wake := none })
    if ! moveOk (d.rd F.PW_STS_DEV) pend then d1
    else if pend = 1 then
      let (src, c, k) := w.getD (7, 0, 0)
      (d1.recordWake src c k w.isSome).transition 1
    else d1.transition pend

/-- End a transition that is over, and start what is pending; PARTIAL clears when the last held domain has dropped. -/
def Dev.transitionCheck (d : Dev) : Dev :=
  if d.on F.PW_STS_BUSY ∧ d.transitionOver then
    let d1 := d.transitionEnd.runPending
    if d1.on F.PW_STS_BUSY ∧ d1.transitionOver then d1.transitionEnd else d1
  else if d.on F.PW_STS_PARTIAL ∧ d.heldRows.isEmpty then d.wr0 F.PW_STS_PARTIAL 0
  else d

/-- A request of this very tick is discarded: what its transition changed is undone (R367). -/
def Dev.undoRequest (d : Dev) (u : UndoX) : Dev :=
  let d1 := ((d.wr0 F.PW_STS_BUSY 0).wr0 F.PW_STS_TARGET 0).wrc F.PW_PADREL_HELD 0 u.held
  let d2 := d1.modPw (fun p => { p with withdrawn := u.withdrawn, holdrep := false, repDone := false, undo := none })
  let d3 := d2.each (List.range 77) (fun r d =>
    let x := d.dom r
    if x.phase = .entering ∧ x.since = d.now then (d.modDom r (fun x => { x with phase := .settled, toOff := false })).wr F.PW_DOM_TRANS r 0
    else d)
  d3.devVotes u.votes

/-- A wake source requests Active (R330, R331). In Active it has no effect; during a transition up it is absorbed; during an
entry it is latched in the pending slot, of several on one tick the lowest code. -/
def Dev.wake (d : Dev) (src course timer : Nat) : Dev :=
  let same := decide (d.pw.wakeAt = some d.now)
  let discard := match d.pw.undo with | some u => decide (u.at_ = d.now) && decide (d.rd F.PW_STS_DEV ≠ 1) && d.on F.PW_STS_BUSY | none => false
  let d0 := match d.pw.undo with | some u => if discard then d.undoRequest u else d | none => d
  if ! d0.pw.good then d0
  else if d0.on F.PW_STS_BUSY then
    if d0.rd F.PW_STS_TARGET = 1 then
      if same ∧ src < d0.rd F.PW_LASTWAKE_SRC then d0.recordWake src course timer (d0.on F.PW_LASTWAKE_REPLAY) else d0
    else
      let keep := same && d0.pw.wake.any (fun w => decide (w.1 ≤ src))
      (d0.modPw (fun p => { p with wake := if keep then p.wake else some (src, course, timer), wakeAt := some d.now })).wr0 F.PW_STS_PEND 1
  else if d0.rd F.PW_STS_DEV = 1 then d0
  else ((d0.modPw (fun p => { p with wakeAt := some d.now })).recordWake src course timer false).transition 1 |>.transitionCheck

/-- A device state requested through PW_CTL (R327, R329). Active is wake source 7. Another request on the tick of a wake is
discarded (R367); one written while the loader runs takes the pending slot (R357). -/
def Dev.request (d : Dev) (req : Nat) : Dev :=
  if req = 0 ∨ 5 < req ∨ ! d.pw.good then d
  else if req = 1 then
    -- a request written while a transition runs, or while the loader does, takes the pending slot (R329, R357); towards Active it asks for nothing
    if d.pw.wakeAt ≠ some d.now ∧ (if d.on F.PW_STS_BUSY then d.rd F.PW_STS_TARGET = 1 else d.on F.CF_STS_LOADING ∧ d.rd F.PW_STS_DEV = 1) then
      (d.modPw (fun p => { p with wake := none })).wr0 F.PW_STS_PEND 1
    else d.wake 7 0 0
  else if d.pw.wakeAt = some d.now then d
  else if d.on F.PW_STS_BUSY ∨ d.on F.CF_STS_LOADING then
    (d.modPw (fun p => { p with wake := none })).wr0 F.PW_STS_PEND req
  else if moveOk (d.rd F.PW_STS_DEV) req then (d.transition req).transitionCheck
  else d

end Sys2Proof.Machine
end

