-- ==== Sys2Proof/Machine/TbCore.lean ====
section
/-! DEFINITION. The timebase PLL's reference (R145, R146 of spec/06_timebase.md), and boundaries of courses
(R86 of spec/03_courses_datapaths.md). -/
namespace Sys2Proof.Machine

/-- The timebase PLL's reference is present and accepted (R145): REFCLK_A or REFCLK_B at one of the four nominal
frequencies and not spread, or OSC_IN at a whole number of kilohertz from 10 MHz to 50 MHz. -/
def Dev.tbRefOk (d : Dev) : Bool :=
  let k := d.rd F.TB_CTL_TBREF
  let r := d.ref k
  if k = 2 then decide (r.id ≠ 0 ∧ r.hz % 1000 = 0 ∧ 10000000 ≤ r.hz ∧ r.hz ≤ 50000000) else if k = 3 then false else decide (1 ≤ r.id ∧ r.id ≤ 4) && ! r.spread

/-- TB_STS follows the selected reference; the PLL's 10 s hold starts when it goes and ends when it
returns. -/
def Dev.tbRefUpdate (d : Dev) : Dev :=
  let k := d.rd F.TB_CTL_TBREF
  let ok := d.tbRefOk
  let d1 := (d.wrc F.TB_STS_REFLOS 0 (b2n (! ok))).wrc F.TB_STS_SPREAD 0 (b2n (decide (k < 2) && (d.ref k).spread))
  { d1 with tb := { d1.tb with holding := d1.on F.TB_STS_LOCK && ! ok } }

/-- Another reference for the timebase PLL: it loses lock and locks afresh (R145, R146). -/
def Dev.tbRefSelect (d : Dev) (k : Nat) : Dev :=
  if k = d.rd F.TB_CTL_TBREF then d
  else
    let d1 := d.wr0 F.TB_CTL_TBREF k
    (if d1.on F.TB_STS_LOCK then (d1.wr0 F.TB_STS_LOCK 0).wr0 F.TB_STS_LOL 1 else d1).tbRefUpdate

end Sys2Proof.Machine
end

