-- ==== Sys2Proof/Machine/HandoverCore.lean ====
section
/-! DEFINITION. Course handover from Bare Retime to the image, Full Service (R343 to R354 of
spec/15_boot_configuration.md), and course boundaries (R86). -/
namespace Sys2Proof.Machine

/-- The configuration word at E + 0x40 of a course, by its protocol. -/
def protoCfgReg (p : Proto) : Reg :=
  match p with | .cpri => .CS_CPRI_CFG | .pcie => .CS_PCI_CFG | _ => .CS_ETH_CFG

/-- An image entry is written. -/
def Dev.courseImageWrite (d : Dev) (n : Nat) (im : CourseImage) : Dev :=
  let d0 := d.modCourse n (fun c => { c with barred := false })
  let d1 := (d0.putWord .CS_CTL n (im.ctl % 4096)).putWord .CS_RATE n im.rate
  let d2 := (d1.putWord .CS_LANES (2 * n) im.lanes0).putWord .CS_LANES (2 * n + 1) im.lanes1
  let d3 := d2.putWord .CS_CTX n im.ctx
  let sel := if d3.selectAggregate n then im.sel else 0
  let d4 := (d3.putWord .CS_SEL n sel).wrc F.UD_STATE_ACTIVE (courseUnit n) sel
  (d4.putWord (protoCfgReg (protoOf (bits im.ctl 3 2))) n im.cfg).wrc F.CS_CTL_BOOTPROF n 0

/-- The image's PLL settings equal those in force for every PLL that serves a course. -/
def Dev.pllsKept (d : Dev) (n : Nat) : Bool :=
  (d.courseLanes n).all (fun l =>
    let p := pllIx (laneBay l) (d.rd F.LN_STS_PLLSEL l)
    match d.boot.plls.find? p with
    | none => true
    | some im => decide (im.family = d.rd F.LN_PLL_CTL_FAMILY p ∧ im.refsel = d.rd F.LN_PLL_CTL_REFSEL p
        ∧ im.ndiv = d.rd F.LN_PLL_CTL_NDIV p))

/-- An image entry keeps a Bare Retime course (R354): same lanes and settings of row 2, same RATE within the
image's window, same PLL settings, and the course in Detect or later. -/
def Dev.entryKept (d : Dev) (n : Nat) (im : CourseImage) : Bool :=
  let ctl := d.word .CS_CTL n
  let same (lo w : Nat) : Bool := decide (bits ctl lo w = bits im.ctl lo w)
  let rate := bits im.rate 0 8
  d.boot.formed.contains n && decide (d.rd F.CS_STS_KSTATE n ≠ 0)
    && same 1 2 && same 3 2 && same 5 2 && same 7 1 && same 8 1 && same 9 1 && same 10 1 && same 11 1
    && decide (d.rd F.CS_LANES_LANES (2 * n) = im.lanes0 ∧ d.rd F.CS_LANES_LANES (2 * n + 1) = im.lanes1)
    && decide (d.rd F.CS_RATE_FEC n = bits im.rate 24 2 ∧ d.rd F.CS_RATE_RATE n = rate
      ∧ bits im.rate 8 8 ≤ rate ∧ rate ≤ bits im.rate 16 8)
    && d.pllsKept n

/-- The PLL settings of the image take effect once no Bare Retime course outside Disabled uses the PLL. -/
def Dev.imagePlls (d : Dev) : Dev :=
  d.each (d.boot.plls.map (fun p => p.1)) (fun p d =>
    match d.boot.plls.find? p with
    | none => d
    | some im =>
      let busy := (d.listed F.CS_CTL_BOOTPROF).any (fun n => decide (d.rd F.CS_STS_KSTATE n ≠ 0)
        && (d.courseLanes n).any (fun l => decide (pllIx (laneBay l) (d.rd F.LN_STS_PLLSEL l) = p)))
      if busy then d
      else
        let d1 := { d with boot := { d.boot with plls := d.boot.plls.del p } }
        if im.family = d1.rd F.LN_PLL_CTL_FAMILY p ∧ im.refsel = d1.rd F.LN_PLL_CTL_REFSEL p
            ∧ im.ndiv = d1.rd F.LN_PLL_CTL_NDIV p then d1
        else
          let d2 := (d1.wrc F.LN_PLL_CTL_FAMILY p im.family).wrc F.LN_PLL_CTL_REFSEL p im.refsel
          ((d2.wrc F.LN_PLL_CTL_NDIV p im.ndiv).wrc F.LN_PLL_STS_LOCK p 0).pllRefresh p)

/-- A request that waited for the loader starts once it has ended (R357). -/
def Dev.startPending (d : Dev) : Dev := if d.on F.PW_STS_BUSY then d else d.runPending.transitionCheck

/-- The loader withdraws its column (Table 14.3). -/
def Dev.loaderVotesOff (d : Dev) : Dev := d.each (List.range 77) (fun r d => d.vote 2 r false)

/-- The outcome of a flash image goes to CF_RESA or CF_RESB (R351). -/
def Dev.imageResult (d : Dev) (code yealm : Nat) : Dev :=
  let k := d.boot.image - 1
  if d.boot.image = 1 ∨ d.boot.image = 2 then (d.wr F.CF_RES_CODE k code).wr F.CF_RES_YEALM k yealm else d

/-- The loader ends without an image (R351, R344): CF_STATUS holds the last code, its votes are withdrawn, and a request that
waited for it starts (R357). -/
def Dev.loaderEnd (d : Dev) (code yealm item : Nat) : Dev :=
  let d1 := ((d.wr0 F.CF_STATUS_CODE code).wr0 F.CF_STATUS_IMAGE 0).wr0 F.CF_STATUS_YEALM yealm
  let d2 := ((d1.wr0 F.CF_ITEM_ITEM item).wrc F.CF_STS_LOADING 0 0).wrc F.CF_RCV_STS_ACTIVE 0 0
  let d3 := { d2 with boot := { d2.boot with image := 0, next := [], header := none, yealms := [], rcv := [], stream := [], applying := false } }
  ((d3.alert 5).loaderVotesOff).startPending

/-- Full Service (R345): every course entry of the image has taken effect. -/
def Dev.fullService (d : Dev) : Dev :=
  let bare := ! (d.listed F.CS_CTL_BOOTPROF).isEmpty
  let d0 := d.wrc F.CF_STS_BARE 0 (b2n bare)
  if d0.boot.applying ∧ d0.boot.hand.isEmpty then
    let d1 := { d0 with boot := { d0.boot with applying := false } }
    let d2 := ((d1.wr0 F.CF_STS_FULL 1).wr0 F.CF_STS_LOADING 0).wr0 F.CF_TFULL_V (d1.now / 1000)
    let d3 := ((d2.wr0 F.CF_STATUS_CODE 0).wr0 F.CF_STATUS_IMAGE d2.boot.image).wr0 F.CF_STATUS_YEALM 0
    let d4 := (d3.wr0 F.CF_ITEM_ITEM 0).imageResult 0 0
    ((d4.alert 5).loaderVotesOff).startPending
  else d0

/-- A waiting image entry takes effect (R354): kept with BOOTPROF cleared, or replaced through Disabled. -/
def Dev.courseHandover (d : Dev) (n : Nat) : Dev :=
  match d.boot.hand.find? n with
  | none => d
  | some im =>
    let d1 := { d with boot := { d.boot with hand := d.boot.hand.del n } }
    let d2 :=
      if d.entryKept n im then d1.courseImageWrite n im
      else
        let d2 := if d1.rd F.CS_STS_KSTATE n = 0 then d1 else d1.enterDisabled n
        d2.courseImageWrite n im
    let d3 := { d2 with boot := { d2.boot with formed := d2.boot.formed.filter (· ≠ n) } }
    ((d3.imagePlls).courseEval n).fullService

/-- Count a boundary of a course, and of the Aggregate courses above it whose boundary it is (Table 3.10). -/
def Dev.countBoundary (d : Dev) (fuel n : Nat) : Dev :=
  match fuel with
  | 0 => d
  | fuel + 1 =>
    let d1 := { d with bnd := d.bnd.put n (d.bnd.at n 0 + 1) }
    let p := d.rd F.UD_IDENT_PARENT (courseUnit n)
    if 0x200 ≤ p ∧ p < 0x400 then
      let m := p - 0x200
      let kids := (d.members p).filter (fun u => decide (0x200 ≤ u ∧ u < 0x400) && d.inService (u - 0x200))
      let chosen :=
        if d.rd F.UD_IDENT_POLICY p = 3 then d.rd F.CS_SEL_ACTIVE m
        else kids.foldl min 0x400
      if d.rd F.CS_CTL_ROLE m = 1 ∧ chosen = courseUnit n then d1.countBoundary fuel m else d1
    else d1

/-- A course meets its boundary (R86): waiting commits fall due and a waiting image entry takes effect. -/
def Dev.boundary (d : Dev) (n : Nat) : Dev := (d.countBoundary courseCount n).courseHandover n

/-- The A-to-B receiver of a Decoded course decodes a protocol marker, in any state of the course (R263); in service the
marker is the course's boundary too. -/
def Dev.marker (d : Dev) (n : Nat) : Dev :=
  let d1 := { d with marks := d.marks.put n (d.marks.at n 0 + 1) }
  if d1.inService n then d1.boundary n else d1

/-- Apply the manual transmit writes that a Lane Idle or the wait for the B-to-A boundary held back (R63, R86), on transmitter `t`. -/
def Dev.applyHeld (d : Dev) (t : Nat) : Dev :=
  let x := d.lane t
  let d1 := match x.heldCtl with
    | none => d
    | some w => (d.wrc F.LN_CTL_SWING t (bits w.toNat 0 7)).wrc F.LN_CTL_TX_INV t (bits w.toNat 9 1)
  let d2 := match x.heldFfe with
    | none => d1
    | some w => d1.putWord .LN_TX_FFE t w.toNat
  if x.heldCtl.isSome ∨ x.heldFfe.isSome then d2.modLane t (fun x => { x with heldCtl := none, heldFfe := none }) else d2

/-- A boundary event of a Straight-through course on a transceiver (R86): side A's is the course boundary; at side B's, the B-to-A
boundary, what a commit changed of the side-A transmitters takes effect. -/
def Dev.laneBoundary (d : Dev) (l : Nat) : Dev :=
  match d.laneCourse (laneTp l) with
  | none => d
  | some n =>
    if ! (decide (d.rd F.CS_CTL_MODE n = 1) && d.inService n) then d
    else if l < 64 then d.boundary n
    else d.each (d.courseSideLanes n .a) (fun t d => if d.ks (laneOpp t) = 7 then d else d.applyHeld t)

/-- The meaning of a command that acts on the part alone. -/
def State.upd (s : State) (g : Dev → Dev) : Host.Outcome State Fault Refusal := .next { s with dev := g s.dev }

end Sys2Proof.Machine
end

