-- ==== Sys2Proof/Machine/Lane.lean ====
section
/-! DEFINITION. Lane tier commands: bay PLLs, references, Lane Idle, the loss sequence, stand-ins and
handovers (spec/02_lane_tier.md, spec/03_courses_datapaths.md R87 to R90). -/
namespace Sys2Proof.Machine

/-! ## Bay PLLs and references -/

/-- A bay PLL loses lock: every lane that it serves goes to Fault with its transmitter squelched (R39), under
FCODE 0x02 where the reference is absent (R40). -/
def Dev.pllLost (d : Dev) (p : Nat) (code : Nat) : Dev :=
  if ! d.on F.LN_PLL_STS_LOCK p then d
  else
    let d1 := (d.wr F.LN_PLL_STS_LOCK p 0).wr F.LN_PLL_STS_LOL p 1
    d1.each (d1.pllLanes p) (fun l d =>
      let d := (d.stopSeq l).setTxIdle l true
      let d := ((d.wrc F.LN_STS_LOCK l 0).setKs l 9).setTxIdle (laneOpp l) true
      d.laneFault (laneTp l) code)

/-- Form the Bare Retime course of ROM profile `p` with these through-paths (R30, Table 2.4). -/
def Dev.bareCourse (d : Dev) (p n : Nat) (tps : List Nat) : Dev :=
  let r := profileRow p
  let cpri := decide (p = 4 ∨ p = 5)
  let proto := if p = 6 then 2 else if cpri then 1 else 0
  let mask := tps.foldl (fun m tp => m + 2 ^ tp) 0
  let rate := if p = 5 then 0 else r.rate
  let rmin := r.rate
  let rmax := if p = 5 then 0x07 else if p = 6 then 0x12 else r.rate
  let d0 := ((((d.putWord .CS_CTL n 0).putWord .CS_RATE n 0).putWord .CS_CTX n 0).putWord .CS_SEL n 0).putWord
    (protoCfgReg (protoOf proto)) n 0
  let d1 := (((d0.wr F.CS_CTL_ENABLE n 1).wr F.CS_CTL_MODE n 1).wr F.CS_CTL_PROTO n proto).wr F.CS_CTL_BOOTPROF n 1
  let d2 := ((d1.wr F.CS_RATE_RATE n rate).wr F.CS_RATE_RMIN n rmin).wr F.CS_RATE_RMAX n rmax
  let d3 := (d2.wr F.CS_LANES_LANES (2 * n) (mask % 2 ^ 32)).wr F.CS_LANES_LANES (2 * n + 1) (mask / 2 ^ 32)
  let d4 := if p ≤ 3 then d3.wr F.CS_ETH_CFG_PHY n 0x20 else if p = 5 then d3.wr F.CS_CPRI_CFG_FOLLOW n 1 else d3
  let u := courseUnit n
  let d5 := (((d4.wrc F.UD_IDENT_POLICY u 0).wrc F.UD_IDENT_AUTO u 0).wrc F.UD_IDENT_PARENT u 0).wrc F.UD_LINKS_NEXT_SIB u 0
  let d5 := (d5.wrc F.UD_STATE_ACTIVE u 0).wr F.UD_LINKS_FIRST_CHILD u (laneUnit (tps.headD 0))
  let d6 := d5.each tps (fun tp d =>
    let nxt := (tps.find? (fun t => decide (tp < t))).elim 0 laneUnit
    (d.wr F.UD_IDENT_PARENT (laneUnit tp) u).wr F.UD_LINKS_NEXT_SIB (laneUnit tp) nxt)
  { d6 with boot := { d6.boot with formed := n :: d6.boot.formed } }.courseEval n

/-- The Bare Retime courses of a bay, once its PLLs have locked (R343 step 3). Profile 6 forms a course once
both of its bays have. -/
def Dev.bareBay (d : Dev) (bay : Nat) : Dev :=
  let p := d.rd F.CF_STS_PROFILE
  let ready (b : Nat) : Bool := (List.range 2).all (fun k =>
    d.rd F.LN_PLL_CTL_FAMILY (pllIx b k) = 0 || d.on F.LN_PLL_STS_LOCK (pllIx b k))
  if ! bit d.boot.barePending bay ∨ ! ready bay ∨ 7 ≤ p then d
  else
    let pair := bay + 1 - 2 * (bay % 2)
    if p = 6 then
      if ready pair then
        let d1 := { d with boot := { d.boot with barePending := d.boot.barePending - 2 ^ bay - 2 ^ pair } }
        d1.bareCourse p (bay / 2) ((List.range 16).map (fun k => 16 * (bay / 2) + k))
      else d
    else
      let d1 := { d with boot := { d.boot with barePending := d.boot.barePending - 2 ^ bay } }
      d1.each ((List.range 8).map (fun k => 8 * bay + k)) (fun tp d => d.bareCourse p tp [tp])

/-- Step 4 of Table 15.2: BARE and CF_TBARE, once every bay that can has formed its courses. -/
def Dev.bareDone (d : Dev) : Dev :=
  if ! (d.listed F.CS_CTL_BOOTPROF).isEmpty ∧ ! d.on F.CF_STS_BARE then
    (d.wr0 F.CF_STS_BARE 1).wr0 F.CF_TBARE_V (d.now / 1000)
  else d

/-- The KSTATE to which a lane returns from a PLL fault: Acquire (R39), but where its course is Disabled or it is in none (Table
2.14) Self-test while its test still runs, else Disabled. -/
def Dev.ksAfterPll (d : Dev) (l : Nat) : Nat :=
  if (d.laneCourse (laneTp l)).any (fun n => decide (d.rd F.CS_STS_KSTATE n ≠ 0)) then 1
  else if (d.lane l).testing then 8 else 0

/-- The retune that an incoming rate change found under way has completed: the direction measures again (R114). -/
def Dev.remeasure (d : Dev) (l : Nat) : Dev :=
  match d.laneCourse (laneTp l) with
  | none => d
  | some n =>
    let k := segIx n (if l < 64 then .a else .b)
    if (d.seg k).measureAgain then d.modSeg k (fun x => { x with measureAgain := false, measuring := true, following := false }) else d

/-- A bay PLL locks: its lanes return to Acquire (R39), a direction whose rate changed meanwhile measures again (R114), and Bare Retime
courses are formed. -/
def Dev.pllLocked (d : Dev) (p : Nat) : Dev :=
  if d.on F.LN_PLL_STS_LOCK p ∨ ! d.pllAccepts p then d
  else
    let d1 := d.wr F.LN_PLL_STS_LOCK p 1
    let back := (d1.pllLanes p).filter (fun l => decide (d1.ks l = 9) && (! (d1.lane l).sliceFailed || (d1.lane l).standIn))
    let d2 := d1.each back (fun l d => d.setKs l (d.ksAfterPll l))
    let d2 := d2.each (d2.pllLanes p) (fun l d => d.remeasure l)
    (d2.bareBay (p / 2)).bareDone

/-- The PLLs set up on a reference input. -/
def Dev.pllsOn (d : Dev) (ref : Nat) : List Nat :=
  (List.range 16).filter (fun p => decide (d.rd F.LN_PLL_CTL_FAMILY p ≠ 0 ∧ d.rd F.LN_PLL_CTL_REFSEL p = ref))

/-- R41: in Bare Retime, REFCLK_A absent, or at a frequency that the strapped profile does not take, leaves every lane in
Disabled with FCODE 0x0A. -/
def Dev.bareMismatch (d : Dev) (id : Nat) : Dev :=
  let r := profileRow (d.rd F.CF_STS_PROFILE)
  if d.boot.barePending ≠ 0 ∧ ! r.refs.contains id then
    d.each (List.range 64) (fun tp d => if d.unitKs tp = 0 then d.laneFault tp 0x0A else d)
  else d

/-- An input becomes absent, or moves from its nominal frequency (R40): its PLLs lose lock with FCODE 0x02, the
Eaves tick leaves REFCLK_A (R13), the timebase PLL goes to its hold (R146). -/
def Dev.refGone (d : Dev) (ref : Nat) (edges : Bool) : Dev :=
  let d1 := d.modRef ref (fun _ => { edges := edges })
  let plls := d1.pllsOn ref
  let d2 := d1.each plls (fun p d => (d.pllLost p 2).pllRefresh p)
  let d3 := d2.each ((List.range 16).filter (fun p => decide (d2.rd F.LN_PLL_CTL_FAMILY p = 0 ∧ d2.rd F.LN_PLL_CTL_REFSEL p = ref)))
    (fun p d => d.pllRefresh p)
  let d4 := if ref = 0 then { d3 with eaves := { d3.eaves with onRef := false } } else d3
  (if ref = 0 ∧ ! edges ∧ d4.domOn (rowA 0) then d4.bareMismatch 0 else d4).tbRefUpdate

/-- The monitor identifies a frequency (R40): status, NDIV of every PLL whose family accepts it. -/
def Dev.refIdentified (d : Dev) (ref id hz : Nat) : Dev :=
  let r := d.ref ref
  if ! r.edges ∨ r.id ≠ 0 ∨ id = 0 then d
  else
    let d1 := d.modRef ref (fun r => { r with id := id, hz := hz })
    let d2 := d1.each (d1.pllsOn ref) (fun p d =>
      let n := pllNdiv (d.rd F.LN_PLL_CTL_FAMILY p) id
      if n = 0 then d else d.wrc F.LN_PLL_CTL_NDIV p n)
    let d3 := d2.each ((List.range 16).filter (fun p => decide (d2.rd F.LN_PLL_CTL_REFSEL p = ref))) (fun p d => d.pllRefresh p)
    let d4 := if ref = 0 then d3.bareMismatch id else d3
    d4.tbRefUpdate

/-- The courses that wait in Detect evaluate Table 3.7, whose row 8 asks for an accepted reference (R42, R83). -/
def Dev.detectEval (d : Dev) : Dev :=
  d.each ((d.listed F.CS_STS_KSTATE).filter (fun n => decide (d.rd F.CS_STS_KSTATE n = 1))) (fun n d => d.courseEval n)

/-- The monitor judges spread (R42): spread from 300 ppm, down-spread where the highest frequency lies at
most 350 ppm above nominal. -/
def Dev.refSpread (d : Dev) (ref ppm : Nat) (above : Int) : Dev :=
  let spread := decide (300 ≤ ppm)
  let d1 := d.modRef ref (fun r => { r with spread := spread, down := spread && decide (above ≤ 350), ppm := ppm })
  let d2 := d1.each ((List.range 16).filter (fun p => decide (d1.rd F.LN_PLL_CTL_REFSEL p = ref))) (fun p d =>
    let d := d.pllRefresh p
    if spread then d else d.wrc F.LN_PLL_STS_REFUSED p 0)
  d2.tbRefUpdate.detectEval

/-- PLL_LOSS_OF_LOCK. -/
def execPllLossOfLock (bay : Fin 8) (n : Fin 2) (s : State) : Host.Outcome State Fault Refusal :=
  s.upd (fun d =>
    let p := pllIx bay n
    d.pllLost p (if (d.pllRef p).id = 0 ∨ ! d.pllAccepts p then 2 else 1))

/-- PLL_LOCK. -/
def execPllLock (bay : Fin 8) (n : Fin 2) (s : State) : Host.Outcome State Fault Refusal :=
  s.upd (fun d => d.pllLocked (pllIx bay n))

/-- REF_EDGES_APPEAR: the monitor begins to identify (R40). -/
def execRefEdgesAppear (ref : RefIn) (s : State) : Host.Outcome State Fault Refusal :=
  s.upd (fun d => if (d.ref (refIx ref)).edges then d else d.modRef (refIx ref) (fun r => { r with edges := true, id := 0 }))

/-- REF_IDENTIFIED. -/
def execRefIdentified (ref : RefIn) (refid : Fin 6) (hz : Nat) (s : State) : Host.Outcome State Fault Refusal :=
  s.upd (fun d => d.refIdentified (refIx ref) refid hz)

/-- REF_ABSENT. -/
def execRefAbsent (ref : RefIn) (s : State) : Host.Outcome State Fault Refusal :=
  s.upd (fun d => if (d.ref (refIx ref)).edges then d.refGone (refIx ref) false else d)

/-- REF_FREQUENCY_CHANGE: edges go on, and identification starts again. -/
def execRefFrequencyChange (ref : RefIn) (s : State) : Host.Outcome State Fault Refusal :=
  s.upd (fun d => if (d.ref (refIx ref)).edges then d.refGone (refIx ref) true else d)

/-- REF_SPREAD_CHANGE. -/
def execRefSpreadChange (ref : RefIn) (ppm : Nat) (above : Int) (s : State) : Host.Outcome State Fault Refusal :=
  s.upd (fun d => d.refSpread (refIx ref) ppm above)

/-! ## Loss sequence (Table 3.11) -/

/-- A takeover for a calibration is abandoned, and its command ends with HANDOVER (R89, R294). -/
def Dev.takeoverEnd (d : Dev) (l : Nat) : Dev :=
  ((d.modLane l (fun x => { x with tShadow := false })).fsRelease (laneFs l)).calEnd 6

/-- A loss indication on the carrying slice abandons a takeover (R90); a return goes on once the indication has cleared. -/
def Dev.handoverCut (d : Dev) (l : Nat) : Dev :=
  if d.cal.phase = .takeover ∧ d.calHolds l ∧ (d.lane l).tShadow then d.takeoverEnd l else d

/-- A loss indication appears: T_CONFIRM starts (R87), and a handover in progress on the lane is abandoned
(R90). It counts on lanes that carry data, are in Lane Idle exit failure, or whose segment is Ready. -/
def Dev.lossIndication (d : Dev) (l : Nat) (c : LossCause) : Dev :=
  let ks := d.ks l
  if ks = 0 ∨ ks = 4 ∨ ks = 5 ∨ ks = 6 ∨ ks = 8 ∨ ks = 9 then d
  else
    let d1 := if c = .cdr ∨ c = .codeGroup ∨ c = .blockLock then d.wrc F.LN_STS_LOCK l 0 else d
    (d1.modLane l (fun x => x.indicate c)).handoverCut l

/-- The loss is confirmed (R87): step 1 of Table 3.11 on a course in service; before Run the lane goes back to Acquire, and on a
Ready segment the segment is lost (Table 4.5). -/
def Dev.lossConfirmed (d : Dev) (l : Nat) : Dev :=
  if (d.lane l).loss.isEmpty then d
  else
    let tp := laneTp l
    let side := if l < 64 then Side.a else Side.b
    let d1 := (d.modLane l (fun x => { x with loss := [], confirmed := d.now })).bump F.LN_CNT_LOL_COUNT l
    let d2 := if bit (d1.rd F.SN_LOLMASK_MASK (tp / 32)) (tp % 32) then d1.fire 4 else d1
    match d2.laneCourse tp with
    | none => d2
    | some n =>
      if d2.inService n then
        let d3 := (d2.calPreempt l).wrc F.LN_STS_LOCK l 0
        -- R295: on the calibrated lane itself the calibration ends, and R88 applies
        let d4 :=
          if d3.calHolds l then
            if d3.on F.LN_STS_ON_FS l then (d3.calEnd 5).fsSet (laneFs l) 1 false true (lanePad l) else d3.calAbortNow l
          else d3
        let d5 := (d4.modLane l (fun x => { x with tReacq := true, tShadow := false, returning := false, idleExit := false })).setKs l 4
        if d5.on F.LN_STS_SIGDET l then d5 else d5.squelch l
      else
        let d3 := if d2.ks l = 2 ∨ d2.ks l = 3 ∨ d2.ks l = 7 then (d2.wrc F.LN_STS_LOCK l 0).setKs l 1 else d2
        if d3.segState n side = 3 ∧ d3.proto n ≠ .pcie then (d3.segLost n side true).courseEval n else d3

/-- T_REACQ expires: rescue on a granted slice, or squelch (steps 3 and 4). -/
def Dev.reacqExpired (d : Dev) (l : Nat) : Dev :=
  let x := d.lane l
  if ! x.tReacq then d
  else if d.on F.LN_STS_ON_FS l then
    if x.sliceFailed ∨ x.standIn then d.squelch l
    else (d.modLane l (fun x => { x with tReacq := false, tRescue := true, byPrimary := true })).setKs l 5
  else
    match d.fsClaim l with
    | some d1 => (d1.modLane l (fun x => { x with tReacq := false, tRescue := true, byPrimary := false })).setKs l 5
    | none => d.squelch l

/-- The rescuer locks and the output switches to it (step 3). -/
def Dev.rescued (d : Dev) (l : Nat) : Dev :=
  let x := d.lane l
  if ! x.tRescue then d
  else
    let d1 := (d.modLane l (fun x => { x with tRescue := false, byPrimary := false })).wrc F.LN_STS_LOCK l 1
    if x.byPrimary then ((d1.fsRelease (laneFs l)).setOnFs l false).setKs l 2
    else
      let d2 := (d1.fsSet (laneFs l) 1 false true (lanePad l)).onSlice l
      (d2.modLane l (fun x => { x with returning := true })).setKs l 3

/-- A squelched lane's primary slice locks again (step 6). -/
def Dev.unsquelch (d : Dev) (l : Nat) : Dev :=
  if d.ks l = 6 ∧ d.on F.LN_STS_SIGDET l ∧ (! (d.lane l).sliceFailed ∨ (d.lane l).standIn) then
    let d1 := (d.setTxIdle (laneOpp l) false).wrc F.LN_STS_LOCK l 1
    d1.setKs l (if (d1.lane l).standIn then 3 else 2)
  else d

/-- LOSS_INDICATION. -/
def execLossIndication (tp : Fin 64) (side : Side) (cause : LossCause) (s : State) : Host.Outcome State Fault Refusal :=
  s.upd (fun d => d.lossIndication (laneIx tp side) cause)

/-- LOSS_CONFIRMED. -/
def execLossConfirmed (tp : Fin 64) (side : Side) (s : State) : Host.Outcome State Fault Refusal :=
  s.upd (fun d => d.lossConfirmed (laneIx tp side))

/-- REACQUIRE_LOCK: step 2 of Table 3.11 succeeds. -/
def execReacquireLock (tp : Fin 64) (side : Side) (s : State) : Host.Outcome State Fault Refusal :=
  s.upd (fun d =>
    let l := laneIx tp side
    if (d.lane l).tReacq then
      let d1 := (d.modLane l (fun x => { x with tReacq := false })).wrc F.LN_STS_LOCK l 1
      if d1.on F.LN_STS_ON_FS l then (d1.modLane l (fun x => { x with returning := ! x.standIn })).setKs l 3
      else d1.setKs l 2
    else d)

/-- T_REACQ_EXPIRY. -/
def execTReacqExpiry (tp : Fin 64) (side : Side) (s : State) : Host.Outcome State Fault Refusal :=
  s.upd (fun d => d.reacqExpired (laneIx tp side))

/-- RESCUE_LOCK. -/
def execRescueLock (tp : Fin 64) (side : Side) (s : State) : Host.Outcome State Fault Refusal :=
  s.upd (fun d => d.rescued (laneIx tp side))

/-- T_RESCUE_EXPIRY: squelch (step 4). -/
def execTRescueExpiry (tp : Fin 64) (side : Side) (s : State) : Host.Outcome State Fault Refusal :=
  s.upd (fun d => if (d.lane (laneIx tp side)).tRescue then d.squelch (laneIx tp side) else d)

/-- SQUELCHED_LANE_LOCK. -/
def execSquelchedLaneLock (tp : Fin 64) (side : Side) (s : State) : Host.Outcome State Fault Refusal :=
  s.upd (fun d => d.unsquelch (laneIx tp side))

/-! ## Handovers (R89) -/

/-- The output multiplexer switches: the shadowing slice carries the lane, its phase `off`, in 1/64 UI, within 1/16 UI of the
other's, and no loss indication present (R90). A takeover puts the lane on the
flashing slice for a calibration, whose runs follow, or on WRITE the return at once; a return puts it back on its primary and releases the slice. -/
def Dev.handoverSwitch (d : Dev) (l : Nat) (off : Int) : Dev :=
  let fs := laneFs l
  if ! (d.lane l).loss.isEmpty ∨ 4 < off.natAbs then d
  else if d.cal.phase = .takeover ∧ d.calHolds l ∧ (d.lane l).tShadow then
    let d1 := ((d.fsSet fs 2 false true (lanePad l)).setOnFs l true).bump F.LN_CNT_RESCUE_COUNT l
    let d2 := d1.modLane l (fun x => { x with tShadow := false, slicePhase := off })
    let d3 := if d2.cal.op = 3 then
        ({ d2 with cal := { d2.cal with phase := .returning, code := 0 } }.wr0 F.CL_STS_STATE 3).modLane l
          (fun x => { x with returning := true, tShadow := true })
      else { d2 with cal := { d2.cal with phase := .measure } }.wr0 F.CL_STS_STATE 2
    (d3.setKs l 3).laneBoundary l
  else if (d.lane l).returning ∧ d.on F.LN_STS_ON_FS l ∧ d.ks l = 3 then
    let cal := decide (d.cal.phase = .returning) && d.calHolds l
    let code := d.cal.code
    let d1 := (d.modLane l (fun x => { x with returning := false, tShadow := false, slicePhase := 0 })).setOnFs l false
    let d2 := ((d1.fsRelease fs).setKs l 2).laneBoundary l
    if cal then d2.calEnd code else d2
  else d

/-- HANDOVER_SWITCH. -/
def execHandoverSwitch (tp : Fin 64) (side : Side) (phaseOffset : Int) (s : State) : Host.Outcome State Fault Refusal :=
  s.upd (fun d => d.handoverSwitch (laneIx tp side) phaseOffset)

/-- T_SHADOW_EXPIRY: the takeover is abandoned and its command ends with HANDOVER; a return repeats without
limit (R89, R294). -/
def execTShadowExpiry (tp : Fin 64) (side : Side) (s : State) : Host.Outcome State Fault Refusal :=
  s.upd (fun d =>
    let l := laneIx tp side
    if d.cal.phase = .takeover ∧ d.calHolds l ∧ (d.lane l).tShadow then
      d.takeoverEnd l
    else d)

/-! ## Slice faults and stand-ins (R64) -/

/-- SLICE_FAULT: the lane goes to Fault with FCODE 0x05 and claims its bay side's flashing slice for good; a
slice that already carries the lane in a rescue passes to the stand-in at once. -/
def execSliceFault (tp : Fin 64) (side : Side) (s : State) : Host.Outcome State Fault Refusal :=
  s.upd (fun d =>
    let l := laneIx tp side
    if (d.lane l).sliceFailed then d
    else
      let d1 := (d.modLane l (fun x => { x with sliceFailed := true, confirmed := d.now, loss := [], tReacq := false, tRescue := false })).laneFault tp 5
      if d1.on F.LN_STS_ON_FS l ∧ d1.fsOwner (laneFs l) = 1 then
        (d1.modLane l (fun x => { x with standIn := true, returning := false })).setKs l 3
      else
        let d2 := ((d1.calPreempt l).toPrimary l).wrc F.LN_STS_LOCK l 0
        let d3 := (d2.modLane l (fun x => { x with standInWait := true })).setKs l 9
        { d3 with standQ := d3.standQ ++ [l] })

/-- STAND_IN_GRANT: the claim of the bay side that was confirmed first takes the slice. -/
def execStandInGrant (bay : Fin 8) (side : Side) (s : State) : Host.Outcome State Fault Refusal :=
  s.upd (fun d =>
    let fs := bay.val + 8 * sideN side
    match d.standInNext fs with
    | none => d
    | some l =>
      match d.fsClaim l with
      | none => d
      | some d1 =>
        let d2 := d1.modLane l (fun x => { x with standInWait := false, standInAcq := true })
        { d2 with standQ := d2.standQ.filter (fun m => m ≠ l) })

/-- STAND_IN_LOCK: the stand-in carries the lane, with KSTATE Retime-Flashing and OWNER 1. -/
def execStandInLock (bay : Fin 8) (side : Side) (s : State) : Host.Outcome State Fault Refusal :=
  s.upd (fun d =>
    let fs := bay.val + 8 * sideN side
    let l := fsLane fs (d.rd F.LN_FS_STS_PAD fs)
    if (d.lane l).standInAcq then
      let d1 := d.modLane l (fun x => { x with standInAcq := false, standIn := true })
      let d2 := (d1.fsSet fs 1 false true (lanePad l)).onSlice l
      let d3 := (d2.wrc F.LN_STS_LOCK l 1).setTxIdle (laneOpp l) false
      if d3.ks l = 9 then d3.setKs l 3 else d3
    else d)

/-! ## Signal detect and Lane Idle (R58 to R63) -/

/-- Table 2.10: electrical idle on this lane may be Lane Idle entry. `lpi`: it follows low-power idle. -/
def Dev.idlePermitted (d : Dev) (l n : Nat) (lpi : Bool) : Bool :=
  match d.proto n with
  | .pcie => (d.lane l).eios
  | .eth => d.on F.CS_CTL_EEE n && (! d.decodedMode n || lpi)
  | _ => false

/-- Lane Idle entry (Table 2.11): adaptation frozen, the outbound transmitter idle, LN_CNT_IDLE counts. A
handover in progress is abandoned (R63); a calibration's lane goes to its primary at once (R295). -/
def Dev.laneIdleEntry (d : Dev) (l : Nat) : Dev :=
  let d1 := d.calAbortNow l
  let d2 := if d.calHolds l then d1.setOnFs l false else d1
  let d3 := d2.modLane l (fun x => { x with idleExit := false, eios := false, tShadow := false, loss := [] })
  let d4 := (d3.setTxIdle (laneOpp l) true).bump F.LN_CNT_IDLE_COUNT l
  ((d4.setKs l 7).laneIdleShown l).laneBoundary l

/-- Every lane of a side, of the trained width once it is known (R131), is in electrical idle that nothing announced (R127). -/
def Dev.sideUnannounced (d : Dev) (n : Nat) (s : Side) : Bool :=
  let ls := (d.policyTps n).map (fun tp => laneIx tp s)
  ! ls.isEmpty && ls.all (fun l => ! d.on F.LN_STS_SIGDET l && decide (d.ks l ≠ 7))

/-- Signal detect deasserts. -/
def Dev.signalLost (d : Dev) (l : Nat) (lpi : Bool) : Dev :=
  if ! d.on F.LN_STS_SIGDET l then d
  else
    let side := if l < 64 then Side.a else Side.b
    let d0 := d.wr F.LN_STS_SIGDET l 0
    match d0.laneCourse (laneTp l) with
    | none => d0
    | some n =>
      let ks := d0.ks l
      let pci := decide (d0.proto n = .pcie)
      let carrying := decide (ks = 2 ∨ ks = 3) || (pci && decide (ks = 1) && decide (d0.rd F.CS_STS_KSTATE n = 3))
      let outside := pci && decide (3 ≤ d0.rd F.CS_STS_KSTATE n ∧ ks ≠ 0 ∧ ks ≠ 7 ∧ ks ≠ 8 ∧ ks ≠ 9) && ! (d0.policyTps n).contains (laneTp l)
      if outside ∨ (carrying ∧ d0.idlePermitted l n lpi) ∨ (ks = 7 ∧ (d0.lane l).idleExit ∧ d0.idlePermitted l n lpi) then
        d0.laneIdleEntry l
      else if ks = 7 then
        if (d0.lane l).idleExit then
          -- the exit fails at once (R62)
          ((d0.laneFault (laneTp l) 7).modLane l (fun x => { x.indicate .idleExit with idleExit := false }))
        else d0
      else if ks = 4 ∨ ks = 5 then d0.squelch l
      else
        let d1 := if (! pci ∧ (ks = 2 ∨ ks = 3 ∨ d0.segState n side = 3)) ∨ (pci ∧ (ks = 2 ∨ ks = 3) ∧ d0.inService n) then (d0.modLane l (fun x => x.indicate .signal)).handoverCut l else d0
        let k := segIx n side
        let seg := d1.segState n side
        let eth := decide (d1.proto n = .eth)
        let watch := ! pci && (decide (seg = 2) || (eth && decide (seg = 3)) || (decide (seg = 1) && (! eth || d1.on F.CS_CTL_AN n)
          && decide (d1.lane0 n side = some l)))
        let d2 := if watch then d1.modSeg k (fun x => { x with silence := true }) else d1
        let d2 := if watch ∧ seg = 1 ∧ d2.proto n = .eth then d2.forwardIdle n side true else d2
        if pci then
          let d3 := if d2.rd F.CS_STS_KSTATE n = 3 then d2.setTxIdle (laneOpp l) true else d2
          if d3.sideUnannounced n side ∧ d3.rd F.CS_STS_KSTATE n ≠ 1 then d3.courseEval n { pciLost := true } else d3
        else d2

/-- Electrical idle that was forwarded on a lane of a PCI Express course in Train ends (R138). -/
def Dev.idleForwarded (d : Dev) (n l : Nat) : Dev :=
  if d.proto n = .pcie ∧ d.rd F.CS_STS_KSTATE n = 3 ∧ d.ks l ≠ 7 then d.setTxIdle (laneOpp l) false else d

/-- Signal detect asserts: Lane Idle exit starts, silence timers stop, and Table 3.7 is evaluated. -/
def Dev.signalFound (d : Dev) (l : Nat) : Dev :=
  if d.on F.LN_STS_SIGDET l then d
  else
    let side := if l < 64 then Side.a else Side.b
    let d0 := (d.wr F.LN_STS_SIGDET l 1).modLane l (fun x => x.clears [.signal])
    let d1 := if d0.ks l = 7 then (d0.ptAbort l).modLane l (fun x => { x with idleExit := true }) else d0
    let d2 :=
      if d1.on F.PW_WAKEEN_SIGDET ∧ d1.lane0 (d1.rd F.PW_WAKEEN_COURSE) side = some l
          ∧ d1.rd F.PW_DOM_STATE (rowA (laneBay l)) = 1 then d1.wake 3 (d1.rd F.PW_WAKEEN_COURSE) 0
      else d1
    match d2.laneCourse (laneTp l) with
    | none => d2
    | some n =>
      let k := segIx n side
      let quiet := if d2.segState n side = 1 then decide (d2.lane0 n side ≠ some l) && (d2.seg k).silence else d2.sideQuietAny n side
      let d3 := if (d2.seg k).silence ∧ ! quiet then d2.modSeg k (fun x => { x with silence := false }) else d2
      let d3 := d3.idleForwarded n l
      let d4 := if d3.segState n side = 1 ∧ d3.proto n = .eth ∧ d3.lane0 n side = some l then d3.forwardIdle n side false else d3
      d4.courseEval n

/-- SIGNAL_DETECT_ASSERT; not while the test port holds the part out of service (R383). -/
def execSignalDetectAssert (tp : Fin 64) (side : Side) (s : State) : Host.Outcome State Fault Refusal :=
  s.upd (fun d => if d.jtag.out then d else d.signalFound (laneIx tp side))

/-- SIGNAL_DETECT_DEASSERT. -/
def execSignalDetectDeassert (tp : Fin 64) (side : Side) (lpi : Bool) (s : State) : Host.Outcome State Fault Refusal :=
  s.upd (fun d => d.signalLost (laneIx tp side) lpi)

/-- LANE_IDLE_EXIT_LOCK: the transmitter resumes, its encoder's disparity negative (R50), and KSTATE returns to Retime (Table 2.12
step 4). -/
def execLaneIdleExitLock (tp : Fin 64) (side : Side) (s : State) : Host.Outcome State Fault Refusal :=
  s.upd (fun d =>
    let l := laneIx tp side
    if d.ks l = 7 ∧ (d.lane l).idleExit then
      let d1 := (d.modLane l (fun x => { x with idleExit := false, refreshed := true, txRd := false })).applyHeld (laneOpp l)
      let d2 := (d1.setTxIdle (laneOpp l) false).wrc F.LN_STS_LOCK l 1
      (d2.setKs l (if d2.on F.LN_STS_ON_FS l then 3 else 2)).laneIdleShown l
    else d)

/-- LANE_IDLE_EXIT_FAILURE: FCODE 0x07, and the loss sequence (R62). -/
def execLaneIdleExitFailure (tp : Fin 64) (side : Side) (s : State) : Host.Outcome State Fault Refusal :=
  s.upd (fun d =>
    let l := laneIx tp side
    if d.ks l = 7 ∧ (d.lane l).idleExit then
      (d.laneFault tp 7).modLane l (fun x => { x.indicate .idleExit with idleExit := false })
    else d)

/-- LANE_IDLE_QUIET_LIMIT: an Ethernet lane leaves Lane Idle with FCODE 0x07, as having lost signal (R60): its course in service,
it is a carried lane whose loss is to be confirmed, else one that acquires. -/
def execLaneIdleQuietLimit (tp : Fin 64) (side : Side) (s : State) : Host.Outcome State Fault Refusal :=
  s.upd (fun d =>
    let l := laneIx tp side
    let eth := (d.laneCourse tp).elim false (fun n => decide (d.proto n = .eth))
    if d.ks l = 7 ∧ eth ∧ ! (d.lane l).idleExit ∧ d.on F.LN_IDLE_TQ_TQ (laneBay l) then
      let served := (d.laneCourse tp).elim false (fun n => d.inService n)
      ((d.laneFault tp 7).modLane l (fun x => x.indicate .signal)).setKs l
        (if ! served then 1 else if d.on F.LN_STS_ON_FS l then 3 else 2)
    else d)

/-- A locked lane of a course still trains: in Detect or Negotiate, and in Train where the protocol trains beyond lock (an
Ethernet PHY type with training frames, PCI Express). -/
def Dev.laneTrains (d : Dev) (n : Nat) : Bool :=
  match d.rd F.CS_STS_KSTATE n with
  | 3 => match d.proto n with
    | .eth => decide (phyClause (d.rd F.CS_ETH_CFG_PHY n) ≠ 0)
    | .cpri => false
    | _ => true
  | ks => decide (ks = 1 ∨ ks = 2)

/-- LANE_ACQUIRE_LOCK: a lane in Acquire whose bay PLL is locked (R38) holds CDR lock, and goes to Retime unless it still trains (Table 2.14); in service its
transmitter resumes (R39). A pending indication clears. A 0x20 segment may become Ready by it (R107). -/
def execLaneAcquireLock (tp : Fin 64) (side : Side) (s : State) : Host.Outcome State Fault Refusal :=
  s.upd (fun d =>
    let l := laneIx tp side
    let d1 :=
      if (d.ks l = 1 ∨ d.ks l = 2 ∨ d.ks l = 3) ∧ d.on F.LN_STS_SIGDET l ∧ d.lanePllLocked l then
        (d.wrc F.LN_STS_LOCK l 1).modLane l (fun x => x.clears [.cdr, .codeGroup, .blockLock])
      else d
    match d1.laneCourse tp with
    | none => d1
    | some n =>
      let d2 :=
        if d1.ks l = 1 ∧ d1.on F.LN_STS_LOCK l ∧ ! d1.laneTrains n then
          (if d1.inService n then d1.setTxIdle (laneOpp l) false else d1).setKs l (if (d1.lane l).standIn then 3 else 2)
        else d1
      if d2.rd F.CS_STS_KSTATE n = 3 then (d2.segsReady n).courseEval n else d2)

/-- SYNTHESISER_LOCK: the Eaves tick moves back to REFCLK_A (R14). -/
def execSynthesiserLock (s : State) : Host.Outcome State Fault Refusal :=
  s.upd (fun d =>
    let r := d.ref 0
    if 1 ≤ r.id ∧ r.id ≤ 4 then { d with eaves := { d.eaves with onRef := true } } else d)

end Sys2Proof.Machine
end

