-- ==== Sys2Proof/Machine/Calibration.lean ====
section
/-! DEFINITION. Commands of the calibration sequencer (R286 to R301 of spec/12_calibration.md). -/
namespace Sys2Proof.Machine

/-- A kind, target and parameter within Table 12.1. -/
def calRangeOk (kind t param : Nat) : Bool :=
  match kind with
  | 0 | 3 => decide (t < 128)
  | 1 => decide (t < 8)
  | 2 => decide (t < 144)
  | 4 => decide (t < 16 ∧ 1 ≤ param ∧ param ≤ 10)
  | 5 => decide (t < 128) && (rateRow param).isSome
  | _ => false

/-- Fields of a kind (Table 12.13): count, bits of each and signed (Table 12.8). -/
def calFields (kind : Nat) : List (Nat × Bool) :=
  match kind with
  | 0 => [(5, false), (5, false)]
  | 1 => [(6, true), (6, true)]
  | 2 => List.replicate 8 (6, true)
  | 3 => List.replicate 17 (5, true)
  | 4 => [(6, false), (4, false)]
  | _ => [(24, false), (24, false)]

/-- Word and lowest bit of each field of a kind. -/
def calPlace (kind k : Nat) : Nat × Nat :=
  match kind with
  | 2 => if k < 5 then (0, 6 * k) else (1, 6 * (k - 5))
  | 3 => (k / 6, 5 * (k % 6))
  | 5 => (k, 0)
  | _ => (0, 8 * k)

/-- The words that hold a list of fields. -/
def calPack (kind : Nat) (vs : List Int) : List Nat :=
  (List.range 3).map (fun w =>
    (List.range (calFields kind).length).foldl (fun a k =>
      if (calPlace kind k).1 = w then a + unsigned ((calFields kind).getD k (0, false)).1 (vs.getD k 0) * 2 ^ (calPlace kind k).2 else a) 0)

/-- The words of CL_RES with unused bits at 0. -/
def Dev.calWritten (d : Dev) (kind : Nat) : List Nat :=
  calPack kind ((List.range (calFields kind).length).map (fun k =>
    ((bits (d.rd F.CL_RES_RES (calPlace kind k).1) (calPlace kind k).2 ((calFields kind).getD k (0, false)).1 : Nat) : Int)))

/-- A field within its converter's range (R300). -/
def calInRange (f : Nat × Bool) (v : Int) : Bool :=
  if f.2 then decide (-(2 ^ (f.1 - 1) : Int) ≤ v ∧ v < 2 ^ (f.1 - 1)) else decide (0 ≤ v ∧ v < 2 ^ f.1)

/-! ## Agreement (R293) -/

def maxOf (l : List Int) : Int := l.foldl max (l.headD 0)
def minOf (l : List Int) : Int := l.foldl min (l.headD 0)

/-- The run value nearest the mean, the lower in a tie: distances compared as |n × v − sum|. -/
def nearestMean (l : List Int) : Int :=
  let n : Int := (l.length : Nat)
  let s := l.foldl (· + ·) 0
  l.foldl (fun b v =>
    let dv := (n * v - s).natAbs
    let db := (n * b - s).natAbs
    if dv < db ∨ (dv = db ∧ v < b) then v else b) (l.headD 0)

/-- The mean rounded to the nearest count, ties up. -/
def meanRound (l : List Int) : Int :=
  let n : Int := (l.length : Nat)
  (2 * l.foldl (· + ·) 0 + n) / (2 * n)

/-- A field's value over the runs. -/
def fieldRuns (runs : List (List Int)) (k : Nat) : List Int := runs.map (fun r => r.getD k 0)

/-- The widest spread, and the first field that has it. -/
def widest (kind : Nat) (runs : List (List Int)) : Nat × Nat :=
  (List.range (calFields kind).length).foldl (fun b k =>
    let s := (maxOf (fieldRuns runs k) - minOf (fieldRuns runs k)).toNat
    if b.1 < s then (s, k) else b) (0, 0)

/-- The result of agreeing runs. -/
def calResult (kind : Nat) (runs : List (List Int)) : List Int :=
  (List.range (calFields kind).length).map (fun k => if kind = 5 then meanRound (fieldRuns runs k) else nearestMean (fieldRuns runs k))

/-! ## Preconditions (R292) -/

/-- The transceiver whose settings a kind depends on. -/
def Dev.calSettings (d : Dev) (kind t : Nat) : List Nat :=
  if (kind = 2 ∧ t < 128) ∨ kind = 3 ∨ kind = 5 then
    [d.rd F.LN_CTL_SWING t, d.rd F.LN_CTL_TX_INV t, d.rd F.LN_CTL_RX_INV t, d.word .LN_TX_FFE t, d.rd F.LN_RX_EQ_CTLE t, (d.lane t).rxRate]
  else []

/-- The first condition that the part's own state fails before a run, with NOREF where a reference is absent; 0 where none. -/
def Dev.calPre (d : Dev) : Nat × Nat :=
  let c := d.cal
  let ref := d.pllRef c.target
  if ! d.calState c.kind c.target c.param then (2, 1)
  else if c.kind = 4 ∧ pllNdiv c.param ref.id = 0 then (if ref.id = 0 then 3 else 2, 7)
  else if c.kind = 2 ∧ (if c.target < 128 then d.on F.LN_FS_STS_FAULT (laneFs c.target) && decide (d.ks c.target ≠ 0)
      else d.on F.LN_FS_STS_FAULT (c.target - 128)) then (2, 9)
  else (0, 0)

/-- The first condition of Table 12.5 that a run's check fails: outcome and PCOND, 0 where none. -/
def Dev.calCond (d : Dev) (r : CalRun) : Nat × Nat :=
  let c := d.cal
  let pre := d.calPre
  if pre.2 = 1 then pre
  else if (c.kind = 0 ∨ c.kind = 5) ∧ 20000 < r.input then (2, 2)
  else if c.kind = 2 ∧ 2000 < r.input then (2, 3)
  else if (c.kind = 0 ∨ c.kind = 1) ∧ r.vcal.toNat < 9000 then (3, 4)
  else if (c.kind = 0 ∨ c.kind = 1) ∧ ! (9980 ≤ r.vcal.toNat ∧ r.vcal.toNat ≤ 10020) then (2, 4)
  else if c.kind = 5 ∧ ! r.calref then (3, 5)
  else if c.kind = 5 ∧ 200 < r.fofs.toInt.natAbs then (2, 5)
  else if c.kind = 5 ∧ ! r.ppsIn then (3, 6)
  else if c.kind = 5 ∧ 50 < r.phase.toInt.natAbs then (2, 6)
  else if pre.2 = 7 then pre
  else if c.settings ≠ d.calSettings c.kind c.target then (2, 8)
  else pre

/-! ## Commands -/

/-- The command ends; a lane on the flashing slice returns to its primary first (R294). -/
def Dev.calFinish (d : Dev) (code : Nat) : Dev :=
  let t := d.cal.target
  if d.cal.kind = 2 ∧ t < 128 ∧ d.calHolds t ∧ d.on F.LN_STS_ON_FS t then
    let d1 := { d with cal := { d.cal with phase := .returning, code := code } }
    (if code = 0 ∧ d1.cal.apply then d1.wr0 F.CL_STS_STATE 3 else d1).modLane t
      (fun x => { x with returning := true, tShadow := true })
  else if d.cal.kind = 2 ∧ t < 128 ∧ d.calHolds t then
    ((d.modLane t (fun x => { x with tShadow := false })).fsRelease (laneFs t)).calEnd code
  else d.calEnd code

/-- Claims are held: STATE is Running, the preconditions are checked, and the target is isolated (steps 3 and 4 of Table 12.3).
A COFF command on a live lane begins its takeover; a WRITE with nothing to take over is applied at once. -/
def Dev.calRunning (d : Dev) : Dev :=
  let c := d.cal
  let live := decide (c.kind = 2 ∧ c.target < 128) && decide (d.ks c.target = 2)
  let d1 := (d.wr0 F.CL_STS_STATE 2)
  let pre := if c.op = 3 ∧ d1.calPre.2 ≠ 1 then (0, 0) else d1.calPre
  if pre.1 ≠ 0 then ((d1.wr0 F.CL_STS_PCOND pre.2).calFinish pre.1)
  else
    let d2 := { d1 with cal := { d1.cal with settings := d1.calSettings c.kind c.target } }
    if live then
      { d2 with cal := { d2.cal with phase := .takeover } }.modLane c.target (fun x => { x with tShadow := true })
    else if c.op = 3 then { d2 with cal := { d2.cal with phase := .measure } }.calEnd 0
    else { d2 with cal := { d2.cal with phase := .measure } }

/-- Step 2 of Table 12.3: the flashing slice of a live COFF lane is claimed from nobody or from margining; a rescue or stand-in
makes the command wait, or end with BUSY (R291). -/
def Dev.calClaim (d : Dev) : Dev :=
  let c := d.cal
  let live := decide (c.kind = 2 ∧ c.target < 128) && decide (d.ks c.target = 2)
  if ! live then d.calRunning
  else
    let fs := laneFs c.target
    let o := d.fsOwner fs
    if o = 0 ∨ o = 3 then
      let d1 := if o = 3 then d.marginStop (fsLane fs (d.rd F.LN_FS_STS_PAD fs)) false else d
      ({ d1 with cal := { d1.cal with phase := .takeover } }.fsSet fs 2 true false (lanePad c.target)).calRunning
    else if c.nowait then d.calEnd 1
    else { d with cal := { d.cal with phase := .claim } }

/-- A command is accepted while the sequencer is Idle (R289); a lane test on its transceiver ends Aborted (R295). -/
def Dev.calStart (d : Dev) (op kind t param : Nat) (nowait apply : Bool) (rept : Nat) : Dev :=
  if d.cal.phase ≠ .idle then d.wr0 F.CL_STS_WREJ 1
  else
    let d1 := (((d.wr0 F.CL_STS_RUNS 0).wr0 F.CL_STS_PCOND 0).wr0 F.CL_SPREAD_SPREAD 0).wr0 F.CL_SPREAD_FIELD 0
    let c : CalX := { d1.cal with op := op, kind := kind, target := t, param := param, nowait := nowait, apply := apply
                                  runsWanted := rept + 2, runs := [], code := 0, settings := [], result := [] }
    let d2 := { d1 with cal := c }
    if ! calRangeOk kind t param then
      -- no value is in force for such a target
      let d3 := (d2.wr0 F.CL_STS_CODE 8).setRes []
      let d4 := if d3.on F.CL_STS_DONE then d3 else (d3.wr0 F.CL_STS_DONE 1).alert 7
      d4
    else if op = 2 then (d2.setRes (d2.calValues kind t param)).calEnd 0
    else
      let d3 := if (kind = 0 ∨ kind = 5 ∨ kind = 2) ∧ t < 128 then d2.ptAbort t else d2
      let d4 := (d3.vote 7 (calRow kind t) true).wr0 F.CL_STS_STATE 1
      { d4 with cal := { d4.cal with phase := .claim, result := if op = 3 then d4.calWritten kind else [] } }.calClaim

/-- CL_MEASURE. -/
def execClMeasure (kind : Fin 8) (target : Fin 256) (nowait apply : Bool) (rept : Fin 8) (param : Fin 32) (s : State) :
    Host.Outcome State Fault Refusal :=
  s.upd (fun d => d.calStart 1 kind.val target.val param.val nowait apply rept.val)

/-- CL_READ. -/
def execClRead (kind : Fin 8) (target : Fin 256) (param : Fin 32) (s : State) : Host.Outcome State Fault Refusal :=
  s.upd (fun d => d.calStart 2 kind.val target.val param.val false false 0)

/-- CL_WRITE. -/
def execClWrite (kind : Fin 8) (target : Fin 256) (param : Fin 32) (s : State) : Host.Outcome State Fault Refusal :=
  s.upd (fun d => d.calStart 3 kind.val target.val param.val false true 0)

/-- CANCEL: the command ends ABORTED in any step, with the old trims in force (R290). -/
def Dev.calCancel (d : Dev) : Dev :=
  match d.cal.phase with
  | .idle => d
  | .returning => { d with cal := { d.cal with code := 5 } }
  | _ => d.calFinish 5

/-- CL_CANCEL. -/
def execClCancel (s : State) : Host.Outcome State Fault Refusal := s.upd Dev.calCancel

/-- CAL_SLICE_GRANT: the slice that a waiting COFF command needs is free. -/
def execCalSliceGrant (s : State) : Host.Outcome State Fault Refusal :=
  s.upd (fun d =>
    let o := d.fsOwner (laneFs d.cal.target)
    if d.cal.phase = .claim ∧ (o = 0 ∨ o = 3) then d.calClaim else d)

/-- INGD and EGRD by a TSDLY run (R297): the symbol crosses the ball at F_ref + Δ, F_ref being the edge's stamp less the input path's
factory constant. -/
def Dev.loopDelays (d : Dev) (m : List Int) : List Int :=
  let ball := m.getD 0 0 - (Config.calrefPath.toNat : Int) + m.getD 1 0
  [m.getD 4 0 + positionTerm d.cal.param (m.getD 5 0).toNat - (ball + ((Config.padLoop d.cal.target).toNat : Int)),
   ball - m.getD 2 0 - positionTerm d.cal.param (m.getD 3 0).toNat]

/-- The fields of a run. -/
def Dev.runFields (d : Dev) (r : CalRun) : List Int := if d.cal.kind = 5 then d.loopDelays r.fields else r.fields

/-- The last run is done: agreement, range, and the result (steps 6 to 8 of Table 12.3). -/
def Dev.calAgree (d : Dev) : Dev :=
  let c := d.cal
  let w := widest c.kind c.runs
  let d1 := (d.wr0 F.CL_SPREAD_SPREAD w.1).wr0 F.CL_SPREAD_FIELD w.2
  if (if c.kind = 5 then 4 else 1) < w.1 then d1.calFinish 4
  else
    let vs := calResult c.kind c.runs
    if ! (List.zipWith calInRange (calFields c.kind) vs).all id then d1.calFinish 7
    else
      let ws := calPack c.kind vs
      { d1.setRes ws with cal := { d1.cal with result := ws } }.calFinish 0

/-- What the reference monitors show. -/
def Dev.calMonitors (d : Dev) (r : CalRun) : Dev :=
  let d1 := (d.wrc F.CL_VCAL_VCAL 0 r.vcal.toNat).wrc F.CL_CALREF_PHASE 0 r.phase.toNat
  ((d1.wrc F.CL_CALREF_PRESENT 0 (b2n r.calref)).wrc F.CL_CALREF_PPSPRES 0 (b2n r.ppsIn)).wrc F.CL_CALREF_FOFS 0 r.fofs.toNat

/-- CAL_RUN_COMPLETE: the conditions are checked again, and the next run or the agreement test follows. A target that left its
state during a run aborts the command (R295). -/
def execCalRunComplete (run : CalRun) (s : State) : Host.Outcome State Fault Refusal :=
  s.upd (fun d =>
    if d.cal.phase ≠ .measure then d
    else
      let d1 := d.calMonitors run
      let c := d1.calCond run
      if c.2 = 1 ∧ ! (run.before ∧ d1.cal.runs = []) then d1.calFinish 5
      else if c.1 ≠ 0 then (d1.wr0 F.CL_STS_PCOND c.2).calFinish c.1
      else if run.before then d1
      else
        let d2 := { d1 with cal := { d1.cal with runs := d1.cal.runs ++ [d1.runFields run] } }
        let d3 := d2.wr0 F.CL_STS_RUNS d2.cal.runs.length
        if d3.cal.runs.length < d3.cal.runsWanted then d3 else d3.calAgree)

end Sys2Proof.Machine
end

