-- ==== Sys2Proof/Machine/Unit.lean ====
section
/-! DEFINITION. Publication of group results (R23 to R26 of spec/01_architecture.md). -/
namespace Sys2Proof.Machine

/-- The PW_DOM state of a Domain Group's row by its policy result (Table 14.23). -/
def groupRowState (h : Nat) : Nat :=
  match h with | 0 => 2 | 1 => 2 | 2 => 1 | 4 => 3 | _ => 0

/-- The policy result of a Queue Group or Domain Group over its members (R23). -/
def Dev.groupPolicy (d : Dev) (g : Nat) : Nat :=
  let a := d.rd F.UD_STATE_ACTIVE g
  policyResult (d.rd F.UD_IDENT_POLICY g) (d.rd F.UD_STATE_QUORUM g) ((d.members g).map d.unitHealth)
    (if a = 0 then none else some (d.unitHealth a))

/-- A Select group with AUTO set switches its active member (R24). -/
def Dev.groupSwitch (d : Dev) (g : Nat) : Dev :=
  if d.rd F.UD_IDENT_POLICY g = 3 ∧ d.on F.UD_IDENT_AUTO g then
    match autoSwitch d.unitHealth (d.members g) (d.rd F.UD_STATE_ACTIVE g) with
    | some m => d.wr F.UD_STATE_ACTIVE g m
    | none => d
  else d

/-- The owner of a unit publishes it (R25): a course evaluates Table 3.7 with its policy result, a group its
policy, a lane and a power domain its state. -/
def Dev.publishUnit (d : Dev) (id : Nat) : Dev :=
  match d.rd F.UD_IDENT_KIND id with
  | 1 => if 0x040 ≤ id ∧ id < 0x080 then d.laneRefresh (id - 0x040) else d
  | 2 => if 0x200 ≤ id ∧ id < 0x400 then d.courseEval (id - 0x200) else d
  | 7 =>
    let st := d.rd F.PW_DOM_STATE (d.rd F.UD_INDEX_INDEX id)
    d.publish id st (domHealth st)
  | 6 =>
    let d1 := d.groupSwitch id
    let en := d1.rd F.PU_GCFG_EN (d1.rd F.UD_INDEX_INDEX id)
    d1.publish id en (d1.groupPolicy id)
  | 8 =>
    let d1 := d.groupSwitch id
    let h := d1.groupPolicy id
    let d2 := d1.wrc F.PW_DOM_STATE (d1.rd F.UD_VOTE_DOMAIN id) (groupRowState h)
    d2.publish id (groupRowState h) h
  | _ => d

end Sys2Proof.Machine
end

