-- ==== Sys2Proof/Machine/Snapshot.lean ====
section
/-! DEFINITION. Commands of the Ridge Trigger and the snapshot slots (R312 to R318 of
spec/13_self_test_snapshot.md). -/
namespace Sys2Proof.Machine

/-- SNAP_IN_EDGE: the active edge per SN_CTL.INPOL fires source 1. -/
def execSnapInEdge (rising : Bool) (s : State) : Host.Outcome State Fault Refusal :=
  s.upd (fun d => if rising = d.on F.SN_CTL_INPOL then d else d.fire 1)

/-- SN_FIRE. -/
def execSnFire (s : State) : Host.Outcome State Fault Refusal := s.upd (fun d => d.fire 2)

/-- The match time of SN_MATCH_*, in 1/65,536 ns. -/
def Dev.matchTime (d : Dev) : Nat :=
  ((d.rd F.SN_MATCH_S_HI_V * 2 ^ 32 + d.rd F.SN_MATCH_S_LO_V) * 1000000000 + d.rd F.SN_MATCH_NS_V) * 65536

/-- The PTP-time match source fires on the first tick on which the time is at or after the match time (R317). -/
def Dev.matchCheck (d : Dev) : Dev :=
  if d.on F.SN_CTL_MATCH_EN && d.domOn rowAT && decide (d.matchTime ≤ d.time) then (d.wr0 F.SN_CTL_MATCH_EN 0).fire 3 else d

/-- TIME_MATCH. -/
def execTimeMatch (s : State) : Host.Outcome State Fault Refusal := s.upd Dev.matchCheck

/-- SNAP_OUT_PULSE_END. -/
def execSnapOutPulseEnd (s : State) : Host.Outcome State Fault Refusal :=
  s.upd (fun d => { d with trig := { d.trig with snapOut := false } })

/-- UD_SNAP_ARM: ARMED of a unit's slot is written 1. -/
def execUdSnapArm (id : Fin 4096) (s : State) : Host.Outcome State Fault Refusal :=
  s.upd (fun d => if d.rd F.UD_IDENT_KIND id.val = 0 then d else d.armSlot id.val)

/-- Every unit's slot and every block slot. -/
def Dev.allSlots (d : Dev) : List Nat :=
  (List.range 4096).filter (fun id => decide (d.rd F.UD_IDENT_KIND id ≠ 0)) ++ (List.range 7).map (fun b => 4096 + b)

/-- SN_ARMALL. -/
def execSnArmall (s : State) : Host.Outcome State Fault Refusal := s.upd (fun d => d.each d.allSlots (fun k d => d.armSlot k))

end Sys2Proof.Machine
end

