-- ==== Sys2Proof/Machine/EngineCore.lean ====
section
/-! DEFINITION. The timing engine: Tables 7.1 and 7.3, the servo and the ensemble (R169 to R179 of
spec/07_holdover_services.md). Time errors are in 1/65,536 ns, FREE values unwrapped in 1/1024 ns. -/
namespace Sys2Proof.Machine

def Dev.modEng (d : Dev) (g : EngX → EngX) : Dev := { d with eng := g d.eng }
def Dev.slot (d : Dev) (k : Nat) : SlotX := d.eng.slots.at k {}
def Dev.modSlot (d : Dev) (k : Nat) (g : SlotX → SlotX) : Dev :=
  d.modEng (fun e => { e with slots := e.slots.put k (g (d.slot k)) })

/-- The engine may write the timebase (R169). -/
def Dev.engOn (d : Dev) : Bool :=
  d.on F.TS_CTL_ENABLE && d.on F.TB_STS_MODE && ! d.on F.TB_CTL_OWNER && d.domOn rowAT

/-- The engine takes a state: alert TIMING (Table 17.3); TS_HOLD_T clears in Locked and Free-run (R172). -/
def Dev.setEng (d : Dev) (st : Nat) : Dev :=
  let d1 := if d.engState = st then d else (d.wr F.TS_STS_STATE 0 st).alert 10
  let d2 := if st = 2 ∨ st = 0 then d1.wrc F.TS_HOLD_T_HOLD_T 0 0 else d1
  d2.modEng (fun e => { e with lockRun := none, holdNs := if st = 2 ∨ st = 0 then 0 else e.holdNs })

/-- TB_ADJ.RATE, signed. -/
def Dev.rate (d : Dev) : Int := signed 32 (d.rd F.TB_ADJ_RATE)

/-- The engine writes TB_ADJ.RATE. -/
def Dev.setRate (d : Dev) (r : Int) : Dev :=
  let v := clampInt (-2147483648) 2147483647 r
  (d.wrc F.TB_ADJ_RATE 0 (unsigned 32 v)).modEng (fun e => { e with rates := (d.freeU, v) :: e.rates })

/-- One act of the servo (R171): TE in ns, dt in s. -/
def Dev.servo (d : Dev) (te dt : Q) (tau : Nat) : Dev :=
  let lim : Q := Q.of 2147483648 65536
  let slew : Q := Q.int ((d.rd F.TS_SERVO_SLEW * 100 : Nat) : Int)
  let f := Q.clamp lim.neg (Q.of 2147483647 65536) (d.eng.f.sub ((te.mul dt).div (Q.int ((tau * tau : Nat) : Int))))
  let a := Q.clamp slew.neg slew ((te.neg).div (Q.int (tau : Int)))
  (d.modEng (fun e => { e with f := f })).setRate (((f.add a).mul (Q.int 65536)).round)

/-- The servo's start on a new reference: F from the RATE in force (R171). -/
def Dev.servoStart (d : Dev) : Dev :=
  d.modEng (fun e => { e with f := Q.of d.rate 65536, lastUsed := none })

/-- Write TS_TE, saturating. -/
def Dev.showTe (d : Dev) (te : Int) : Dev :=
  d.wrc F.TS_TE_TE 0 (unsigned 32 (clampInt (-2147483648) 2147483647 (te / 64)))

/-- OFS changes by an amount, and TB_STS.STEPPED and the Dormer's interval note it (R148, R276). -/
def Dev.stepTime (d : Dev) (by_ : Int) : Dev :=
  ({ d with tb := { d.tb with ofs := d.tb.ofs + by_ }, dm := { d.dm with stepped := d.dm.running || d.dm.stepped } }.wr0
    F.TB_STS_STEPPED 1).matchCheck

/-- The engine removes a time error at once, by a LOAD from 1 s on, else a STEP: either takes TE off OFS and
leaves FREE alone (R171, R148). One that would take the seconds below 0 is discarded. -/
def Dev.engJump (d : Dev) (te : Int) : Dev :=
  if ((d.time : Nat) : Int) - te < 0 then d.wr0 F.TB_STS_WREJ 1
  else d.stepTime (-te)

/-- A time reference is enabled and qualified: 1 PPS_IN, 2 PTP. -/
def Dev.refQual (d : Dev) (r : Nat) : Bool :=
  if r = 1 then d.on F.TS_CTL_PPS_EN && d.on F.TS_STS_PPSQ
  else if r = 2 then d.on F.TS_CTL_PTP_EN && d.on F.TS_STS_PTPQ
  else false

/-- The qualified time reference of highest priority (TS_CTL.TPRIO). -/
def Dev.bestRef (d : Dev) : Option Nat :=
  let fst := if d.on F.TS_CTL_TPRIO then 2 else 1
  if d.refQual fst then some fst else if d.refQual (3 - fst) then some (3 - fst) else none

def Dev.teOf (d : Dev) (r : Nat) : Int := if r = 1 then d.eng.ppsTe else d.eng.ptpTe

/-- Entry to Acquiring on reference `r` (R171). -/
def Dev.acquire (d : Dev) (r : Nat) : Dev :=
  let st := d.engState
  let te := d.teOf r
  let thr : Int := ((d.rd F.TS_SERVO_STEPTHR * 100 * 65536 : Nat) : Int)
  let jump := decide (thr < (te.natAbs : Int)) && (decide (st = 0 ∨ st = 5) || d.on F.TS_CTL_STEPANY)
  let cls := d.clockClass
  let d1 := ((d.wrc F.TS_STS_ACTREF 0 r).wrc F.TS_STS_SYNT 0 0).showTe te
  let d2 := if jump then d1.engJump te else d1
  let d3 := d2.modEng (fun e =>
    { e with lastRef := r, cls := cls, fromFree := if st = 1 then e.fromFree else decide (st = 0)
             synSlot := none, synRef := none, rates := if st = 2 ∨ st = 1 then e.rates else (d.freeU, d.rate) :: (if st = 0 then [] else e.rates) })
  (d3.servoStart).setEng 1

/-- Seconds at which a holdover state ends (Table 7.1). -/
def Dev.holdLimit (d : Dev) (st : Nat) : Nat :=
  if st = 3 then d.rd F.TS_HOLD_CFG_ENS_LIMIT * 3600 else d.rd F.TS_HOLD_CFG_LOC_LIMIT * 60

/-- The mean of TB_ADJ.RATE over the HAVG that ends when the newest value was set (R172): each value weighs as
long as it held. -/
def freqMean (from_ upto : Nat) : List (Nat × Int) → Int × Nat
  | [] => (0, 0)
  | (t, r) :: rest =>
    let a := max t from_
    let held := upto - a
    let m := freqMean from_ (min upto a) rest
    (m.1 + r * held, m.2 + held)

def Dev.freqMemory (d : Dev) : Int × Bool :=
  match d.eng.rates with
  | [] => (Config.freqMemory d.draws, true)
  | (t, r) :: rest =>
    let havg := d.rd F.TS_HOLD_CFG_HAVG * 10 * 1000000000 * 1024
    let m := freqMean (t - havg) t ((t, r) :: rest)
    if m.2 = 0 then (Config.freqMemory d.draws, true) else ((Q.of m.1 m.2).round, false)

/-- zg of a group: the mean of z over its slots, in ns. -/
def Dev.groupZ (d : Dev) (g : GroupX) : Q :=
  Q.of ((g.slots.map (fun k => (d.slot k).z)).foldl (· + ·) 0) (1024 * g.slots.length)

/-- p of R179, t seconds into holdover. -/
def Dev.ensembleP (d : Dev) (gs : List GroupX) (t : Nat) : Q :=
  let term (g : GroupX) : Q := g.w.mul (((d.groupZ g).sub g.a).sub (g.f.mul (Q.int (t : Int))))
  (Q.sum (gs.map term)).div (Q.sum (gs.map (fun g => g.w)))

/-- NMEM, NGRP, and each slot's GROUP and WEIGHT follow the members and groups. -/
def Dev.showEnsemble (d : Dev) : Dev :=
  let members := (List.range 16).filter (fun k => d.on F.TS_LREF_STS_MEMBER k)
  let total := Q.sum (d.eng.groups.map (fun g => g.w))
  let d1 := (d.wrc F.TS_STS_NMEM 0 members.length).wrc F.TS_STS_NGRP 0 d.eng.groups.length
  d1.each (List.range 16) (fun k d =>
    match d.eng.groups.find? (fun g => g.slots.contains k) with
    | some g =>
      let wt := ((g.w.mul (Q.int 256)).div total).round.toNat
      (d.wrc F.TS_LREF_STS_GROUP k (g.slots.foldl min 16)).wrc F.TS_LREF_STS_WEIGHT k (min 256 wt)
    | none => d.wrc F.TS_LREF_STS_WEIGHT k 0)

/-- Entry to a holdover state or Free-run when the last time reference is lost (R172). -/
def Dev.holdover (d : Dev) : Dev :=
  let ens := decide (1 ≤ d.rd F.TS_CTL_MINGRP ∧ d.rd F.TS_CTL_MINGRP ≤ d.eng.groups.length)
  let loc := d.on F.TS_STS_FMEM
  let follow := if ens then 3 else if loc then 4 else 0
  let d1 := d.wrc F.TS_STS_ACTREF 0 0
  if follow = 0 then d1.setEng 0
  else if d.holdLimit follow ≤ d.rd F.TS_HOLD_T_HOLD_T then d1.setEng 5
  else if follow = 3 then
    let d2 := d1.modEng (fun e => { e with ensT := 0, groups := e.groups.map (fun g => { g with a := d.groupZ g }) })
    (d2.setEng 3).fire 5
  else
    let m := d1.freqMemory
    let d2 := (if m.2 then d1.draw else d1).setRate m.1
    (d2.setEng 4).fire 5

/-- The topmost row of Table 7.1 that applies to the state and its inputs, with what it does. -/
def Dev.engRow (d : Dev) : Option Dev :=
  let st := d.engState
  if st ≠ 0 ∧ ! d.engOn then some (((d.wrc F.TS_STS_FMEM 0 0).wrc F.TS_STS_ACTREF 0 0).setEng 0)
  else if st = 0 ∨ st = 3 ∨ st = 4 ∨ st = 5 then
    match (if d.engOn then d.bestRef else none) with
    | some r => some (d.acquire r)
    | none =>
      if st = 3 ∧ d.rd F.TS_STS_NMEM = 0 then some (d.setEng 4)
      else if (st = 3 ∨ st = 4) ∧ d.holdLimit st ≤ d.rd F.TS_HOLD_T_HOLD_T then some (d.setEng 5) else none
  else if d.refQual (d.rd F.TS_STS_ACTREF) then none
  else
    match d.bestRef with
    | some r => some (d.acquire r)
    | none => some d.holdover

def Dev.engRun (d : Dev) (fuel : Nat) : Dev :=
  match fuel with
  | 0 => d
  | fuel + 1 => match d.engRow with | none => d | some d' => d'.engRun fuel

/-- Steering to a line slot in Free-run (R176): the qualified slot with the lowest number. -/
def Dev.synEval (d : Dev) : Dev :=
  let want := if d.engState = 0 ∧ d.engOn then (List.range 16).find? (fun k => d.on F.TS_LREF_STS_QUAL k) else none
  if d.eng.synSlot = want then d
  else
    let d1 := (d.modEng (fun e => { e with synSlot := want, synRef := none })).servoStart
    d1.wrc F.TS_STS_SYNT 0 (b2n want.isSome)

/-- Evaluate Table 7.1 on a change of its inputs (R170). -/
def Dev.engEval (d : Dev) : Dev := (d.engRun 8).synEval

/-! ## Time samples -/

/-- A measured TE of the active reference: shown, timed against LOCKWIN, and used by the servo where `use`. -/
def Dev.teSample (d : Dev) (te : Int) (use : Bool) : Dev :=
  let st := d.engState
  let within := decide ((te.natAbs : Int) ≤ ((d.rd F.TS_SERVO_LOCKWIN * 65536 : Nat) : Int))
  let d1 := (d.showTe te).modEng (fun e =>
    { e with lockRun := if st = 1 then (if within then some true else none)
                        else if st = 2 then (if within then none else some false) else none })
  if use then
    let tau := if st = 1 then 10 else if d.rd F.TS_STS_ACTREF = 1 then 1000 else 100
    let dt := match d.eng.lastUsed with | none => Q.int 1 | some t => Q.of (((d.freeU - t : Nat)) : Int) (1024 * 1000000000)
    (d1.servo (Q.of te 65536) dt tau).modEng (fun e => { e with lastUsed := some d.freeU })
  else d1

/-- The engine is following this reference. -/
def Dev.following (d : Dev) (r : Nat) : Bool :=
  decide ((d.engState = 1 ∨ d.engState = 2) ∧ d.rd F.TS_STS_ACTREF = r)

/-! ## PPS_IN (R173, R174) -/

def Dev.ppsDisqualify (d : Dev) : Dev :=
  ((d.modEng (fun e => { e with ppsCount := 0 })).wrc F.TS_STS_PPSQ 0 0).engEval

/-- A period of 1 s within 1 µs, in 1/1024 ns. -/
def goodPeriod (p : Nat) : Bool := decide (999999000 * 1024 ≤ p ∧ p ≤ 1000001000 * 1024)

/-- A pulse on PPS_IN that marks a second: latched; its period checked. The first pulse of a run has no period. -/
def Dev.ppsPulse (d : Dev) (interp : Nat) : Dev :=
  let t := d.freeU + interp
  let good := d.eng.ppsFree.elim false (fun t0 => goodPeriod (t - t0))
  let fresh := ! good || ! d.eng.ppsNamed
  let bad := if good then 0 else if d.eng.ppsFree.isNone then d.eng.ppsBad else d.eng.ppsBad + 1
  let qual := d.on F.TS_STS_PPSQ
  let d1 := d.modEng (fun e =>
    { e with ppsFree := some t, ppsTime := ((d.time + interp * 64 : Nat) : Int), ppsNamed := false, ppsGood := good || d.eng.ppsFree.isNone
             ppsBad := bad, ppsCount := if fresh ∧ ! qual then 0 else e.ppsCount
             ppsSec := if fresh ∧ ! qual then none else e.ppsSec.map (· + 1) })
  if qual ∧ 2 ≤ bad then d1.ppsDisqualify else d1

/-- A time message: from 1 ms to 900 ms after a pulse it names that pulse; valid where it decodes with a clock
class of at most MINQL. -/
def Dev.ppsMessage (d : Dev) (m : TimeMessage) : Dev :=
  if d.eng.ppsFree.isNone ∨ m.sinceUs < 1000 ∨ 900000 < m.sinceUs then d
  else if ! m.decodes ∨ d.rd F.TS_PPS_IN_MINQL < m.clockClass.toNat then d
  else
    let sec := m.second.toNat
    let te := d.eng.ppsTime - ((sec * 1000000000 * 65536 : Nat) : Int)
    let step := d.eng.ppsSec.elim true (fun e => decide (e = sec))
    if d.eng.ppsNamed ∧ step then d
    else
      let n := if ! d.eng.ppsGood then 0 else if step then d.eng.ppsCount + 1 else 1
      let d1 := d.modEng (fun e => { e with ppsNamed := true, ppsSec := some sec, ppsTe := te, ppsCount := min 255 n })
      if ! step ∧ d.on F.TS_STS_PPSQ then (d1.wrc F.TS_STS_PPSQ 0 0).engEval
      else if d.on F.TS_STS_PPSQ then
        if d1.following 1 then d1.teSample te d.eng.ppsGood else d1
      else if d.on F.TS_CTL_PPS_EN ∧ max 1 (d.rd F.TS_PPS_IN_QUALN) ≤ n then
        let d2 := d1.wrc F.TS_STS_PPSQ 0 1
        if d2.following 1 then d2 else d2.engEval
      else d1

/-! ## PTP (R174, R194) -/

def Dev.ptpDisqualify (d : Dev) : Dev :=
  ((d.modEng (fun e => { e with ptpSince := none, ptpMoved := false })).wrc F.TS_STS_PTPQ 0 0).engEval

/-- A service runs: its region is On and serving. -/
def Dev.svcRuns (d : Dev) (k : Nat) : Bool :=
  let r := d.rd F.TS_SVC_STS_REGION k
  decide (d.rd F.TS_SVC_STS_KIND k ≠ 0) && d.domOn (rowL r)
    && decide (d.rd F.UD_STATE_KSTATE (0x080 + r) = 2 ∨ d.rd F.UD_STATE_KSTATE (0x080 + r) = 3)

/-- The Select Aggregate ports of the engine's PTP service, each with its active member. -/
def Dev.ptpPorts (d : Dev) : List (Nat × Nat) :=
  (d.usedCourses.filter (fun n => decide (d.rd F.CS_CTL_ROLE n = 1 ∧ d.boundService n = some (d.rd F.TS_CTL_PTPSVC)))).map
    (fun n => (n, d.rd F.CS_SEL_ACTIVE n))

/-- An offset sample of the PTP service. From a change of a port's active member until a new offset is held the service sends VALID = 0, which
disqualifies the reference only where it takes 3 s (R195; log entry 84). -/
def Dev.ptpSample (d0 : Dev) (offset delay : Int) (valid : Bool) (cls : Nat) : Dev :=
  let ports := d0.ptpPorts
  let moved := d0.eng.ptpMoved || decide (ports ≠ d0.eng.ptpPorts ∧ d0.on F.TS_STS_PTPQ)
  let d := d0.modEng (fun e => { e with ptpPorts := ports, ptpMoved := moved && ! valid })
  let h := d.rd F.TS_SVC_STS_HEALTH (d.rd F.TS_CTL_PTPSVC)
  if ! valid ∧ moved ∧ h ≠ 3 ∧ h ≠ 4 then d
  else if ! valid ∨ h = 3 ∨ h = 4 then d.ptpDisqualify
  else
    let since := d.eng.ptpSince.getD d.freeU
    let d1 := d.modEng (fun e => { e with ptpSince := some since, ptpTe := offset, pathDelay := delay, parentCls := cls })
    if d.on F.TS_STS_PTPQ then
      if d1.following 2 then d1.teSample offset true else d1
    else if d.on F.TS_CTL_PTP_EN ∧ max 1 (d.rd F.TS_PPS_IN_QUALN) * 1000000000 * 1024 ≤ d.freeU - since then
      (d1.wrc F.TS_STS_PTPQ 0 1).engEval
    else d1

/-! ## Line slots (R174, R177) -/

/-- A course that may serve a line reference. -/
def Dev.timingCourse (d : Dev) (n : Nat) : Bool :=
  decide ((d.proto n = .eth ∨ d.proto n = .cpri) ∧ (d.rd F.CS_CTL_ROLE n = 0 ∨ d.rd F.CS_CTL_ROLE n = 2))
    && d.on F.CS_CTL_TIMING n

/-- The course that a slot measures: its own, or the active member of a Select Aggregate of such courses. -/
def Dev.slotCourse (d : Dev) (k : Nat) : Option Nat :=
  let n := d.rd F.TS_LREF_CTL_COURSE k
  if d.rd F.CS_CTL_ROLE n = 1 then
    let u := 0x200 + n
    let kids := d.usedCourses.filter (fun m => decide (d.rd F.UD_IDENT_PARENT (0x200 + m) = u))
    let a := d.rd F.CS_SEL_ACTIVE n
    if d.rd F.UD_IDENT_POLICY u = 3 ∧ kids.all d.timingCourse ∧ 0x200 ≤ a ∧ a < 0x400 then some (a - 0x200) else none
  else if d.timingCourse n then some n
  else none

/-- The qualifying conditions of a line slot (Table 7.3), WTR apart. -/
def Dev.slotOk (d : Dev) (k : Nat) : Bool :=
  d.on F.TS_LREF_CTL_EN k && (d.slot k).freqOk
    && (d.slotCourse k).elim false (fun n =>
      decide (d.rd F.CS_STS_KSTATE n = 4 ∨ d.rd F.CS_STS_KSTATE n = 5)
        && (d.logicalTp n 0).elim false (fun tp =>
          let l := tp + 64 * d.rd F.TS_LREF_CTL_SIDE k
          decide (d.rd F.LN_STS_KSTATE l = 2 ∨ d.rd F.LN_STS_KSTATE l = 3)))
    && (! d.on F.TS_LREF_CTL_QLREQ k
      || ((d.slot k).qlTold && ! d.on F.TS_LREF_STS_QLFAIL k && decide (d.rd F.TS_LREF_STS_QL k ≤ d.rd F.TS_LREF_CTL_MINQL k)
          && decide (d.rd F.TS_LREF_STS_QL k ≠ 0xF)))

/-- A member leaves its group; in Holdover-Ensemble every remaining anchor moves by one constant so that p does
not change (R179). -/
def Dev.leaveGroup (d : Dev) (k : Nat) : Dev :=
  let old := d.eng.groups
  let gs := (old.map (fun g => { g with slots := g.slots.filter (· ≠ k) })).filter (fun g => ! g.slots.isEmpty)
  let c := if d.engState = 3 then (d.ensembleP gs d.eng.ensT).sub (d.ensembleP old d.eng.ensT) else {}
  if gs = old then d
  else d.modEng (fun e => { e with groups := gs.map (fun g => { g with a := g.a.add c }) })

/-- A slot is disqualified: its WTR starts again and its membership ends. -/
def Dev.slotDisqualify (d : Dev) (k : Nat) : Dev :=
  let d1 := (d.wrc F.TS_LREF_STS_QUAL k 0).modSlot k (fun x => { x with wtr := false, hist := [] })
  if d1.on F.TS_LREF_STS_MEMBER k then ((d1.wrc F.TS_LREF_STS_MEMBER k 0).leaveGroup k).showEnsemble else d1

/-- Compare a slot with its qualifying conditions. -/
def Dev.slotEval (d : Dev) (k : Nat) : Dev :=
  let c := d.slotCourse k
  let moved := decide ((d.slot k).course ≠ c)
  let d1 := if moved then (if d.on F.TS_LREF_STS_QUAL k ∨ (d.slot k).wtr then d.slotDisqualify k else d).modSlot k
      (fun x => { x with course := c, freqOk := false, qlTold := false }) else d
  if d1.slotOk k then
    if d1.on F.TS_LREF_STS_QUAL k ∨ (d1.slot k).wtr then d1 else d1.modSlot k (fun x => { x with wtr := true })
  else if d1.on F.TS_LREF_STS_QUAL k ∨ (d1.slot k).wtr then d1.slotDisqualify k
  else d1

/-- The slots in use. -/
def Dev.usedSlots (d : Dev) : List Nat := (List.range 16).filter (fun k => d.on F.TS_LREF_CTL_EN k || d.on F.TS_LREF_STS_QUAL k)

/-- Evaluate every slot in use, and the engine after them. -/
def Dev.slotsEval (d : Dev) : Dev := (d.each d.usedSlots (fun k d => d.slotEval k)).engEval

/-- A tick of the timebase clock, which clocks the engine (R169): it sees the courses and lanes that its slots watch as they now stand
(R174, R177). -/
def Dev.slotsFollow (d : Dev) : Dev :=
  if ! d.domOn rowAT ∨ d.usedSlots.isEmpty then d else d.slotsEval

/-! ## The ensemble (R178, R179) -/

def sumInt (xs : List Int) : Int := xs.foldl (· + ·) 0

/-- Differences over `n` seconds of a series of seconds and values, newest first: each second whose value `n` seconds earlier is held. -/
def differences (n : Nat) (xs : List (Nat × Int)) : List (Nat × Int) :=
  xs.filterMap (fun p => (xs.find? (fun q => decide (q.1 + n = p.1))).map (fun q => (p.1, p.2 - q.2)))

/-- The seconds of d[i] of R178 in the last 1,000 s to `now`, less their mean: times their number, so that the mean is whole. -/
def slotDiffs (now : Nat) (hist : List (Nat × Int × Int)) : List (Nat × Int) :=
  let ds := (differences 10 (hist.map (fun h => (h.1, h.2.1)))).filter (fun p => decide (now < p.1 + 1000))
  let s := sumInt (ds.map (fun p => p.2))
  ds.map (fun p => (p.1, p.2 * ds.length - s))

/-- Products summed over the seconds that two series share. -/
def dotProd (a b : List (Nat × Int)) : Int :=
  sumInt (a.map (fun p => p.2 * ((b.find? (fun q => decide (q.1 = p.1))).elim 0 (fun q => q.2))))

/-- rho > 0.8 for two members; a quotient 0/0 is free. -/
def Dev.correlate (d : Dev) (i j : Nat) : Bool :=
  let a := slotDiffs d.eng.sec (d.slot i).hist
  let b := slotDiffs d.eng.sec (d.slot j).hist
  let num := dotProd a b
  let den := dotProd a a * dotProd b b
  if den = 0 then Config.flatCorrelation d.draws i j else decide (0 < num ∧ 16 * den < 25 * (num * num))

/-- Merge the groups of every correlated pair: the partition of the members. -/
def Dev.partition (d : Dev) (members : List Nat) : List (List Nat) :=
  let pairs := (members.map (fun i => (members.filter (fun j => decide (i < j))).map (fun j => (i, j)))).flatten
  (pairs.filter (fun p => d.correlate p.1 p.2)).foldl
    (fun gs p =>
      match gs.find? (fun g => g.contains p.1), gs.find? (fun g => g.contains p.2) with
      | some a, some b => if a = b then gs else (a ++ b) :: gs.filter (fun g => g ≠ a && g ≠ b)
      | _, _ => gs)
    (members.map (fun i => [i]))

/-- The second and zg of each second that every slot of a group holds, newest first, zg in 1/1024 ns times the number of slots. -/
def Dev.groupSeries (d : Dev) (slots : List Nat) : List (Nat × Int) :=
  match slots with
  | [] => []
  | k :: rest =>
    rest.foldl (fun s j => s.filterMap (fun p => ((d.slot j).hist.find? (fun h => decide (h.1 = p.1))).map (fun h => (p.1, p.2 + h.2.2))))
      ((d.slot k).hist.map (fun h => (h.1, h.2.2)))

/-- Least-squares slope of a series against its seconds, in its units per second. -/
def slopeOf (s : List (Nat × Int)) : Q :=
  let n : Int := s.length
  let st := s.foldl (fun a p => a + (p.1 : Int)) 0
  let sz := s.foldl (fun a p => a + p.2) 0
  let stt := s.foldl (fun a p => a + (p.1 : Int) * (p.1 : Int)) 0
  let stz := s.foldl (fun a p => a + (p.1 : Int) * p.2) 0
  Q.div (Q.int (n * stz - st * sz)) (Q.int (n * stt - st * st))

/-- Mean square of zg[t] − 2 zg[t − 100] + zg[t − 200], with the number of terms. -/
def wanderOf (s : List (Nat × Int)) : Q × Nat :=
  let ds := differences 100 (differences 100 s)
  (Q.of (sumInt (ds.map (fun p => p.2 * p.2))) ds.length, ds.length)

/-- Learn a group's f, v and w (R178), with its slots' FOFS and STAB. -/
def Dev.learnGroup (d : Dev) (slots : List Nat) : Dev :=
  let s := d.groupSeries slots
  let unit : Q := Q.of 1 (1024 * slots.length)
  let f := (slopeOf s).mul unit
  let wd := wanderOf s
  let v := wd.1.mul (unit.mul unit)
  let w := if v.num = 0 then Q.int ((Config.flatWeight d.draws (slots.foldl min 16) + 1 : Nat) : Int) else (Q.int 1).div v
  let fofs := unsigned 32 (clampInt (-2147483648) 2147483647 ((f.mul (Q.int 100000)).round))
  let stab := min (2 ^ 24 - 1) (isqrt ((v.mul (Q.int 1000000)).round.toNat))
  let d1 := d.modEng (fun e => { e with groups := e.groups ++ [{ slots := slots, f := f, w := w, a := {} }] })
  d1.each slots (fun k d => (d.wrc F.TS_LREF_FOFS_FOFS k fofs).wrc F.TS_LREF_STAB_STAB k stab)

/-- ENSEMBLE_GROUPING's effect: only in Locked; groups and weights are frozen otherwise. -/
def Dev.regroup (d : Dev) : Dev :=
  if d.engState ≠ 2 then d
  else
    let members := (List.range 16).filter (fun k => d.on F.TS_LREF_STS_MEMBER k)
    let parts := d.partition members
    let d1 := (d.modEng (fun e => { e with groups := [] })).each (List.range parts.length) (fun i d => d.learnGroup (parts.getD i []))
    d1.draw.showEnsemble

/-- The end of a second: statistics in Locked, steering to a slot in Free-run (R176), steering by the ensemble
(R179). -/
def Dev.secondEnd (d : Dev) : Dev :=
  let d1 := d.modEng (fun e => { e with sec := e.sec + 1 })
  if d1.engState = 2 then
    d1.each ((List.range 16).filter (fun k => d1.on F.TS_LREF_STS_QUAL k)) (fun k d =>
      d.modSlot k (fun x => { x with hist := (d.eng.sec, x.x, x.z) :: x.hist.filter (fun h => decide (d.eng.sec < h.1 + 86400)) }))
  else if d1.engState = 3 then
    let t := d1.eng.ensT + 1
    let d2 := d1.modEng (fun e => { e with ensT := t })
    d2.servo (d2.ensembleP d2.eng.groups t) (Q.int 1) 100
  else if d1.engState = 0 then
    match d1.eng.synSlot with
    | none => d1
    | some k =>
      let z := (d1.slot k).z
      match d1.eng.synRef with
      | none => d1.modEng (fun e => { e with synRef := some z })
      | some z0 => d1.servo (Q.of (z - z0) 1024) (Q.int 1) 100
  else d1

end Sys2Proof.Machine
end

