-- ==== Sys2Proof/Machine/MemCore.lean ====
section
/-! DEFINITION. Accesses to Tier M: SECDED findings, poison events, one word's access, and the operations in
flight (R207 to R246 of spec/09_memory_tier.md and spec/08_fabric.md). -/
namespace Sys2Proof.Machine

def Dev.modMt (d : Dev) (g : MtX → MtX) : Dev := { d with mt := g d.mt }

/-- Act on the part, Tier M's bytes and the queue untouched. -/
def State.on (s : State) (g : Dev → Dev) : State := { s with dev := g s.dev }

/-- Fold over a list of numbers. -/
def State.each (s : State) (l : List Nat) (g : Nat → State → State) : State := l.foldl (fun s n => g n s) s

/-! ## Errors and poison -/

/-- A poison event (R243): counted, the first latched, the poison source of the Ridge Trigger fired. -/
def Dev.poisonEvent (d : Dev) (port master dir src : Nat) (addr : Option Nat) : Dev :=
  let d1 := d.bump F.MT_CNT_POISON_COUNT
  let d2 :=
    if d1.on F.MT_POISON_VALID then d1
    else
      let d2 := ((d1.wr0 F.MT_POISON_PORT port).wr0 F.MT_POISON_MASTER master).wr0 F.MT_POISON_DIR dir
      let d3 := ((d2.wr0 F.MT_POISON_SRC src).wr0 F.MT_POISON_AVALID (b2n addr.isSome)).wr0 F.MT_POISON_VALID 1
      (d3.wr0 F.MT_POISON_ADDR_ADDR (addr.getD 0)).alert 2
  d2.fire 8

/-- Keep an uncorrectable error at a word until a full-word write ends it (R229). -/
def Dev.keepError (d : Dev) (w synd : Nat) : Dev :=
  if (d.mt.bad.find? w).isSome then d
  else (d.modMt (fun m => { m with bad := m.bad.put w (synd + 65536 * d.draws) })).draw

/-- The bytes of a word as read: with the changed bits of an error it holds (R229). -/
def Dev.asRead (d : Dev) (w : Nat) (bs : List Byte) : List Byte :=
  match d.mt.bad.find? w with
  | none => bs
  | some v => List.zipWith (· ^^^ ·) bs (bytesLE (Config.errorBits (v / 65536) w).toNat 32)

/-- An uncorrectable error met at a word (R229): counted, the first logged, and a poison event. -/
def Dev.uncorrectable (d : Dev) (w master port synd : Nat) (write : Bool) : Dev :=
  let d1 := (d.bump F.MT_CNT_UE_COUNT).keepError w synd
  let d2 :=
    if d1.on F.MT_ECCLOG_ADDR_VALID then d1
    else
      let d2 := ((d1.wr0 F.MT_ECCLOG_ADDR_ADDR w).wr0 F.MT_ECCLOG_ADDR_VALID 1).wr0 F.MT_ECCLOG_INFO_MASTER master
      ((d2.wr0 F.MT_ECCLOG_INFO_WRITE (b2n write)).wr0 F.MT_ECCLOG_INFO_SYND synd).alert 3
  d2.poisonEvent port master 1 1 (some w)

/-- What a read of a word finds: a kept uncorrectable error, else what the decoder sees now. -/
def Dev.finding (d : Dev) (w : Nat) (seen : EccSeen) : EccSeen :=
  match d.mt.bad.find? w with
  | some s => .double (BitVec.ofNat 16 s)
  | none => seen

/-- Check a word as it is read (R227, R229): its STATUS, 0 OK, 1 CORRECTED, 2 POISON. -/
def Dev.checkWord (d : Dev) (w master port : Nat) (write : Bool) (seen : EccSeen) : Dev × Nat :=
  match d.finding w seen with
  | .clean => (d, 0)
  | .single _ => (d.bump F.MT_CNT_CE_COUNT, 1)
  | .double synd => (d.uncorrectable w master port synd.toNat write, 2)

/-- Read one word: STATUS and its 32 bytes as read. -/
def State.readWord (s : State) (w master port : Nat) (seen : EccSeen) : State × Nat × List Byte :=
  let r := s.dev.checkWord w master port false seen
  ({ s with dev := r.1 }, r.2, r.1.asRead w (Memory.read s.mem w 32))

/-- Write one word (R226, R227): a full normal write reads nothing and replaces the word; any other is checked
first, and is not applied to a word with an uncorrectable error. -/
def State.writeWord (s : State) (w view mask data master port : Nat) (seen : EccSeen) : State × Nat :=
  if mask % 2 ^ 32 = 2 ^ 32 - 1 ∧ view = 0 then
    ({ s with dev := s.dev.modMt (fun m => { m with bad := m.bad.del w }), mem := Memory.writeWord s.mem w 0 mask data }, 0)
  else
    let r := s.dev.checkWord w master port true seen
    if r.2 = 2 then ({ s with dev := r.1 }, 2)
    else ({ s with dev := r.1, mem := Memory.writeWord s.mem w view mask data }, r.2)

/-! ## Operations -/

/-- The number of a spar port in poison records (Table 9.8). -/
def sparNumber (master port : Nat) : Nat :=
  if master < 64 then 336 + 8 * master + port else 848 + 2 * (master - 64) + port

/-- Tags of a port and ports of a master (Table 9.2). -/
def tagsOf (master : Nat) : Nat := if master < 64 then 16 else if master = 66 then 1 else 64
def portsOf (master : Nat) : Nat := if master < 64 then 8 else 2

/-- The words that an operation touches: its own, or the 8 of its block. -/
def Op.words (o : Op) : List Nat :=
  let a := o.addr % 2 ^ 27
  if o.kind < 2 then [wordAddr a] else (List.range 8).map (fun k => a / 256 * 256 + 32 * k)

def Op.view (o : Op) : Nat := bits o.addr 27 2
def Op.isWrite (o : Op) : Bool := decide (o.kind = 1 ∨ o.kind = 3)

/-- An operation lies in an enabled address window of its region (R209). -/
def Dev.inWindow (d : Dev) (region a : Nat) : Bool :=
  (List.range 4).any (fun k =>
    let i := 4 * region + k
    d.on F.FB_WIN_BASE_EN i && decide (d.rd F.FB_WIN_BASE_BASE i ≤ bits a 16 11 ∧ bits a 16 11 ≤ d.rd F.FB_WIN_LIM_LIM i))

/-- Operations answered DENIED: view 0b11, a region's outside its windows, the secure region for every master but
67 and 68. -/
def Dev.isDenied (d : Dev) (o : Op) : Bool :=
  decide (o.view = 3) || (o.words.any inSecure && decide (o.master < 67))
    || (decide (o.master < 64) && ! o.words.all (d.inWindow o.master))

/-- Two operations meet at one arbiter: a shared bank, or the compatibility window's (R224, R237). -/
def Op.meets (a b : Op) : Bool := (a.win && b.win) || a.words.any (fun w => (b.words.map bankOf).contains (bankOf w))

def Op.shares (a b : Op) : Bool := a.words.any (fun w => b.words.contains w)

/-- An operation at its arbiter: its request block is there, and it has not been served. -/
def Op.atBank (o : Op) : Bool := ! o.denied && ! o.badReq && ! o.waitReq && o.served.isNone

/-- An operation holds or awaits an arbiter that another meets: the window's until its last response (R235). -/
def Op.holds (p o : Op) : Bool := p.meets o && (p.atBank || (p.win && o.win && ! p.denied && ! p.badReq))

/-- Two operations at once: they reach the banks at one instant, from two masters. -/
def Op.atOnce (a b : Op) : Bool := decide (a.at_ = b.at_ ∧ a.master ≠ b.master)

/-- The order in which an arbiter serves: arrival, and at one instant ascending master and port (R233). -/
def Op.before (a b : Op) : Bool :=
  decide (a.at_ < b.at_) || (decide (a.at_ = b.at_) && (decide (a.master * 8 + a.port < b.master * 8 + b.port)
    || (decide (a.master * 8 + a.port = b.master * 8 + b.port) && decide (a.seq < b.seq))))

/-- Two operations at once on one word, one of them a write: both count a conflict (R234). -/
def Op.clashes (a b : Op) : Bool := a.atOnce b && a.shares b && (a.isWrite || b.isWrite)

/-- The writes of lowest and of highest master among a write and those it meets. -/
def Op.lowest (o : Op) (l : List Op) : Op := l.foldl (fun a b => if b.master < a.master then b else a) o
def Op.highest (o : Op) (l : List Op) : Op := l.foldl (fun a b => if a.master < b.master then b else a) o

/-- Latch the first collision record: a write meets others at one word, at once. A further write at the same instant and word belongs to the
collision held (R234). -/
def Dev.collide (d : Dev) (o : Op) (others : List Op) : Dev :=
  let held := d.on F.MT_COLLIDE_VALID
  let shared := o.words.filter (fun w => others.any (fun p => p.words.contains w))
  let old := d.rd F.MT_COLLIDE_ADDR_ADDR
  let same := decide (held ∧ d.mt.collideAt = some o.at_) && shared.contains old
  let w := if same then old else shared.headD 0
  let here := others.filter (fun p => p.words.contains w)
  let lo := o.lowest here
  let hi := o.highest here
  if here = [] ∨ (held ∧ ! same) then d
  else
    let win := o.win
    let d1 := ((d.wr0 F.MT_COLLIDE_LOW lo.master).wr0 F.MT_COLLIDE_HIGH hi.master).wr0 F.MT_COLLIDE_WINDOW (b2n win)
    let d2 := ((d1.wr0 F.MT_COLLIDE_VLOW lo.view).wr0 F.MT_COLLIDE_VHIGH hi.view).wr0 F.MT_COLLIDE_VALID 1
    let d3 := (d2.wr0 F.MT_COLLIDE_ADDR_ADDR w).modMt (fun m => { m with collideAt := some o.at_ })
    if held then d3 else d3.alert 4

/-- Operations in flight, with the high-water mark, and each region's own (R231, FB_STS.OUTST). -/
def Dev.showOps (d : Dev) (master : Nat) : Dev :=
  let n := d.mt.ops.length
  let d1 := (d.wrc F.MT_INFLT_COUNT 0 n).wrc F.MT_INFLT_MAX_MAX 0 (max n (d.rd F.MT_INFLT_MAX_MAX))
  if master < 64 then d1.wrc F.FB_STS_OUTST master ((d1.mt.ops.filter (fun o => decide (o.master = master))).length) else d1

/-- A request may be acknowledged, the limit of R231 aside: domain M On, the tag free, the port not lent to a
page-in, its region not quiet, and no wipe holding the secure region. -/
def Dev.mayAck (d : Dev) (o : Op) : Bool :=
  d.domOn rowM && (decide (64 ≤ o.master) || d.domOn (rowL o.master)) && ! d.mt.ops.any (fun p => decide (p.master = o.master ∧ p.port = o.port ∧ p.tag = o.tag))
    && ! (decide (o.master < 64) && ((d.fb.at o.master {}).paging.isSome || (d.fb.at o.master {}).quiet))
    && ! (d.on F.MT_STS_WIPING && o.words.any inSecure)

/-- Count a denial: of a region outside its windows or in the secure region, of masters 64 to 66 in the secure
region (R209, R238). -/
def Dev.countDenial (d : Dev) (o : Op) : Dev :=
  let secure := o.words.any inSecure
  if o.master < 64 then
    (if secure || ! o.words.all (d.inWindow o.master) then d.bump F.FB_CNT_DENY_COUNT o.master else d)
  else if o.master ≤ 66 ∧ secure then d.bump F.MT_CNT_DENY_COUNT
  else d

/-- An operation reaches its arbiters: it counts a conflict where another master's holds one of them or is served before it, one at once that it
comes before counts its own, and a collision is recorded (R224, R234, R237). -/
def Dev.arrive (d : Dev) (o : Op) : Dev :=
  let rivals := d.mt.ops.filter (fun p => decide (p.master ≠ o.master) && p.holds o)
  let late := rivals.filter (fun p => ! p.conf && p.atOnce o && (o.before p || p.clashes o))
  let d1 := d.modMt (fun m => { m with ops := m.ops.map (fun p => if late.contains p then { p with conf := true } else p) })
  let d2 := if rivals.any (fun p => ! p.atOnce o || p.before o || p.clashes o) then d1.bump F.MT_CONF_COUNT o.master else d1
  let d3 := late.foldl (fun d p => d.bump F.MT_CONF_COUNT p.master) d2
  if o.isWrite then d3.collide o (rivals.filter (fun p => p.isWrite && p.clashes o)) else d3

/-- An operation as it is acknowledged now. -/
def Dev.stampOp (d : Dev) (o : Op) : Op :=
  let win := d.on F.MT_CTL_COMPAT && o.words.any (fun w => decide (w < 0x100000))
  { o with denied := d.isDenied o, at_ := d.now, seq := d.mt.nextSeq, win := win }

/-- Acknowledge a request: it is in flight; denials, conflicts and collisions are counted as it arrives. -/
def Dev.issue (d : Dev) (o : Op) : Dev :=
  let o1 := d.stampOp o
  let waits := d.mt.ops.any (fun p => decide (p.master ≠ o1.master) && p.holds o1 && (! p.atOnce o1 || p.before o1 || p.clashes o1))
  let d1 := if o1.denied then d.countDenial o1 else d.arrive o1
  (d1.modMt (fun m => { m with ops := m.ops ++ [{ o1 with conf := waits }], nextSeq := m.nextSeq + 1 })).showOps o1.master

/-- The first waiting request of each port that the limit of R231 alone holds. -/
def Dev.placeWaits (d : Dev) : List Op :=
  d.mt.waits.filter (fun o =>
    decide (d.mt.waits.find? (fun p => decide (p.master = o.master ∧ p.port = o.port)) = some o) && d.mayAck o)

/-- A request arrives: acknowledged, or it waits; one port's requests keep their order, and a freed place goes to a port that waits for
one (R231). -/
def Dev.request_ (d : Dev) (o : Op) : Dev :=
  if d.mt.waits.any (fun p => decide (p.master = o.master ∧ p.port = o.port)) ∨ ! d.mayAck o ∨ 4096 ≤ d.mt.ops.length ∨ ! d.placeWaits.isEmpty then
    d.modMt (fun m => { m with waits := m.waits ++ [o] })
  else d.issue o

/-- Acknowledge, in arrival order, the waiting requests whose condition has cleared; those held by the limit alone
keep waiting for a freed place. -/
def Dev.admitWaiting (d : Dev) : Dev :=
  let ws := d.mt.waits
  ws.foldl (fun d o =>
    let earlier := d.mt.waits.find? (fun p => decide (p.master = o.master ∧ p.port = o.port))
    if earlier = some o ∧ d.mayAck o ∧ d.mt.ops.length < 4096 then
      (d.modMt (fun m => { m with waits := m.waits.erase o })).issue o
    else d) d

/-- The banks serve one operation, each word of it checked against what the decoder sees. -/
def State.serveOp (s : State) (o : Op) (ecc : List EccSeen) : State × List (Nat × List Byte) :=
  let ws := o.words
  let zero := List.replicate 32 (0 : Byte)
  if o.denied then (s, if o.kind = 2 then List.replicate 8 (3, zero) else [(3, zero)])
  else if o.badReq then (s, if o.kind = 2 then List.replicate 8 (2, zero) else [(2, zero)])
  else if o.isWrite then
    let r := (List.range ws.length).foldl (fun (p : State × Nat) k =>
      let b := o.beats.getD k (0, 0)
      let w := p.1.writeWord (ws.getD k 0) o.view b.1 b.2 o.master (sparNumber o.master o.port) (ecc.getD k .clean)
      (w.1, max p.2 w.2)) (s, 0)
    (r.1, [(r.2, zero)])
  else
    (List.range ws.length).foldl (fun (p : State × List (Nat × List Byte)) k =>
      let r := p.1.readWord (ws.getD k 0) o.master (sparNumber o.master o.port) (ecc.getD k .clean)
      (r.1, p.2 ++ [(r.2.1, r.2.2)])) (s, [])

/-- The memory BIST engine's block under test is served to another master, so that the engine yields (R303). -/
def Dev.mbTouch (d : Dev) (o : Op) : Dev :=
  match d.mb.under with
  | none => d
  | some b =>
    if o.atBank && decide (o.master ≠ 65) && o.words.any (fun w => decide (w / 256 = b)) then
      { d with mb := { d.mb with touched := true } }
    else d

/-- Mark an operation served. -/
def State.serveIn (s : State) (o : Op) (ecc : List EccSeen) : State :=
  let r := s.serveOp o ecc
  r.1.on (fun d => (d.mbTouch o).modMt (fun m => { m with ops := m.ops.map (fun p => if p = o then { p with served := some r.2 } else p) }))

/-- Insert an operation into a list that `before` orders. -/
def insertOp (o : Op) : List Op → List Op
  | [] => [o]
  | p :: t => if o.before p then o :: p :: t else p :: insertOp o t

/-- The unserved operations that come before some of a list's at a word that both touch, and before those in turn. -/
def Dev.firstOps (d : Dev) (fuel : Nat) (l : List Op) : List Op :=
  match fuel with
  | 0 => l
  | fuel + 1 =>
    let more := d.mt.ops.filter (fun p => p.atBank && ! l.contains p && l.any (fun q => p.before q && p.shares q))
    if more.isEmpty then l else d.firstOps fuel (l ++ more)

/-- Serve operations in turn, each with what the decoder sees in its words. -/
def State.serveAll (s : State) (l : List Op) (seen : List (List EccSeen)) : State :=
  match l with
  | [] => s
  | o :: rest => (s.serveIn o (seen.headD [])).serveAll rest (seen.drop 1)

/-- The operations to serve before one, in the order of the arbiters. -/
def Dev.servedFirst (d : Dev) (o : Op) : List Op :=
  ((d.firstOps d.mt.ops.length [o]).filter (fun p => p ≠ o)).foldl (fun l p => insertOp p l) []

/-- Serve an operation, after those that come before it. -/
def State.serve (s : State) (o : Op) (ecc : List EccSeen) (earlier : List (List EccSeen)) : State :=
  let first := if o.atBank then s.dev.servedFirst o else []
  (s.serveAll first earlier).serveIn o ecc

/-! ## Operations of hard blocks, whole within a command -/

/-- An operation of a hard block on one word arrives: it is counted among those in flight, and it counts conflicts, collides and waits for
earlier operations on its word as any other does (R224, R231, R233, R234). An uncorrectable error that it finds was there for them. -/
def State.meetWord (s : State) (w master port : Nat) (write : Bool) (seen : EccSeen) : State :=
  let o := s.dev.stampOp { master := master, port := port, tag := 0, kind := b2n write, addr := w }
  let d0 := (s.dev.mbTouch o).wrc F.MT_INFLT_MAX_MAX 0 (max (s.dev.mt.ops.length + 1) (s.dev.rd F.MT_INFLT_MAX_MAX))
  if d0.mt.ops.isEmpty then { s with dev := d0 }
  else
    let d1 := d0.arrive o
    let first := d1.servedFirst o
    let found (p : Op) : List EccSeen := p.words.map (fun x => match seen with | .double _ => if x = w then seen else .clean | _ => .clean)
    State.serveAll { s with dev := d1 } first (first.map found)

/-- A hard block reads one word. -/
def State.hardRead (s : State) (w master port : Nat) (seen : EccSeen) : State × Nat × List Byte :=
  (s.meetWord w master port false seen).readWord w master port seen

/-- A hard block writes one whole word. -/
def State.hardWrite (s : State) (w data master port : Nat) : State :=
  ((s.meetWord w master port true .clean).writeWord w 0 (2 ^ 32 - 1) data master port .clean).1

/-- A response is held back: a block of the operation is under re-send, an earlier one of its port on a word of its has no response yet (R208),
or one before it at the window's arbiter has none (R235). -/
def Dev.responseHeld (d : Dev) (o : Op) : Bool :=
  o.waitReq || o.waitResp || d.mt.ops.any (fun p =>
    (decide (p.master = o.master ∧ p.port = o.port ∧ p.seq < o.seq) && p.shares o)
      || (p.win && o.win && ! p.denied && ! p.badReq && ! o.denied && ! o.badReq && p.before o))

/-- What a window access leaves in MT_WINSTS, by its STATUS. -/
def Dev.windowStatus (d : Dev) (st : Nat) : Dev :=
  match st with
  | 1 => d.wr0 F.MT_WINSTS_CORR 1
  | 2 => d.wr0 F.MT_WINSTS_POISON 1
  | 3 => d.wr0 F.MT_WINSTS_DENY 1
  | _ => d

/-- The window engine's operation has its response (R246): a read returns its 4 bytes, or 0 where none are to be had. -/
def Dev.windowDone (d : Dev) (o : Op) (beats : List (Nat × List Byte)) : Dev :=
  let b := beats.headD (0, [])
  let d1 := d.windowStatus b.1
  if o.isWrite then d1
  else d1.modMt (fun m => { m with winRead := if b.1 ≤ 1 then natLE ((b.2.drop (o.addr % 32)).take 4) else 0 })

/-- An operation completes: its response goes to the master, its place is freed, and waiting requests for which a condition has cleared are
acknowledged. A region that is not On discards its response (R210). `earlier` is what the decoder sees for the operations served
first. -/
def State.respond (s : State) (master port tag : Nat) (ecc : List EccSeen) (earlier : List (List EccSeen)) : State :=
  let find (s : State) := s.dev.mt.ops.find? (fun o => decide (o.master = master ∧ o.port = port ∧ o.tag = tag))
  match find s with
  | none => s
  | some o =>
    if s.dev.responseHeld o then s
    else
    let s1 := if o.served.isNone then s.serve o ecc earlier else s
    let beats := ((find s1).bind (fun o => o.served)).getD []
    let beats' :=
      match o.badResp with
      | none => beats
      | some got =>
        if o.isWrite then beats.map (fun b => (2, b.2))
        else (List.range beats.length).map (fun k => (2, bytesLE (got.getD k 0).toNat 32))
    s1.on (fun d =>
      let d1 := d.modMt (fun m => { m with ops := m.ops.filter (fun p => ! decide (p.master = master ∧ p.port = port ∧ p.tag = tag)) })
      let keep := decide (64 ≤ master) || d1.domOn (rowL master)
      let d2 := if keep then d1.modMt (fun m => { m with answers := m.answers.put (master * 8 + port) { tag := tag, beats := beats' } }) else d1
      let d2 := if master = 66 then d2.windowDone o beats' else d2
      let full := decide (4096 ≤ d.mt.ops.length) || ! d.placeWaits.isEmpty
      let d3 := d2.showOps master
      if full then d3 else d3.admitWaiting)

end Sys2Proof.Machine
end

