-- ==== Sys2Proof/Machine/FrameCore.lean ====
section
/-! DEFINITION. Octets of a frame: its headers, checksums and keys (R158 to R162 of spec/06_timebase.md, R185 of
spec/07_holdover_services.md). -/
namespace Sys2Proof.Machine

def octet (b : List Byte) (k : Nat) : Nat := (b.getD k 0).toNat
def be16 (b : List Byte) (k : Nat) : Nat := octet b k * 256 + octet b (k + 1)

/-- Replace octets from an offset on; octets beyond the end are dropped. -/
def setOctets (b : List Byte) (at_ : Nat) (v : List Byte) : List Byte :=
  (List.range b.length).map (fun k => if at_ ≤ k ∧ k < at_ + v.length then v.getD (k - at_) 0 else b.getD k 0)

/-- The frame without its FCS, and the FCS. -/
def frameBody (b : List Byte) : List Byte := b.take (b.length - 4)
def frameFcs (b : List Byte) : List Byte := b.drop (b.length - 4)

/-- The frame is complete and its FCS is right. -/
def fcsGood (b : List Byte) : Bool := decide (4 < b.length) && decide (natLE (frameFcs b) = crc32eth (frameBody b))

def isVlanTpid (v : Nat) : Bool := decide (v = 0x8100 ∨ v = 0x88A8)

/-- Where the EtherType after at most two VLAN tags stands (R158). -/
def typeAt (b : List Byte) : Nat :=
  if isVlanTpid (be16 b 12) then (if isVlanTpid (be16 b 16) then 20 else 16) else 12

def etherType (b : List Byte) : Nat := be16 b (typeAt b)

/-- Outer VLAN ID, 0xFFF where untagged. -/
def outerVlan (b : List Byte) : Nat := if isVlanTpid (be16 b 12) then be16 b 14 % 4096 else 0xFFF

/-- Where the UDP header stands in an unfragmented IPv4 packet or an IPv6 packet without extension headers. -/
def udpAt (b : List Byte) : Option Nat :=
  let p := typeAt b + 2
  if etherType b = 0x0800 then
    if be16 b (p + 6) % 16384 = 0 ∧ octet b (p + 9) = 17 then some (p + octet b p % 16 * 4) else none
  else if etherType b = 0x86DD then (if octet b (p + 6) = 17 then some (p + 40) else none)
  else none

/-- A row of Table 6.4 that a frame matches: the enable bits of TSU_CTL, the corrected field, the UDP checksum, whether
eCPRI, and whether R160 lets it be corrected. -/
structure CandRow where
  enable : Nat
  field : Nat
  csum : Option Nat
  ecpri : Bool
  allowed : Bool
  deriving DecidableEq, Repr

/-- The PTP match at a header. -/
def ptpMatch (b : List Byte) (h : Nat) : Bool :=
  decide (h + 1 < b.length ∧ octet b (h + 1) % 16 = 2 ∧ octet b h % 16 ≤ 3)

/-- The eCPRI match at a common header: revision 1, message type 5, and a candidate under R160; whether it may be
corrected. -/
def ecpriMatch (b : List Byte) (h : Nat) : Option Bool :=
  if octet b h / 16 = 1 ∧ h + 1 < b.length ∧ octet b (h + 1) = 5 then
    let c := octet b h % 2
    let action := octet b (h + 5)
    let known := decide (h + 5 < b.length)
    if c = 1 then some false
    else if known ∧ action = 0 then some true
    else if known ∧ action = 1 then some false
    else none
  else none

/-- The rows of Table 6.4 that a frame's octets before its FCS match, in the table's order. -/
def candRows (b : List Byte) (marked : Bool) : List CandRow :=
  let p := typeAt b + 2
  let eth := if etherType b = 0x88F7 ∧ ptpMatch b p then [⟨1, p + 8, none, false, true⟩] else []
  let v4 := decide (etherType b = 0x0800)
  let udp := match udpAt b with
    | none => []
    | some u =>
      let ptp := if be16 b (u + 2) = 319 ∧ ptpMatch b (u + 8) then
          [(⟨if v4 then 3 else 5, u + 16, some (u + 6), false, true⟩ : CandRow)] else []
      let ec := if marked then
          match ecpriMatch b (u + 8) with
          | some ok => [(⟨if v4 then 10 else 12, u + 24, some (u + 6), true, ok⟩ : CandRow)]
          | none => [] else []
      ptp ++ ec
  let ec := if etherType b = 0xAEFE then
      match ecpriMatch b p with
      | some ok => [(⟨8, p + 16, none, true, ok⟩ : CandRow)]
      | none => [] else []
  eth ++ udp ++ ec

/-! ## Checksums -/

/-- Fold a one's complement sum to 16 bits. -/
def fold16 (v : Nat) : Nat := let a := v % 65536 + v / 65536; a % 65536 + a / 65536

/-- The UDP checksum at `cs` after octets from `at_` on have changed (R161, RFC 1624): a checksum of 0 stays, a result of 0
is sent as 0xFFFF. -/
def csumUpdate (old new : List Byte) (at_ n cs : Nat) : List Byte :=
  let hc := be16 old cs
  if hc = 0 then new
  else
    let start := if at_ % 2 = cs % 2 then at_ else at_ - 1
    let words := (List.range (n / 2 + 1)).map (fun k => start + 2 * k)
    let sum := words.foldl (fun a k => if k = cs ∨ at_ + n ≤ k then a else a + (65535 - be16 old k) + be16 new k) (65535 - hc)
    let r := 65535 - fold16 sum
    setOctets new cs (bytesBE (if r = 0 then 65535 else r) 2)

/-- The FCS of a changed frame: it differs from the right one as the received one did (R162). -/
def fcsUpdate (old newBody : List Byte) : List Byte :=
  let f := natLE (frameFcs old)
  newBody ++ bytesLE (Nat.xor (Nat.xor f (crc32eth (frameBody old))) (crc32eth newBody)) 4

/-! ## Classifier keys (Table 7.6) -/

/-- The 24 key octets of a frame under a profile. -/
def frameKey (profile dir course : Nat) (b : List Byte) : List Byte :=
  let p := typeAt b + 2
  let head := [BitVec.ofNat 8 (profile + dir * 4 + 128)] ++ bytesLE course 2
  let port := match udpAt b with | some u => (b.drop (u + 2)).take 2 | none => [0, 0]
  let l2 := b.take 6 ++ bytesBE (etherType b) 2 ++ bytesBE (outerVlan b) 2
  let body :=
    match profile with
    | 0 => l2
    | 1 => l2 ++ [b.getD p 0]
    | 2 => (b.drop (p + 16)).take 4 ++ [b.getD (p + 9) 0] ++ port
    | _ => (b.drop (p + 24)).take 16 ++ [b.getD (p + 6) 0] ++ port
  let k := head ++ body
  k ++ List.replicate (24 - k.length) 0

/-- The bucket of a key. -/
def keyBucket (key : List Byte) : Nat := crc32c key % 16384

/-- The profiles looked up for a frame, in the order of R186. -/
def profilesOf (prof : Nat) (b : List Byte) : List Nat :=
  ([1, 0] ++ (if etherType b = 0x0800 then [2] else if etherType b = 0x86DD then [3] else [])).filter (fun p => bit prof p)

/-! ## Timestamps -/

/-- A value of FREE in 1/1024 ns as time in 1/65,536 ns. -/
def Dev.stampTime (d : Dev) (t : Int) : Nat := (t * 64 + d.tb.ofs).emod timeWrap |>.toNat

/-- The 16 octets of a timestamp record (Table 6.7). -/
def Dev.stampRecord (d : Dev) (u : Nat) (t : Int) (egress : Bool) : List Byte :=
  let v := d.stampTime t
  let flags := b2n (! d.on F.TB_STS_MODE) + 2 * b2n (! d.on F.TB_STS_LOCK)
    + (if egress then 8 else 4 * b2n (d.on F.TSU_STS_FS u))
  bytesLE (timeSec v) 6 ++ bytesLE (timeNs v) 4 ++ bytesLE (timeFrac v) 2 ++ [BitVec.ofNat 8 flags, BitVec.ofNat 8 u, 0, 0]

end Sys2Proof.Machine
end

