-- ==== Sys2Proof/Machine/Addr.lean ====
section
/-! DEFINITION. The register map of the 24-bit management space (R371, R384 of
spec/17_management_registers.md). -/
namespace Sys2Proof.Machine

/-- The block of an address, Table 17.13; the Tier M window apart. -/
def blockAt (a : Nat) : Option Block :=
  if a < 0x1000 then some .mg
  else if a < 0x2000 then some .pw
  else if a < 0x2200 then some .cf
  else if 0x3000 ≤ a ∧ a < 0x3200 then some .tg
  else if 0x4000 ≤ a ∧ a < 0x5000 then some .sn
  else if 0x5000 ≤ a ∧ a < 0x6000 then some .st
  else if 0x6000 ≤ a ∧ a < 0x7000 then some .cl
  else if 0x40000 ≤ a ∧ a < 0x60000 then some .ud
  else if 0x100000 ≤ a ∧ a < 0x180000 then some .ln
  else if 0x180000 ≤ a ∧ a < 0x190000 then some .cs
  else if 0x200000 ≤ a ∧ a < 0x201000 then some .tb
  else if 0x201000 ≤ a ∧ a < 0x203000 then some .tsu
  else if 0x210000 ≤ a ∧ a < 0x212000 then some .ts
  else if 0x300000 ≤ a ∧ a < 0x340000 then some .fb
  else if 0x400000 ≤ a ∧ a < 0x401000 then some .mt
  else if 0x410000 ≤ a ∧ a < 0x4A0000 then some .pu
  else if 0x500000 ≤ a ∧ a < 0x502000 then some .dm
  else none

/-- An address lies in the Tier M window of R244. -/
def inWindowSpace (a : Nat) : Bool := decide (0x600000 ≤ a ∧ a < 0x700000)

/-- The instance that an offset from a register's first instance names, by the register's dimensions. -/
def matchDims (dims : List (Nat × Nat × Nat)) (off : Nat) : Option Nat :=
  match dims with
  | [] => if off = 0 then some 0 else none
  | (count, stride, weight) :: rest =>
    let k := off / stride
    if k < count then (matchDims rest (off % stride)).map (· + k * weight) else none

/-- The register at an address, whatever the protocol of its course. -/
def matchReg (a : Nat) (r : Reg) : Option (Reg × Nat) :=
  if a < r.base then none else (matchDims r.dims (a - r.base)).map (fun i => (r, i))

/-- The protocol whose layout a register at E + 0x40 and up belongs to. -/
def regProto (r : Reg) : Option Proto :=
  match r with
  | .CS_ETH_CFG | .CS_ETH_PG_LO | .CS_ETH_PG_HI | .CS_ETH_RES | .CS_ETH_TR | .CS_ETH_CNT_AN => some .eth
  | .CS_CPRI_CFG | .CS_CPRI_STS | .CS_CPRI_CNT_RATE => some .cpri
  | .CS_PCI_CFG | .CS_PCI_STS | .CS_PCI_MRG | .CS_PCI_CNT_REC | .CS_PCI_CNT_SPD | .CS_PCI_CNT_NAK => some .pcie
  | _ => none

/-- The register and instance at a word address; none where no chapter defines one. -/
def Dev.regAt (d : Dev) (a : Nat) : Option (Reg × Nat) :=
  match blockAt a with
  | none => none
  | some b =>
    let hits := b.regs.filterMap (matchReg a)
    hits.find? (fun h => (regProto h.1).elim true (fun p => decide (p = d.proto ((a - 0x180000) / 128))))

end Sys2Proof.Machine
end

