-- ==== Sys2Proof/Machine/LaneRegs.lean ====
section
/-! DEFINITION. Host writes to a transceiver's settings (R48, R49 of spec/02_lane_tier.md). -/
namespace Sys2Proof.Machine

/-- LN_STS.WREJ: a host write was discarded. -/
def Dev.lnReject (d : Dev) (l : Nat) : Dev := d.wr F.LN_STS_WREJ l 1

/-- The lane's course trains: Detect, Negotiate or Train. -/
def Dev.laneTraining (d : Dev) (l : Nat) : Bool :=
  (d.laneCourse (laneTp l)).elim false (fun n =>
    decide (d.rd F.CS_STS_KSTATE n = 1 ∨ d.rd F.CS_STS_KSTATE n = 2 ∨ d.rd F.CS_STS_KSTATE n = 3))

/-- A transmitter whose direction is in Lane Idle holds manual writes until exit step 4 (R63). -/
def Dev.txInLaneIdle (d : Dev) (l : Nat) : Bool := decide (d.ks (laneOpp l) = 7)

/-- One write to LN_CTL, judged as R48 says: MANUAL first, then the other fields, each field on its own; a
field written with its value in force is no write of it. `held`: SWING and TX_INV wait for the B-to-A boundary (R86). -/
def Dev.writeLnCtlAs (d : Dev) (l w : Nat) (held : Bool) : Dev :=
  let man := d.on F.LN_CTL_MANUAL l
  let want := bit w 8
  let manRej := (want != man) && d.laneTraining l
  let man' := if manRej then man else want
  let sw := bits w 0 7
  let swNew := decide (sw ≠ d.rd F.LN_CTL_SWING l)
  let swRej := swNew && (! man' || ! decide (10 ≤ sw ∧ sw ≤ 120))
  let txNew := decide (bits w 9 1 ≠ d.rd F.LN_CTL_TX_INV l)
  let rxNew := decide (bits w 10 1 ≠ d.rd F.LN_CTL_RX_INV l)
  let txRej := txNew && ! man'
  let rxRej := rxNew && ! man'
  let d1 := d.wrc F.LN_CTL_MANUAL l (b2n man')
  let d2 := d1.wrc F.LN_CTL_FORCE_SQ l (bits w 11 1)
  let d3 := if rxNew ∧ ! rxRej then d2.wr F.LN_CTL_RX_INV l (bits w 10 1) else d2
  let sw' := if swNew ∧ ! swRej then sw else d.rd F.LN_CTL_SWING l
  let tx' := if txNew ∧ ! txRej then bits w 9 1 else d.rd F.LN_CTL_TX_INV l
  let put := BitVec.ofNat 32 (sw' + tx' * 512)
  let d4 :=
    if (swNew ∧ ! swRej) ∨ (txNew ∧ ! txRej) then
      if held ∨ d3.txInLaneIdle l then d3.modLane l (fun x => { x with heldCtl := some put })
      else (d3.wrc F.LN_CTL_SWING l sw').wrc F.LN_CTL_TX_INV l tx'
    else d3
  if manRej || swRej || txRej || rxRej then d4.lnReject l else d4

def Dev.writeLnCtl (d : Dev) (l w : Nat) : Dev := d.writeLnCtlAs l w false

/-- A set of taps keeps R43: within Table 2.5, magnitudes adding up to 64, and c-3 and c-2 at 0 on a PCI Express course. -/
def Dev.tapsOk (d : Dev) (l : Nat) (t : Taps) : Bool :=
  t.ok && (decide (t.cm3 = 0 ∧ t.cm2 = 0) || (d.laneCourse (laneTp l)).all (fun n => decide (d.proto n ≠ .pcie)))

/-- A write to LN_TX_FFE (R48): no effect where it changes nothing; discarded without MANUAL, out of range,
or where the magnitudes do not add up to 64; otherwise the whole register applies. -/
def Dev.writeTxFfeAs (d : Dev) (l w : Nat) (held : Bool) : Dev :=
  let w' := w % 2 ^ 28
  if w' = d.word .LN_TX_FFE l then d
  else if ! d.on F.LN_CTL_MANUAL l ∨ ! d.tapsOk l (tapsOfWord w') then d.lnReject l
  else if held ∨ d.txInLaneIdle l then d.modLane l (fun x => { x with heldFfe := some (BitVec.ofNat 32 w') })
  else d.putWord .LN_TX_FFE l w'

def Dev.writeTxFfe (d : Dev) (l w : Nat) : Dev := d.writeTxFfeAs l w false

/-- A write to LN_RX_EQ (R49): ADAPT always, what adaptation has reached staying in place; CTLE only while ADAPT is Manual, 0 to 32. -/
def Dev.writeRxEq (d : Dev) (l w : Nat) : Dev :=
  let ctle := bits w 0 6
  let rej := decide (d.rd F.LN_RX_EQ_ADAPT l ≠ 2 ∨ 32 < ctle)
  let d1 := (if bits w 6 2 = 0 then d else d.adaptHold l).wrc F.LN_RX_EQ_ADAPT l (bits w 6 2)
  if rej then d1.lnReject l else d1.wrc F.LN_RX_EQ_CTLE l ctle

/-- A write to LN_RX_DFEj (R49): each tap in Manual and in range applies; any other is discarded. -/
def Dev.writeRxDfe (d : Dev) (l j w : Nat) : Dev :=
  let i := 3 * l + j
  let one (d : Dev) (f : Fld) (m : Nat) : Dev :=
    let v := bits w f.lo 8
    if d.rd F.LN_RX_EQ_ADAPT l ≠ 2 ∨ dfeLimit (4 * j + m) < (signed 8 v).natAbs then d.lnReject l
    else d.wrc f i v
  one (one (one (one d F.LN_RX_DFE_TAPA 1) F.LN_RX_DFE_TAPB 2) F.LN_RX_DFE_TAPC 3) F.LN_RX_DFE_TAPD 4

/-- A write to LN_RX_FFE_DATA (R49): the selected tap in Manual and within ±0.5; F0 is fixed. -/
def Dev.writeRxFfe (d : Dev) (l w : Nat) : Dev :=
  let sel := d.rd F.LN_RX_FFE_SEL_TAP l
  let v := bits w 0 10
  if sel = 8 ∨ d.rd F.LN_RX_EQ_ADAPT l ≠ 2 ∨ 128 < (signed 10 v).natAbs then d.lnReject l
  else d.modLane l (fun x => { x with ffe := x.ffe.put sel v })

/-- LN_CTL_WRITE. -/
def execLnCtlWrite (tp : Fin 64) (side : Side) (data : BitVec 32) (s : State) : Host.Outcome State Fault Refusal :=
  s.upd (fun d => d.whenOn (rowA (tp / 8)) (fun d => d.writeLnCtl (laneIx tp side) data.toNat))

/-- LN_TX_FFE_WRITE. -/
def execLnTxFfeWrite (tp : Fin 64) (side : Side) (data : BitVec 32) (s : State) : Host.Outcome State Fault Refusal :=
  s.upd (fun d => d.whenOn (rowA (tp / 8)) (fun d => d.writeTxFfe (laneIx tp side) data.toNat))

/-- LN_RX_EQ_WRITE. -/
def execLnRxEqWrite (tp : Fin 64) (side : Side) (data : BitVec 32) (s : State) : Host.Outcome State Fault Refusal :=
  s.upd (fun d => d.whenOn (rowA (tp / 8)) (fun d => d.writeRxEq (laneIx tp side) data.toNat))

/-- LN_RX_DFE_WRITE. -/
def execLnRxDfeWrite (tp : Fin 64) (side : Side) (j : Fin 3) (data : BitVec 32) (s : State) :
    Host.Outcome State Fault Refusal :=
  s.upd (fun d => d.whenOn (rowA (tp / 8)) (fun d => d.writeRxDfe (laneIx tp side) j data.toNat))

/-- LN_RX_FFE_DATA_WRITE. -/
def execLnRxFfeDataWrite (tp : Fin 64) (side : Side) (data : BitVec 32) (s : State) :
    Host.Outcome State Fault Refusal :=
  s.upd (fun d => d.whenOn (rowA (tp / 8)) (fun d => d.writeRxFfe (laneIx tp side) data.toNat))

end Sys2Proof.Machine
end

