-- ==== Sys2Proof/Machine/Cpri.lean ====
section
/-! DEFINITION. CPRI rate following (R112 to R118 of spec/04_training_ethernet_cpri.md). -/
namespace Sys2Proof.Machine

def rxRateFld (s : Side) : Fld := if s = .a then F.CS_CPRI_STS_RXRATE_A else F.CS_CPRI_STS_RXRATE_B
def refuseFld (s : Side) : Fld := if s = .a then F.CS_CPRI_STS_REFUSE_A else F.CS_CPRI_STS_REFUSE_B

/-- The transceiver of a single-lane course on a side. -/
def Dev.soleLane (d : Dev) (n : Nat) (s : Side) : Option Nat := ((d.courseTps n).head?).map (fun tp => laneIx tp s)

/-- The course follows rates now: a CPRI course with FOLLOW, outside Disabled, Detect and Fault. -/
def Dev.follows (d : Dev) (n : Nat) : Bool :=
  let ks := d.rd F.CS_STS_KSTATE n
  decide (d.proto n = .cpri) && d.on F.CS_CPRI_CFG_FOLLOW n && decide (2 ≤ ks ∧ ks ≤ 6)

/-- INCOMING_RATE_CHANGE: no rate is identified now, HFNSYNC and the segment's resolution are gone, and measurement starts, at once or,
where a PLL is retuned for the direction, once it locks (R112, R114, R115). -/
def execIncomingRateChange (course : Fin 512) (side : Side) (s : State) : Host.Outcome State Fault Refusal :=
  s.upd (fun d =>
    let n := course.val
    if d.follows n then
      let d2 := (d.wrc (hfnFld side) n 0).wrc (rxRateFld side) n 0
      let retuned := (d2.seg (segIx n side)).following && (d2.soleLane n side).any (fun l => ! d2.lanePllLocked l)
      d2.modSeg (segIx n side) (fun x =>
        { x with done := false, hfnHold := false, measuring := ! retuned, measureAgain := retuned, following := retuned })
    else d)

/-- Why an attempted rate is not followed (R113): 1 no option, 2 outside RMIN to RMAX, 3 no PLL; 0 followed. -/
def Dev.refuseCode (d : Dev) (n rate : Nat) : Nat :=
  if ! rateAllowed .cpri rate then 1
  else if rate < d.rd F.CS_RATE_RMIN n ∨ d.rd F.CS_RATE_RMAX n < rate then 2
  else if ! d.rateHasPll n rate then 3
  else 0

/-- A direction follows an identified rate, with the transmitter of the opposite side (R112), once the bay's shell allows it (R335). -/
def Dev.followRate (d : Dev) (n : Nat) (side : Side) (l rate : Nat) : Dev :=
  let k := segIx n side
  if d.shellWaits n rate then (d.shellRaise n).modSeg k (fun x => { x with waitRate := rate })
  else
    let d3 := (d.rxToRate n l rate).modSeg k (fun x => { x with following := true, waitRate := 0 })
    let d4 := d3.wrc F.LN_STS_LOCK l 0
    (d4.modLane (laneOpp l) (fun x => { x with txRate := rate })).shellRelease (laneBay l)

/-- RATE_IDENTIFIED: on a course in service a rate other than CS_RATE.RATE is the partner event of row 16 (R113, R116); it is followed, or
refused with the opposite transmitter in electrical idle (R112, R113). -/
def execRateIdentified (course : Fin 512) (side : Side) (rate : Fin 256) (s : State) : Host.Outcome State Fault Refusal :=
  s.upd (fun d =>
    let n := course.val
    if ! d.follows n ∨ ! (d.seg (segIx n side)).measuring then d
    else
      match d.soleLane n side with
      | none => d
      | some l =>
        let k := segIx n side
        let known := rateAllowed .cpri rate
        let same := decide (d.inService n ∧ rate.val = d.rd F.CS_RATE_RATE n)
        let d0 := if d.inService n ∧ ! same then d.courseEval n { restart := some false } else d
        let d1 := (d0.modSeg k (fun x => { x with measuring := false })).wr (rxRateFld side) n (if known then rate else 0)
        let code := d1.refuseCode n rate
        let d2 := d1.wr (refuseFld side) n code
        if code ≠ 0 then
          let d3 := d2.setTxIdle (laneOpp l) true
          if code = 3 then d3.noPll n else d3
        else if same then d2
        else d2.followRate n side l rate)

/-- In Train, a common rate that both directions have locked to becomes CS_RATE.RATE (R116); a course through
the fabric changes its rate by transaction instead. -/
def Dev.commonRate (d : Dev) (n : Nat) : Dev :=
  let a := d.rd F.CS_CPRI_STS_RXRATE_A n
  let locked := (d.courseLanes n).all (fun l => d.on F.LN_STS_LOCK l)
  if d.rd F.CS_STS_KSTATE n = 3 ∧ a = d.rd F.CS_CPRI_STS_RXRATE_B n ∧ a ≠ 0 ∧ locked ∧ a ≠ d.rd F.CS_RATE_RATE n
      ∧ ! d.on F.CS_CTL_VIA_FABRIC n then
    (d.wr F.CS_RATE_RATE n a).bump F.CS_CPRI_CNT_RATE_COUNT n
  else d

/-- RATE_FOLLOW_LOCK: the receiver locks and the opposite transmitter runs at the followed rate. -/
def execRateFollowLock (course : Fin 512) (side : Side) (s : State) : Host.Outcome State Fault Refusal :=
  s.upd (fun d =>
    let n := course.val
    if (d.seg (segIx n side)).following ∧ d.follows n then
      match d.soleLane n side with
      | none => d
      | some l =>
        if d.lanePllLocked l then
          let d1 := ((d.modSeg (segIx n side) (fun x => { x with following := false })).wrc F.LN_STS_LOCK l 1).setTxIdle (laneOpp l) false
          (d1.commonRate n).courseEval n
        else d
    else d)

/-- Both directions run at one common rate within the window (R115). -/
def Dev.rateCommon (d : Dev) (n : Nat) : Bool :=
  let locked := (d.courseLanes n).all (fun l => d.on F.LN_STS_LOCK l)
  if d.on F.CS_CPRI_CFG_FOLLOW n then
    let a := d.rd F.CS_CPRI_STS_RXRATE_A n
    decide (a = d.rd F.CS_CPRI_STS_RXRATE_B n ∧ a ≠ 0 ∧ d.rd F.CS_RATE_RMIN n ≤ a ∧ a ≤ d.rd F.CS_RATE_RMAX n) && locked
  else locked

/-- HYPERFRAME_START: HFNSYNC kept or lost; the marker of a Marker commit; the boundary of a Decoded course
(Table 3.10); resolution in Negotiate (R115), hold in Train. -/
def execHyperframeStart (course : Fin 512) (side : Side) (hfnsync : Bool) (s : State) : Host.Outcome State Fault Refusal :=
  s.upd (fun d =>
    let n := course.val
    if d.proto n ≠ .cpri ∨ d.rd F.CS_STS_KSTATE n = 0 then d
    else
      let k := segIx n side
      let d1 := d.wrc (hfnFld side) n (b2n hfnsync)
      let lock := (d1.soleLane n side).elim false (fun l => d1.on F.LN_STS_LOCK l)
      let d3 := if lock ∧ side = .a ∧ d1.decodedMode n then d1.marker n else d1
      let d4 := if d3.segState n side = 2 then d3.modSeg k (fun x => { x with hfnHold := hfnsync }) else d3
      let d5 :=
        if d4.segState n side = 1 then
          d4.modSeg k (fun x => { x with done := hfnsync && d4.rateCommon n })
        else d4
      d5.courseEval n)

/-- HFNHOLD_EXPIRY: HFNSYNC held for HFNHOLD makes a segment in Train Ready (R115). -/
def execHfnholdExpiry (course : Fin 512) (side : Side) (latAb latBa : BitVec 24) (s : State) :
    Host.Outcome State Fault Refusal :=
  s.upd (fun d =>
    let n := course.val
    let k := segIx n side
    if (d.seg k).hfnHold ∧ d.segState n side = 2 ∧ d.on (hfnFld side) n then
      ((d.setSeg n side 3).modSeg k (fun x => { x with hfnHold := false, tneg := false, silence := false })).courseEval n
        { lat := some (latAb, latBa) }
    else d)

end Sys2Proof.Machine
end

