-- ==== Sys2Proof/Machine/Pcie.lean ====
section
/-! DEFINITION. PCI Express retimer operation (spec/05_pcie_retimer.md). -/
namespace Sys2Proof.Machine

def ltssmCode (l : Ltssm) : Nat :=
  match l with
  | .detect => 0 | .polling => 1 | .configuration => 2 | .l0 => 3 | .recovery => 4 | .l0s => 5 | .l1 => 6
  | .hotReset => 7 | .disabled => 8 | .loopback => 9 | .compliance => 10

/-- The side of the Upstream Pseudo Port (R124). -/
def Dev.uspSide (d : Dev) (n : Nat) : Side := if d.on F.CS_PCI_CFG_USP_SIDE n then .b else .a

/-- RECEIVER_DETECTION (R126): the lanes of each side on which a receiver was found. Terminations of a side are
on once every lane of the opposite side has one. -/
def execReceiverDetection (course : Fin 512) (foundA foundB : BitVec 16) (s : State) : Host.Outcome State Fault Refusal :=
  s.upd (fun d =>
    let n := course.val
    if d.proto n = .pcie ∧ d.rd F.CS_STS_KSTATE n = 1 then
      let full := 2 ^ (d.courseTps n).length - 1
      let all (m : BitVec 16) : Bool := decide (m.toNat % 2 ^ (d.courseTps n).length = full)
      let d1 := d.modSeg (2 * n) (fun x => { x with rxDet := all foundA, term := all foundB })
      (d1.modSeg (2 * n + 1) (fun x => { x with rxDet := all foundB, term := all foundA })).courseEval n
    else d)

/-- Rates that RMAX leaves in the data-rate field of a TS (Table 5.3): bit 0 for 2.5 GT/s. -/
def rateMask (rmax : Nat) : BitVec 5 :=
  if rmax = 0x08 then 0b00001 else if rmax = 0x09 then 0b00011 else if rmax = 0x10 then 0b00111
  else if rmax = 0x11 then 0b01111 else 0b11111

/-- Table 5.6: N_FTS added at a rate. -/
def nftsAdd (rate : Nat) : Nat :=
  if rate = 0x08 then 94 else if rate = 0x09 then 188 else if rate = 0x10 then 93 else if rate = 0x11 then 185 else 255

/-- The side of the part's receiver with this number, by its position (R135). -/
def Dev.marginSide (d : Dev) (n rcvr : Nat) : Option Side :=
  let pos := d.rd F.CS_PCI_STS_POS n
  let usp := d.uspSide n
  if pos = 1 then (if rcvr = 2 then some usp else if rcvr = 3 then some (otherSide usp) else none)
  else if pos = 2 then (if rcvr = 4 then some usp else if rcvr = 5 then some (otherSide usp) else none)
  else none

/-- The rewrites of Table 5.3, polarity corrected (R130), on logical lane `lane`; none where the part originates the TS1 of Phases 2 and 3
itself, which `LaneX.eqSent` holds. -/
def Dev.rewriteOs (d : Dev) (n lane : Nat) (os : OrderedSet) : Option OrderedSet :=
  match os with
  | .ts f =>
    if ! f.isTs2 ∧ f.eq ∧ (f.phase = 2 ∨ f.phase = 3) then none
    else
      let f1 := { f with rates := f.rates &&& rateMask (d.rd F.CS_RATE_RMAX n), inverted := false }
      let f2 := if f.isTs2 then { f1 with retimerPresent := true, twoRetimers := f.twoRetimers || f.retimerPresent } else f1
      let f3 := if d.on F.CS_PCI_CFG_NFTS_ADD n then
          { f2 with nFts := BitVec.ofNat 8 (min 255 (f.nFts.toNat + nftsAdd (d.rd F.CS_RATE_RATE n))) } else f2
      let f4 := if ! f.isTs2 ∧ f.eq ∧ f.phase = 1 then { f3 with fs := 63, lf := 21 } else f3
      some (.ts f4)
  | .skp (.command rcvr cmd) =>
    match d.marginSide n rcvr, d.logicalTp n lane with
    | some sd, some tp => some (.skp (((d.lane (laneIx tp sd)).marginAnswer).elim (.command rcvr cmd) (.answer rcvr)))
    | _, _ => some os
  | _ => some os

/-- Learn the part's position on the link once TS2s have come in Configuration at both pseudo-ports (R125). -/
def Dev.learnPos (d : Dev) (n : Nat) : Dev :=
  if d.rd F.CS_PCI_STS_POS n ≠ 0 ∨ d.on F.CS_PCI_STS_THIRD n then d
  else
    match (d.seg (segIx n (d.uspSide n))).ts2, (d.seg (segIx n (otherSide (d.uspSide n)))).ts2 with
    | some u, some v =>
      if u ∧ v then d.wr F.CS_PCI_STS_THIRD n 1
      else if u then d.wr F.CS_PCI_STS_POS n 2
      else d.wr F.CS_PCI_STS_POS n 1
    | _, _ => d

/-- The equalisation flag of a rate. -/
def eqFld (rate : Nat) : Option Fld :=
  if rate = 0x10 then some F.CS_PCI_STS_EQ8 else if rate = 0x11 then some F.CS_PCI_STS_EQ16
  else if rate = 0x12 then some F.CS_PCI_STS_EQ32 else none

/-- The presets of Phase 0 come from the Downstream Port, at the Upstream Pseudo Port (R133). -/
def Dev.learnPresets (d : Dev) (n : Nat) (s : Side) (l : Nat) (f : TsFields) : Dev :=
  match f.presets with
  | some (u, v) =>
    if s = d.uspSide n then
      let o := if l < 64 then l + 64 else l - 64
      (d.modLane l (fun x => { x with eqPreset := some u.val })).modLane o (fun x => { x with eqPreset := some v.val })
    else d
  | none => d

/-- On a segment in this phase the part leads: in Phase 2 toward the Downstream Port, in Phase 3 toward the Upstream Port (R133). -/
def Dev.eqLeads (d : Dev) (n : Nat) (s : Side) : Bool :=
  let p := (d.seg (segIx n s)).eqPhase
  decide ((p = 2 ∧ s = d.uspSide n) ∨ (p = 3 ∧ s ≠ d.uspSide n))

/-- What the part originates on a lane in Phases 2 and 3 (R133, R134). -/
def Dev.eqTs (d : Dev) (n : Nat) (s : Side) (l : Nat) : Option EqTs :=
  let x := d.seg (segIx n s)
  if x.eqPhase < 2 then none
  else
    let leads := d.eqLeads n s
    some { phase := x.eqPhase, ended := decide (x.eqPhase ≤ x.eqOver), request := if leads then (d.lane l).eqRequest else none
           taps := if leads then none else some (d.taps l), reject := ! leads && decide ((d.lane l).answer = 5) }

def Dev.eqShow (d : Dev) (n : Nat) (s : Side) : Dev :=
  d.each (d.courseSideLanes n s) (fun l d => d.modLane l (fun x => { x with eqSent := d.eqTs n s l }))

/-- A phase starts on a segment: leading, the part asks for P4 first; a lane whose ADAPT is not Continuous asks for nothing beyond the
preset of Phase 0 (R134). -/
def Dev.eqStart (d : Dev) (n : Nat) (s : Side) (p : Nat) : Dev :=
  let d1 := d.modSeg (segIx n s) (fun x => { x with eqPhase := p, phaseEnded := false, eqOver := if p < x.eqPhase then 0 else x.eqOver })
  if d1.eqLeads n s then
    d1.each (d1.courseSideLanes n s) (fun l d =>
      let search := decide (d.rd F.LN_RX_EQ_ADAPT l = 0)
      d.modLane l (fun x => { x with eqTried := 0, eqRequest := if search then some (.preset 4) else none, eqBest := none, eqBestErr := 0
                                     eqDone := ! search }))
  else d1.each (d1.courseSideLanes n s) (fun l d => d.modLane l (fun x => { x with answer := 0 }))

/-- A phase ends on a segment: where the part answers, as its partner ends it; where it leads, once its search is over on every lane and the
other segment has ended the same phase (R133). -/
def Dev.eqEnd (d : Dev) (n : Nat) (s : Side) : Dev :=
  let x := d.seg (segIx n s)
  let ended :=
    if d.eqLeads n s then
      (d.policyTps n).all (fun tp => (d.lane (laneIx tp s)).eqDone) && decide (x.eqPhase ≤ (d.seg (segIx n (otherSide s))).eqOver)
    else x.phaseEnded
  if ended ∧ x.eqOver < x.eqPhase then d.modSeg (segIx n s) (fun x => { x with eqOver := x.eqPhase }) else d

/-- The phases that have ended now, the segment that the part answers first; the end of Phase 3 on both segments completes equalisation at
the rate (R133). -/
def Dev.eqEval (d : Dev) (n : Nat) : Dev :=
  let one (d : Dev) (lead : Bool) (s : Side) : Dev := if d.eqLeads n s == lead then d.eqEnd n s else d
  let d1 := one (one (one (one d false .a) false .b) true .a) true .b
  let d2 := (d1.eqShow n .a).eqShow n .b
  match eqFld (d2.rd F.CS_RATE_RATE n) with
  | some fl => if (d2.seg (2 * n)).eqOver = 3 ∧ (d2.seg (2 * n + 1)).eqOver = 3 then d2.wrc fl n 1 else d2
  | none => d2

/-- Electrical idle has begun on the lanes outside the trained width: they enter Lane Idle (R131). -/
def Dev.outsideIdle (d : Dev) (n : Nat) : Dev :=
  d.each ((d.courseLanes n).filter (fun l => ! (d.policyTps n).contains (laneTp l) && ! d.on F.LN_STS_SIGDET l && decide (d.ks l ≠ 7)))
    (fun l d => d.laneIdleEntry l)

/-- What a TS1 or TS2 shows of its sender. -/
def Dev.seeTs (d : Dev) (n : Nat) (s : Side) (l : Nat) (f : TsFields) : Dev :=
  let k := segIx n s
  let d0 := (d.learnPresets n s l f).modSeg k (fun x => { x with lastTs2 := f.isTs2 })
  let d1 := if f.partner = .polling ∧ f.inverted then d0.wrc F.LN_STS_POL_DET l 1 else d0
  let d2 :=
    if f.partner = .configuration then
      let d2 := if f.isTs2 then (d1.modSeg k (fun x => { x with ts2 := some f.retimerPresent })).learnPos n else d1
      if f.width.val = 0 then d2 else (d2.wrc F.CS_PCI_STS_WIDTH n f.width).outsideIdle n
    else d1
  if f.eq then
    let d3 := if (d2.seg k).eqPhase = f.phase.val then d2 else d2.eqStart n s f.phase
    (d3.modSeg k (fun x => { x with phaseEnded := f.phaseEnd })).eqEval n
  else d2

/-- A partner enters Recovery (R127, R128, R142): on a course in service row 16 applies, and a Ready segment of a course in Train goes back
to Train; the entry counts where the segment was in L0, L0s or L1. -/
def Dev.recovery (d : Dev) (n : Nat) (s : Side) : Dev :=
  if d.inService n then (d.bump F.CS_PCI_CNT_REC_COUNT n).courseEval n { restart := some false }
  else if d.segState n s = 3 then (d.bump F.CS_PCI_CNT_REC_COUNT n).segTrain n s
  else d

/-- A segment passes into L0 (R128). -/
def Dev.segL0 (d : Dev) (n : Nat) (s : Side) : Dev :=
  (((d.modSeg (segIx n s) (fun x => { x with sdsSeen := true })).wrc (ltssmFld s) n 3).segsReady n).courseEval n

/-- ORDERED_SET_RECEIVED: forwarded with the rewrites of Table 5.3; what it shows drives LTSSM_x, POS, WIDTH,
Lane Idle announcement, retraining and L0. -/
def execOrderedSetReceived (course : Fin 512) (side : Side) (lane : Fin 16) (os : OrderedSet) (s : State) :
    Host.Outcome State Fault Refusal :=
  s.upd (fun d =>
    let n := course.val
    let ks := d.rd F.CS_STS_KSTATE n
    match d.logicalTp n lane with
    | none => d
    | some tp =>
      if d.proto n ≠ .pcie ∨ ks < 3 ∨ ks = 7 then d
      else
        let l := laneIx tp side
        let k := segIx n side
        let rate := d.rd F.CS_RATE_RATE n
        let d1 := d.modSeg k (fun x => { x with sentOs := d.rewriteOs n lane os })
        match os with
        | .ts f =>
          let d2 := if ! f.isTs2 ∧ f.partner = .recovery then d1.recovery n side
            else if (f.partner = .polling ∨ f.partner = .configuration) ∧ d1.segState n side = 3 then d1.segTrain n side
            else d1
          let d3 := d2.wrc (ltssmFld side) n (ltssmCode f.partner)
          d3.seeTs n side l f
        | .eieos =>
          if (d1.inService n ∨ d1.segState n side = 3) ∧ 0x09 ≤ rate ∧ d1.ks l ≠ 7 then
            (d1.recovery n side).wrc (ltssmFld side) n 4
          else d1
        | .eios => d1.modLane l (fun x => { x with eios := true })
        | .fts => d1
        | .skp _ => if side = .a ∧ lane.val = 0 ∧ d1.decodedMode n then d1.marker n else d1
        | .sds => if ks = 3 ∧ 0x10 ≤ rate then d1.segL0 n side else d1
        | .logicalIdle => if ks = 3 ∧ rate ≤ 0x09 ∧ (d1.seg k).lastTs2 then d1.segL0 n side else d1)

/-- Round half away from zero of a × b / c for naturals. -/
def roundDiv (a b c : Nat) : Nat := (2 * a * b + c) / (2 * c)

/-- The transmitter presets P0 to P10 of the PCI Express Base Specification as magnitudes of c−1 and c+1 in
1/1000, brought to 1/64. -/
def pciePreset (p : Nat) : Option Taps :=
  let mk (m1 p1 : Nat) : Option Taps :=
    let a := roundDiv m1 64 1000
    let b := roundDiv p1 64 1000
    some ⟨0, 0, -(a : Int), 64 - (a : Int) - (b : Int), -(b : Int)⟩
  match p with
  | 0 => mk 0 250 | 1 => mk 0 167 | 2 => mk 0 200 | 3 => mk 0 125 | 4 => mk 0 0
  | 5 => mk 100 0 | 6 => mk 125 0 | 7 => mk 100 200 | 8 => mk 125 125 | 9 => mk 166 0 | 10 => mk 0 333
  | _ => none

/-- Phase 0 (R133): at 8.0 GT/s and above each pseudo-port transmits with the preset that the Downstream Port
communicated; a MANUAL lane keeps the host's settings (R134). -/
def Dev.phaseZero (d : Dev) (n rate : Nat) : Dev :=
  if rate < 0x10 then d
  else d.each (d.courseLanes n) (fun l d =>
    match (d.lane l).eqPreset.bind pciePreset with
    | some t => if d.on F.LN_CTL_MANUAL l then d else d.setTaps l t
    | none => d)

/-- The lanes of a course take a new rate between the PLLs held (R132), once the shells allow it (R335). -/
def Dev.speedChange (d : Dev) (n rate : Nat) : Dev :=
  let idle := (d.policyTps n).all (fun tp => decide (d.ks tp = 7 ∧ d.ks (tp + 64) = 7))
  if d.proto n = .pcie ∧ d.rd F.CS_STS_KSTATE n = 3 ∧ idle ∧ rateAllowed .pcie rate ∧ rate ≤ d.rd F.CS_RATE_RMAX n then
    if d.shellWaits n rate then (d.shellRaise n).modCourse n (fun c => { c with waitSpeed := rate })
    else
      let d1 := (d.each (d.courseLanes n) (fun l d => d.laneToRate n l rate)).each (d.courseLanes n) (fun l d =>
        d.modLane l (fun x => { x with eqTried := 0, eqRequest := none, eqBest := none, eqDone := false, eqSent := none }))
      let d2 := (d1.modCourse n (fun c => { c with waitSpeed := 0 })).each (d1.courseBays n) (fun b d => d.shellRelease b)
      (((d2.phaseZero n rate).wr F.CS_RATE_RATE n rate).bump F.CS_PCI_CNT_SPD_COUNT n).modSegs n
        (fun x => { x with eqPhase := 0, phaseEnded := false, eqOver := 0 })
  else d

/-- SPEED_CHANGE_READY (R132): every trained lane is in Lane Idle. -/
def execSpeedChangeReady (course : Fin 512) (rate : Fin 256) (s : State) : Host.Outcome State Fault Refusal :=
  s.upd (fun d => d.speedChange course.val rate.val)

/-! ## Equalisation -/

/-- A coefficient request in 1/63 that keeps the Base Specification's rules for FS = 63 and LF = 21, mapped to
taps (R134). -/
def pcieCoefs (cm1 c0 cp1 : Nat) : Option Taps :=
  if cm1 + c0 + cp1 = 63 ∧ cm1 ≤ 15 ∧ cm1 + cp1 + 21 ≤ c0 then
    let a := roundDiv cm1 64 63
    let b := roundDiv cp1 64 63
    some ⟨0, 0, -(a : Int), 64 - (a : Int) - (b : Int), -(b : Int)⟩
  else none

/-- EQ_REQUEST: on a segment that the part answers, in Phase 2 or 3, applied and reflected, or rejected (answer 5, Reject Coefficient
Values). -/
def execEqRequest (tp : Fin 64) (side : Side) (req : EqRequest) (s : State) : Host.Outcome State Fault Refusal :=
  s.upd (fun d =>
    let l := laneIx tp side
    match d.laneCourse tp with
    | none => d
    | some n =>
      if d.proto n = .pcie ∧ d.rd F.CS_STS_KSTATE n = 3 ∧ 2 ≤ (d.seg (segIx n side)).eqPhase ∧ ! d.eqLeads n side then
        let want := match req with
          | .preset p => pciePreset p
          | .coefficients a b c => pcieCoefs a b c
        let d1 := match (if d.on F.LN_CTL_MANUAL l then none else want) with
          | some t => (d.setTaps l t).modLane l (fun x => { x with answer := 1 })
          | none => d.modLane l (fun x => { x with answer := 5 })
        d1.modLane l (fun x => { x with eqSent := d1.eqTs n side l })
      else d)

/-- The request after `tried` evaluations of a lane that the part leads (R134): P4 to P9 in turn, then up to two coefficient requests
next to the best preset, then none. -/
def eqNext (tried draws : Nat) : Option EqRequest :=
  if tried < 6 then some (.preset (Fin.ofNat 16 (4 + tried)))
  else if tried < 8 ∧ Config.eqMore draws then
    let c := (Config.eqCoefficients draws).toNat
    some (.coefficients (Fin.ofNat 64 c) (Fin.ofNat 64 (c / 64)) (Fin.ofNat 64 (c / 4096)))
  else none

/-- EQ_PRESET_EVALUATED (R134): the best setting found is kept, and the next request made; once there is none, the part asks for the best
one again, and its search on the lane is over. -/
def execEqPresetEvaluated (course : Fin 512) (side : Side) (lane : Fin 16) (errors : Nat) (s : State) :
    Host.Outcome State Fault Refusal :=
  s.upd (fun d =>
    let n := course.val
    match d.logicalTp n lane with
    | none => d
    | some tp =>
      let l := laneIx tp side
      let x := d.lane l
      if d.proto n = .pcie ∧ d.rd F.CS_STS_KSTATE n = 3 ∧ d.eqLeads n side ∧ ! x.eqDone then
        let better := decide (x.eqTried = 0 ∨ errors < x.eqBestErr)
        let best := if better then x.eqRequest else x.eqBest
        let next := eqNext (x.eqTried + 1) d.draws
        let d1 := d.modLane l (fun x => { x with eqTried := x.eqTried + 1, eqBest := best
                                                 eqBestErr := if better then errors else x.eqBestErr
                                                 eqRequest := next.or best, eqDone := next.isNone })
        (d1.draw).eqEval n
      else d)

/-! ## Margining -/

/-- Table 5.4: the part's margining capabilities, for a pseudo-port of a course that spans this many bays (R136). -/
def marginCaps (bays : Nat) : MarginCaps :=
  { voltage := true, upDown := true, leftRight := true, errorSampler := true, countReported := true, timingSteps := 32, maxTiming := 50
    voltageSteps := 64, maxVoltage := 200, samplingRate := 64, lanes := bays }

/-- An answer is given for a receiver; NAK counts (R137, R142). -/
def Dev.marginReply (d : Dev) (n l : Nat) (a : MarginAnswer) : Dev :=
  let d1 := d.modLane l (fun x => { x with marginAnswer := some a, marginNak := false })
  if a = .nak then d1.bump F.CS_PCI_CNT_NAK_COUNT n else d1

/-- Some lane of another bay side's slice aside, a step cannot be taken on this receiver (R137): a rescue or a calibration holds its
slice or has just taken it, or as many lanes of the pseudo-port are under margining as Table 5.4 allows, one for each bay. -/
def Dev.marginRefused (d : Dev) (n l : Nat) (s : Side) : Bool :=
  let running := ((d.courseSideLanes n s).filter (fun m => (d.lane m).margining)).length
  (d.lane l).marginNak || (! (d.lane l).margining
    && (decide (d.fsOwner (laneFs l) ≠ 0) || decide ((marginCaps (d.courseBays n).length).lanes ≤ running)))

/-- A margin step on a receiver: NAK, or the slice claimed with OWNER 3, offset by the step and shadowing; its errors against the
primary slice are answered (R135). -/
def Dev.marginStep (d : Dev) (n l : Nat) (s : Side) (cmd : MarginCmd) : Dev :=
  if d.marginRefused n l s then d.marginReply n l .nak
  else
    let d1 := d.modLane l (fun x => { x with margining := true, marginStep := some cmd })
    let d2 := (d1.fsSet (laneFs l) 3 true false (lanePad l)).wrc F.CS_PCI_MRG_ACTIVE n 1
    (d2.marginReply n l (.margining (Config.marginErrors d2.draws))).draw

/-- MARGIN_COMMAND: answered for the part's own receivers in L0 at 16.0 and 32.0 GT/s (R135), else forwarded.  With more than two
retimers on the link the part has no receivers of its own to margin: a step for a Receiver Number that a retimer can have is NAKed (R137),
the lower number of each pair on the Upstream Pseudo Port, and no other command is answered (R125). -/
def execMarginCommand (course : Fin 512) (_side : Side) (lane : Fin 16) (rcvr : Fin 8) (cmd : MarginCmd) (s : State) :
    Host.Outcome State Fault Refusal :=
  s.upd (fun d =>
    let n := course.val
    let third := d.on F.CS_PCI_STS_THIRD n && decide (2 ≤ rcvr.val ∧ rcvr.val ≤ 5)
    let sd := if third then some (if rcvr.val % 2 = 0 then d.uspSide n else otherSide (d.uspSide n)) else d.marginSide n rcvr
    match sd, d.logicalTp n lane with
    | some sd, some tp =>
      if d.proto n = .pcie ∧ d.inService n ∧ 0x11 ≤ d.rd F.CS_RATE_RATE n then
        let l := laneIx tp sd
        let d1 := (d.wr F.CS_PCI_MRG_LANE n lane).wr F.CS_PCI_MRG_RCVR n rcvr
        match cmd with
        | .stepTiming _ _ => if third then d1.marginReply n l .nak else d1.marginStep n l sd cmd
        | .stepVoltage _ _ => if third then d1.marginReply n l .nak else d1.marginStep n l sd cmd
        | .goToNormal => if third then d else (d1.marginStop l true).marginReply n l .normal
        | .reportCapabilities => if third then d else d1.marginReply n l (.capabilities (marginCaps (d1.courseBays n).length))
        | .clearErrorLog => if third then d else d1.marginReply n l .cleared
      else d
    | _, _ => d)

/-- PARTNER_RECEIVER_DETECTION: a partner that runs receiver detection is lost (R127). -/
def execPartnerReceiverDetection (course : Fin 512) (_side : Side) (s : State) : Host.Outcome State Fault Refusal :=
  s.upd (fun d =>
    if d.proto course = .pcie ∧ 3 ≤ d.rd F.CS_STS_KSTATE course then d.courseEval course { pciLost := true } else d)

end Sys2Proof.Machine
end

