-- ==== Sys2Proof/Machine/FabricCore.lean ====
section
/-! DEFINITION. Fabric regions: pace and voltage, gutters, contexts and page-ins (R198 to R221 of
spec/08_fabric.md, R334 and R335 of spec/14_power.md). -/
namespace Sys2Proof.Machine

def Dev.fbx (d : Dev) (r : Nat) : FbX := d.fb.at r {}
def Dev.modFb (d : Dev) (r : Nat) (g : FbX → FbX) : Dev := { d with fb := d.fb.put r (g (d.fbx r)) }
def Dev.gutter (d : Dev) (l : Nat) : GutX := d.gut.at l {}
def Dev.modGut (d : Dev) (l : Nat) (g : GutX → GutX) : Dev := { d with gut := d.gut.put l (g (d.gutter l)) }

/-! ## Pace and voltage -/

/-- Table 8.3: the pace limit at a fabric supply, coded in 5 mV above 0.50 V; between two rows the lower holds. -/
def paceLimit (v : Nat) : Nat :=
  if v < 10 then 0 else if v < 20 then 300 else if v < 30 then 400 else if v < 40 then 490 else if v < 50 then 570
  else if v < 60 then 640 else if v < 70 then 720 else 780

/-- FB_PACE_STS.LIMIT of a region: of the lowest voltage that a step under way has had as its start or a target, since where the supply
stands between them is not told (R200, R334). -/
def Dev.showLimit (d : Dev) (r : Nat) : Dev :=
  let row := rowL r
  let now := d.rd F.PW_DOM_VNOW row
  let lim := match d.pw.vtarget.find? row with
    | some t => min (paceLimit (d.pw.vlow.at row now)) (min (paceLimit now) (paceLimit t))
    | none => paceLimit now
  d.wrc F.FB_PACE_STS_LIMIT r lim

/-- A voltage step is withheld (R201, R335). -/
def Dev.stepHeld (d : Dev) (row target : Nat) : Bool :=
  if 10 ≤ row then
    let r := row - 10
    let cap := d.rd F.FB_PACE_CAP r
    decide (paceLimit target < d.rd F.FB_PACE_FLOOR r) || (decide (cap ≠ 0) && decide (paceLimit target < cap))
  else decide (target = 60) && d.bayFast (row - 1)

/-- Start the step to VSET where nothing withholds it; a newer target replaces an older one. -/
def Dev.voltStep (d : Dev) (row : Nat) : Dev :=
  let t := d.rd F.PW_DOM_VSET row
  let now := d.rd F.PW_DOM_VNOW row
  if t = now ∧ (d.pw.vtarget.find? row).isNone then d.wrc F.PW_DOM_VWAIT row 0
  else if d.stepHeld row t then
    -- a step under way to an older target goes on from its present voltage towards it
    d.wrc F.PW_DOM_VWAIT row 1
  else
    let d1 := (d.wrc F.PW_DOM_VWAIT row 0).modPw (fun p => { p with vtarget := p.vtarget.put row t, vlow := p.vlow.put row (min t (p.vlow.at row now)) })
    if 10 ≤ row then d1.showLimit (row - 10) else d1

/-- A write of VSET is within the range of its row (R340). -/
def vsetOk (row v : Nat) : Bool :=
  if 10 ≤ row ∧ row ≤ 73 then decide (10 ≤ v ∧ v ≤ 70) else if 1 ≤ row ∧ row ≤ 8 then decide (v = 60 ∨ v = 80) else false

/-- A host write of PW_DOMr: IDLE, and VSET where it is in range. -/
def Dev.pwDomWrite (d : Dev) (row w : Nat) : Dev :=
  if row = 0 ∨ 126 < row then d
  else
    let d1 := d.wrc F.PW_DOM_IDLE row (bits w 3 1)
    let v := bits w 16 8
    if vsetOk row v ∧ v ≠ d1.rd F.PW_DOM_VSET row then
      let d2 := d1.wr F.PW_DOM_VSET row v
      if d2.domOn row then d2.voltStep row else d2
    else d1

/-- The supply settles at its target (R334). A course that waited for its bay's shell is evaluated again, before a
step back to VSET. -/
def Dev.voltSettled (d : Dev) (row : Nat) : Dev :=
  match d.pw.vtarget.find? row with
  | none => d
  | some t =>
    let d1 := (d.wrc F.PW_DOM_VNOW row t).modPw (fun p => { p with vtarget := p.vtarget.del row, vlow := p.vlow.del row })
    let d2 := if 10 ≤ row then d1.showLimit (row - 10) else d1
    if 10 ≤ row then (if d2.rd F.PW_DOM_VSET row = t then d2 else d2.voltStep row)
    else d2.each (d2.usedCourses.filter (fun n => (d2.courseBays n).contains (row - 1))) (fun n d => d.courseEval n)

/-- A host write of FB_PACE.CAP: discarded below FLOOR; it may release a withheld step (R201). -/
def Dev.fbPaceWrite (d : Dev) (r w : Nat) : Dev :=
  let cap := bits w 0 12
  if cap ≠ 0 ∧ cap < d.rd F.FB_PACE_FLOOR r then d.wr F.FB_STS_WREJ r 1
  else
    let d1 := d.wrc F.FB_PACE_CAP r cap
    if d1.on F.PW_DOM_VWAIT (rowL r) then d1.voltStep (rowL r) else d1

/-! ## Units -/

/-- Unit ID of a context (R215). -/
def ctxUnit (r : Nat) (c : Ctx) : Nat := if c.paged then 0x600 + c.num else 0x400 + 8 * r + c.num

def regionKs (st : Nat) (bist fault active : Bool) : Nat :=
  if st = 0 then 0 else if st = 1 then 4 else if bist then 3 else if fault then 5 else if active then 2 else 1

def regionHealth (ks : Nat) : Nat := match ks with | 2 => 0 | 3 => 1 | 4 => 2 | 5 => 4 | _ => 3

/-- Publish a region (Table 8.2). -/
def Dev.regionRefresh (d : Dev) (r : Nat) : Dev :=
  let x := d.fbx r
  let active := (List.range 8).any (fun k => d.on F.FB_SLOT_ACTIVE (8 * r + k))
  let ks := regionKs (d.rd F.PW_DOM_STATE (rowL r)) x.bist x.fault active
  d.publish (0x080 + r) ks (regionHealth ks)

/-- The region under logic BIST, if any. -/
def Dev.lbRegion (d : Dev) : Option Nat := (List.find? (fun p => p.2.bist) d.fb).map (fun p => p.1)

/-- The logic BIST of a region ends with a RESULT of Table 13.12, a signature and a pattern count; its storage is
restored, and Self-test's vote withdrawn (R307, R308). -/
def Dev.lbEnd (d : Dev) (r result sig count : Nat) : Dev :=
  let d1 := ((d.wr0 F.ST_LSTS_BUSY 0).wr0 F.ST_LSTS_RESULT result).wr0 F.ST_LSIG_SIG sig
  let d2 := d1.wr0 F.ST_LCNT_COUNT count
  let d3 := if d2.on F.ST_LSTS_DONE then d2 else (d2.wr0 F.ST_LSTS_DONE 1).alert 8
  let d4 := d3.modFb r (fun x => { x with bist := false, fault := x.fault || decide (result = 2) })
  let d5 := if result = 2 then (d4.unitFault (0x080 + r) 2).fire 6 else d4
  (d5.regionRefresh r).vote 8 (rowL r) false

/-- The logic BIST of a region ends Aborted (R219). -/
def Dev.lbAbort (d : Dev) (r : Nat) : Dev :=
  if (d.fbx r).bist then d.draw.lbEnd r 4 (Config.lbistSignature d.draws).toNat (Config.lbistCount d.draws).toNat else d

def ctxHealth (ks : Nat) : Nat := match ks with | 1 => 0 | 2 => 0 | 3 => 2 | 4 => 2 | 6 => 4 | _ => 3

/-- The slots, as 8 × region + slot, that hold a paged context. -/
def Dev.holdersOf (d : Dev) (p : Nat) : List Nat :=
  (d.listed F.FB_SLOT_KIND).filter (fun i => decide (d.rd F.FB_SLOT_KIND i = 3 ∧ d.rd F.FB_SLOT_PNUM i = p))

/-- KSTATE of a context (Table 8.11): Fault from a failed page-in to the next successful one (R217). -/
def Dev.ctxKs (d : Dev) (r : Nat) (c : Ctx) : Nat :=
  if c.paged then
    let hs := d.holdersOf c.num
    if bit d.img.failed c.num then 6
    else if hs.any (fun i => d.on F.FB_SLOT_ACTIVE i) then 2
    else if ! hs.isEmpty then 1
    else if d.fb.any (fun p => decide (p.2.paging.any (fun g => g.pnum = c.num))) then 4
    else if bit d.img.paged c.num then 3
    else 0
  else
    let i := 8 * r + c.num
    match d.rd F.FB_SLOT_KIND i with
    | 1 => if d.on F.FB_SLOT_ACTIVE i then 2 else 1
    | 0 => 0
    | _ => 5

def Dev.ctxRefresh (d : Dev) (r : Nat) (c : Ctx) : Dev :=
  let ks := d.ctxKs r c
  d.publish (ctxUnit r c) ks (ctxHealth ks)

/-- The context in a slot, and a slot's units. -/
def Dev.slotCtx (d : Dev) (r k : Nat) : Ctx :=
  if d.rd F.FB_SLOT_KIND (8 * r + k) = 3 then ⟨true, d.rd F.FB_SLOT_PNUM (8 * r + k)⟩ else ⟨false, k⟩

def Dev.slotRefresh (d : Dev) (r k : Nat) : Dev :=
  let d1 := d.ctxRefresh r ⟨false, k⟩
  d1.ctxRefresh r (d1.slotCtx r k)

/-! ## Votes -/

/-- Purlin holds its vote on M while a queue holds a record, a NOTIFY waits or a page-in runs; its other operations are whole within a
command (R232, Table 14.3). -/
def Dev.purlinVote (d : Dev) : Dev :=
  d.vote 5 rowM (! (d.listed F.PU_QDEPTH_DEPTH).isEmpty || ! d.pu.notifies.isEmpty || d.fb.any (fun p => p.2.paging.isSome))

/-! ## Page-ins (R216, R217) -/

/-- The slot of a region in which a context is resident. -/
def Dev.residentSlot (d : Dev) (r : Nat) (c : Ctx) : Option Nat :=
  (List.range 8).find? (fun k =>
    let i := 8 * r + k
    if c.paged then decide (d.rd F.FB_SLOT_KIND i = 3 ∧ d.rd F.FB_SLOT_PNUM i = c.num)
    else decide (k = c.num ∧ d.rd F.FB_SLOT_KIND i = 1))

/-- Position of a slot in the order of latest running; slots that never ran come last. -/
def recency (recent : List Nat) (k : Nat) : Nat := (recent.findIdx? (· = k)).getD 8

/-- The frame that R216 chooses for a page-in. -/
def Dev.chooseFrame (d : Dev) (r : Nat) : Option Nat :=
  let frames := (List.range 8).filter (fun k => bit (d.rd F.FB_CFG_FRAMES r) k)
  match frames.find? (fun k => decide (d.rd F.FB_SLOT_KIND (8 * r + k) = 2)) with
  | some k => some k
  | none =>
    let x := d.fbx r
    let ok := frames.filter (fun k =>
      let i := 8 * r + k
      decide (d.rd F.FB_SLOT_KIND i = 3) && ! d.on F.FB_SLOT_PIN i && ! d.on F.FB_SLOT_ACTIVE i
        && ! x.sel.any (fun s => decide (s.ctx = ⟨true, d.rd F.FB_SLOT_PNUM i⟩)))
    ok.foldl (fun b k => match b with
      | none => some k
      | some j => if recency x.recent j < recency x.recent k then some k else some j) none

/-- Start a page-in; none where no frame is free. -/
def Dev.startPageIn (d : Dev) (r p : Nat) (prefetch : Bool) : Option Dev :=
  match d.chooseFrame r with
  | none => none
  | some k =>
    let i := 8 * r + k
    let old := d.slotCtx r k
    let d1 := ((d.wrc F.FB_SLOT_KIND i 2).wrc F.FB_SLOT_PNUM i 0).modFb r (fun x =>
      { x with paging := some { pnum := p, frame := k, prefetch := prefetch }, retry := false, shadow := x.shadow.del k
               recent := x.recent.filter (· ≠ k) })
    let d2 := (d1.wrc F.FB_STS_PGBUSY r 1).bump F.FB_CNT_PGIN_COUNT r
    let d3 := if old.paged then d2.ctxRefresh r old else d2
    some (((d3.ctxRefresh r ⟨true, p⟩).ctxRefresh r ⟨false, k⟩).purlinVote)

/-! ## Selections (R212 to R218) -/

/-- Set or clear the pending selection and what FB_STS shows of it. -/
def Dev.setSel (d : Dev) (r : Nat) (s : Option SelX) : Dev :=
  let d1 := d.modFb r (fun x => { x with sel := s, retry := x.retry && s.isSome })
  (d1.wrc F.FB_STS_SWPEND r (b2n s.isSome)).wrc F.FB_STS_CWAIT r (b2n (s.isSome && ! d.domOn rowC))

/-- Begin what a pending selection of a context that is not resident needs: a page-in where none runs. With no
frame, a Self request ends NO_FRAME and another selection is retried. -/
def Dev.selStart (d : Dev) (r : Nat) : Dev :=
  let x := d.fbx r
  match x.sel with
  | none => d
  | some s =>
    if (d.residentSlot r s.ctx).isSome ∨ ! s.ctx.paged ∨ x.paging.isSome ∨ ! d.domOn rowC then d
    else
      match d.startPageIn r s.ctx.num false with
      | some d1 => d1
      | none =>
        if s.self then (d.setSel r none).modFb r (fun x => { x with csw := some 2 })
        else d.modFb r (fun x => { x with retry := true })

/-- A selection names a context: it replaces a pending one; a context that runs already needs no switch. -/
def Dev.select (d : Dev) (r : Nat) (c : Ctx) (course : Option (Nat × Nat)) (self : Bool) : Dev :=
  let running := decide (d.rd F.FB_STS_ACT_CTX r = c.num) && decide (d.on F.FB_STS_ACT_PAGED r = c.paged)
    && (d.residentSlot r c).any (fun k => d.on F.FB_SLOT_ACTIVE (8 * r + k))
  let d1 := d.lbAbort r
  if running then d1.setSel r none
  else (d1.setSel r (some { ctx := c, course := course, self := self })).selStart r

/-- The context that a region's selector names now. -/
def Dev.selected (d : Dev) (r : Nat) : Ctx :=
  match d.rd F.FB_CFG_SELMODE r with
  | 0 => ⟨d.on F.FB_CTXSEL_PAGED r, d.rd F.FB_CTXSEL_CTX r⟩
  | 1 => let n := d.rd F.FB_CFG_COURSE r
         ⟨d.on F.CS_CTX_PAGED n, d.rd F.CS_CTX_CTX n⟩
  | _ => (d.fbx r).last

/-- A course's words reach its region with a boundary's word next: what the inbound half of logical lane 0's A-to-B direction still holds
begins at the boundary (R213). -/
def Dev.fabricClear (d : Dev) (n : Nat) : Bool :=
  ! d.on F.CS_CTL_VIA_FABRIC n || (d.logicalTp n 0).elim true (fun tp => ((d.gutter tp).inb.head?).elim true (fun w => w.bnd))

/-- A pending selection has fallen due: not bound to a course, or its course has met a boundary since, and every word before it has
passed. -/
def Dev.selDue (d : Dev) (s : SelX) : Bool :=
  match s.course with
  | none => true
  | some (n, mark) => (d.boundaryNow courseCount n || decide (mark < d.bnd.at n 0)) && d.fabricClear n

/-- Run a slot's context: the working copy takes it, storage elements move to and from the shadows (R212). -/
def Dev.runSlot (d : Dev) (r k : Nat) (work : Nat) : Dev :=
  let old := (List.range 8).find? (fun j => d.on F.FB_SLOT_ACTIVE (8 * r + j))
  let d1 := match old with
    | some j => (d.wrc F.FB_SLOT_ACTIVE (8 * r + j) 0).modFb r (fun x => { x with shadow := x.shadow.put j x.work })
    | none => d
  let c := d1.slotCtx r k
  let d2 := (d1.wrc F.FB_SLOT_ACTIVE (8 * r + k) 1).modFb r (fun x =>
    { x with work := work, last := c, recent := k :: x.recent.filter (fun j => j ≠ k) })
  let d3 := (d2.wrc F.FB_STS_ACT_CTX r c.num).wrc F.FB_STS_ACT_PAGED r (b2n c.paged)
  let d4 := d3.slotRefresh r k
  let d5 := match old with | some j => d4.slotRefresh r j | none => d4
  d5.regionRefresh r

/-- The due switch takes place at a handshake boundary (R212). -/
def Dev.contextSwitch (d : Dev) (r : Nat) : Dev :=
  let x := d.fbx r
  match x.sel with
  | none => d
  | some s =>
    match d.residentSlot r s.ctx with
    | none => d
    | some k =>
      if d.selDue s ∧ d.domOn rowC ∧ d.domOn (rowL r) then
        let d1 := ((d.lbAbort r).setSel r none).runSlot r k (x.shadow.at k (d.img.init.at (ctxUnit r (d.slotCtx r k)) 0))
        let d2 := d1.bump F.FB_CNT_SW_COUNT r
        if s.late then d2.bump F.FB_CNT_LATE_COUNT r else d2
      else d

/-- A page-in ends: its context is resident, or the frame stays free and the context is in Fault (R216,
R217). A selection of a course waits for the first boundary after it (R218). -/
def Dev.pageInDone (d : Dev) (r : Nat) (ok : Bool) : Dev :=
  let x := d.fbx r
  match x.paging with
  | none => d
  | some g =>
    let i := 8 * r + g.frame
    let c : Ctx := ⟨true, g.pnum⟩
    let mine := x.sel.any (fun s => decide (s.ctx = c))
    let d0 := (d.modFb r (fun x => { x with paging := none })).wrc F.FB_STS_PGBUSY r 0
    let bitOf := if bit d0.img.failed g.pnum then 2 ^ g.pnum else 0
    let d1 :=
      if ok then
        let d1 := (d0.wrc F.FB_SLOT_KIND i 3).wrc F.FB_SLOT_PNUM i g.pnum
        let d2 := d1.modFb r (fun x => { x with
          shadow := x.shadow.put g.frame (d1.img.init.at (ctxUnit r c) 0)
          csw := if mine && x.sel.any (fun s => s.self) then some 1 else x.csw
          sel := x.sel.map (fun s => if decide (s.ctx = c) && s.course.isSome then
            { s with late := true, course := s.course.map (fun p => (p.1, d.bnd.at p.1 0)) } else s) })
        { d2 with img := { d2.img with failed := d2.img.failed - bitOf } }
      else
        let d1 := { d0 with img := { d0.img with failed := d0.img.failed - bitOf + 2 ^ g.pnum } }
        let self := x.sel.any (fun s => s.self)
        let d2 := if mine ∧ self then (d1.setSel r none).modFb r (fun x => { x with csw := some 3 })
                  else if mine then d1.modFb r (fun x => { x with retry := true }) else d1
        (d2.unitFault (ctxUnit r c) 1).wr0 F.CF_STS_FAULTS 1
    let d2 := if g.prefetch then (d1.wrc F.FB_PGSTS_BUSY r 0).wrc F.FB_PGSTS_RESULT r (if ok then 0 else 4) else d1
    let d3 := ((d2.ctxRefresh r c).ctxRefresh r ⟨false, g.frame⟩).purlinVote
    let d4 := d3.admitWaiting
    if (d4.fbx r).retry then d4 else d4.selStart r

/-- A region back from Off reloads its selected context with the initial storage values (R215). A selection that waits for no
course is the one it reloads; a paged context that is not resident is paged in first. -/
def Dev.reloadContext (d : Dev) (r : Nat) : Dev :=
  let want := match (d.fbx r).sel with
    | some s => if s.course.isNone then s.ctx else d.selected r
    | none => d.selected r
  match d.residentSlot r want with
  | none => (if want.paged ∧ bit d.img.paged want.num then d.select r want none false else d).regionRefresh r
  | some k =>
    let d1 := d.runSlot r k (d.img.init.at (ctxUnit r (d.slotCtx r k)) 0)
    if (d1.fbx r).sel.any (fun s => decide (s.ctx = want)) then d1.setSel r none else d1

/-! ## Gutters (R202 to R205) -/

/-- The region that a transceiver's gutter is bound to. -/
def Dev.gutRegion (d : Dev) (l : Nat) : Option Nat :=
  ((d.listed F.FB_GUTMAP_MAP).find? (fun i => decide (i % 4 = l / 32) && bit (d.rd F.FB_GUTMAP_MAP i) (l % 32))).map (· / 4)

/-- A gutter carries words: its course is Decoded with VIA_FABRIC, in Run, Degraded or Idle (R203). -/
def Dev.gutActive (d : Dev) (l : Nat) : Bool :=
  (d.laneCourse (laneTp l)).elim false (fun n => d.decodedMode n && d.on F.CS_CTL_VIA_FABRIC n && d.inService n)

/-- Before the region takes a word with BND of the course that selects its context, a switch that is due there takes place (R213). -/
def Dev.switchBefore (d : Dev) (l : Nat) : Dev :=
  match d.gutRegion l with
  | none => d
  | some r =>
    if (d.fbx r).sel.any (fun s => s.course.any (fun c => decide (d.logicalTp c.1 0 = some l))) then d.contextSwitch r else d

/-- The region raises GI_ACK for the words at the head of an inbound half, and they leave it (Table 8.5). -/
def Dev.gutterTake (d : Dev) (l n : Nat) : Dev :=
  match n with
  | 0 => d
  | n + 1 =>
    match (d.gutter l).inb with
    | [] => d
    | w :: _ => ((if w.bnd then d.switchBefore l else d).modGut l (fun x => { x with inb := x.inb.drop 1 })).gutterTake l n

/-- The shell writes a word into an inbound half; a full half loses it (R205). -/
def Dev.gutterIn (d : Dev) (l : Nat) (w : GutterWord) : Dev :=
  if ! d.gutActive l then d
  else
    let x := d.gutter l
    if 32 ≤ x.inb.length then
      let d1 := d.modGut l (fun x => { x with errNext := true })
      match d1.gutRegion l with | some r => d1.bump F.FB_CNT_GOVF_COUNT r | none => d1
    else d.modGut l (fun x => { x with inb := x.inb ++ [{ w with err := w.err || x.errNext }], errNext := false })

/-- A gutter whose region is On. -/
def Dev.gutLive (d : Dev) (l : Nat) : Bool := (d.gutRegion l).any (fun r => d.domOn (rowL r))

/-- A region raises GO_REQ with a word: stored and acknowledged, or in a full half left without GO_ACK until space appears, with no
other word meanwhile (Table 8.5). -/
def Dev.gutterOut (d : Dev) (l : Nat) (w : GutterWord) : Dev :=
  if ! d.gutLive l ∨ ! d.gutActive l ∨ (d.gutter l).outWait.isSome then d
  else d.modGut l (fun x =>
    if 32 ≤ x.outb.length then { x with outWait := some w }
    else { x with outb := x.outb ++ [w], filling := x.filling && decide (x.outb.length + 1 < 8) })

/-- The shell takes a word at its word-clock edge, and a word that waits for space is stored (Table 8.5). -/
def Dev.shellTake (d : Dev) (l : Nat) : Dev :=
  d.modGut l (fun x =>
    match x.outb with
    | [] => x
    | w :: rest => { x with outb := rest ++ x.outWait.toList, outWait := none, sent := if w.err then 2 else 0 })

/-- A line code's share of payload (Table 8.6). -/
def payloadShare (c : LineCode) : Nat × Nat :=
  match c with
  | .c8b10 => (8, 10)
  | .c64b66 => (64, 66)
  | .c128b130 => (128, 130)
  | .pam4 => (16, 17)

/-- A nanosecond of an outbound half that has been filled: the shell's word-clock edges come at the word rate of Table 8.6. -/
def Dev.tickGutter (d : Dev) (l : Nat) : Dev :=
  let x := d.gutter l
  if x.filling ∨ x.outb.isEmpty ∨ ! d.gutActive l then d
  else
    match (d.laneCourse (laneTp l)).bind (fun n => rateRow (d.rd F.CS_RATE_RATE n)) with
    | none => d
    | some row =>
      let share := payloadShare row.code
      let step := row.kbps * share.1
      let word := 512 * share.2 * 1000000
      if x.edge + step < word then d.modGut l (fun x => { x with edge := x.edge + step })
      else (d.modGut l (fun x => { x with edge := x.edge + step - word })).shellTake l

def Dev.tickGutters (d : Dev) : Dev := d.each (d.gut.map (fun p => p.1)) (fun l d => d.tickGutter l)

/-- The shell needs a word and finds none: idle between frames, else the error indication; the half refills
(R205). -/
def Dev.gutterUnderrun (d : Dev) (l : Nat) (between : Bool) : Dev :=
  if ! d.gutActive l ∨ ! (d.gutter l).outb.isEmpty then d
  else
    let d1 := d.modGut l (fun x => { x with filling := true, sent := if between then 1 else 2 })
    match d1.gutRegion l with | some r => d1.bump F.FB_CNT_GUNF_COUNT r | none => d1

end Sys2Proof.Machine
end

