-- ==== Sys2Proof/Machine/Tier.lean ====
section
/-! DEFINITION. Commands of the memory tier: spar port requests and responses, freed places, scrubs, the
management window, the block guard and the compatibility window (R207 to R247 of spec/08_fabric.md and
spec/09_memory_tier.md). -/
namespace Sys2Proof.Machine

/-! ## Spar ports -/

/-- A spar port request of Table 9.2: the port and the tag exist, and a region's outputs are not clamped
(R210). -/
def Dev.sparExists (d : Dev) (p : SparPort) (tag : Nat) : Bool :=
  decide (p.port.val < portsOf p.master.val ∧ tag < tagsOf p.master.val)
    && (decide (64 ≤ p.master.val) || d.domOn (rowL p.master.val))

/-- A request arrives on a spar port. -/
def Dev.sparRequest (d : Dev) (p : SparPort) (tag kind addr : Nat) (beats : List (Nat × Nat)) : Dev :=
  if d.sparExists p tag then
    d.request_ { master := p.master.val, port := p.port.val, tag := tag, kind := kind, addr := addr, beats := beats, at_ := d.now }
  else d

/-- SPAR_READ_WORD. -/
def execSparReadWord (port : SparPort) (tag : Fin 64) (addr : BitVec 29) (s : State) : Host.Outcome State Fault Refusal :=
  s.upd (fun d => d.sparRequest port tag.val 0 addr.toNat [])

/-- SPAR_WRITE_WORD. -/
def execSparWriteWord (port : SparPort) (tag : Fin 64) (addr : BitVec 29) (mask : BitVec 32) (data : BitVec 256) (s : State) :
    Host.Outcome State Fault Refusal :=
  s.upd (fun d => d.sparRequest port tag.val 1 addr.toNat [(mask.toNat, data.toNat)])

/-- SPAR_READ_BLOCK. -/
def execSparReadBlock (port : SparPort) (tag : Fin 64) (addr : BitVec 29) (s : State) : Host.Outcome State Fault Refusal :=
  s.upd (fun d => d.sparRequest port tag.val 2 addr.toNat [])

/-- SPAR_WRITE_BLOCK: the beats in order; a beat that is not given writes nothing. -/
def execSparWriteBlock (port : SparPort) (tag : Fin 64) (addr : BitVec 29) (beats : List WriteBeat) (s : State) :
    Host.Outcome State Fault Refusal :=
  s.upd (fun d => d.sparRequest port tag.val 3 addr.toNat ((beats.take 8).map (fun b => (b.mask.toNat, b.data.toNat))))

/-- SPAR_RESPONSE: the operation's last response beat is acknowledged (R225, R231). -/
def execSparResponse (port : SparPort) (tag : Fin 64) (ecc : List EccSeen) (earlier : List (List EccSeen)) (s : State) :
    Host.Outcome State Fault Refusal :=
  .next (s.respond port.master.val port.port.val tag.val ecc earlier)

/-- How far a waiting port lies above the master last served, in the order of R231. -/
def placeRank (last : Nat) (o : Op) : Nat := (o.master + 68 - last) % 69 * 8 + o.port

/-- A freed place goes to a waiting port (R231): of each port only its first request may be acknowledged. -/
def Dev.givePlace (d : Dev) : Dev :=
  let best := d.placeWaits.foldl (fun b o => match b with
    | none => some o
    | some c => if placeRank d.mt.lastServed o < placeRank d.mt.lastServed c then some o else some c) none
  match best with
  | none => d
  | some o =>
    if 4096 ≤ d.mt.ops.length then d
    else (d.modMt (fun m => { m with waits := m.waits.erase o, lastServed := o.master })).issue o

/-- INFLIGHT_PLACE_FREED. -/
def execInflightPlaceFreed (s : State) : Host.Outcome State Fault Refusal := s.upd Dev.givePlace

/-! ## Scrub (R228) -/

/-- SCRUB: the bank reads its next row and writes it back. -/
def execScrub (bank : Fin 512) (seen : EccSeen) (s : State) : Host.Outcome State Fault Refusal :=
  s.upd (fun d =>
    if d.rd F.MT_CTL_SCRUB_INT = 0 ∨ ! d.domOn rowM then d
    else
      let row := d.mt.scrub.at bank.val 0
      let r := d.checkWord (bankRow bank.val row) 0x7F (Config.scrubPort d.draws).toNat false seen
      r.1.draw.modMt (fun m => { m with scrub := m.scrub.put bank.val ((row + 1) % 8192) }))

/-! ## Management window (R244 to R246) -/

/-- The Tier M address, with the view, of an offset into the window. -/
def Dev.windowAddr (d : Dev) (o : Nat) : Nat :=
  d.rd F.MT_WINBASE_VIEW * 2 ^ 27 + (d.rd F.MT_WINBASE_BASE * 0x100000 + o) % 2 ^ 27

/-- A window access through master 66, which completes at once unless its request or its response is held back. Only 32-bit accesses at
multiples of 4 are served. -/
def State.windowAccess (s : State) (o : Nat) (write : Option Nat) (seen : EccSeen) : State :=
  let a := s.dev.windowAddr o
  let beats := match write with | some v => [(15 * 2 ^ (a % 32), v * 2 ^ (8 * (a % 32)))] | none => []
  let op : Op := { master := 66, port := 0, tag := 0, kind := if write.isSome then 1 else 0, addr := a, beats := beats, at_ := s.dev.now }
  let busy := s.dev.mt.ops.any (fun p => decide (p.master = 66))
  let s1 := s.on (fun d => d.request_ op)
  if busy then s1 else s1.respond 66 0 0 [seen] []

/-- A read of the window at an offset. -/
def State.windowRead (s : State) (o : Nat) (seen : EccSeen) : State :=
  if o % 4 ≠ 0 then s
  else if ! s.dev.domOn rowM then s.on (fun d => (d.wrc F.PW_STS_OFFACC 0 1).modMt (fun m => { m with winRead := 0 }))
  else s.windowAccess o none seen

/-- A write of the window at an offset. -/
def State.windowWrite (s : State) (o v : Nat) (seen : EccSeen) : State :=
  if o % 4 ≠ 0 then s
  else if ! s.dev.domOn rowM then s.on (fun d => d.wrc F.PW_STS_OFFACC 0 1)
  else s.windowAccess o (some v) seen

/-- WINDOW_READ. -/
def execWindowRead (addr : BitVec 20) (seen : EccSeen) (s : State) : Host.Outcome State Fault Refusal :=
  .next (s.windowRead addr.toNat seen)

/-- WINDOW_WRITE. -/
def execWindowWrite (addr : BitVec 20) (data : BitVec 32) (seen : EccSeen) (s : State) : Host.Outcome State Fault Refusal :=
  .next (s.windowWrite addr.toNat data.toNat seen)

/-- COMPAT_CHANGE: a committed change takes effect once no operation remains that an arbiter had admitted by then (R236). -/
def execCompatChange (s : State) : Host.Outcome State Fault Refusal :=
  s.upd (fun d =>
    if d.on F.MT_STS_COMPAT_PEND && ! d.mt.ops.any (fun o => decide (o.seq < d.mt.compatSeq) && ! o.denied && ! o.badReq) then
      (d.wr0 F.MT_CTL_COMPAT (b2n d.mt.compat)).wr0 F.MT_STS_COMPAT_PEND 0
    else d)

/-! ## The block guard (R240 to R243) -/

/-- The spar port number of a guarded block (Table 9.8). -/
def guardNumber (b : GuardedBlock) : Nat :=
  match b with
  | .request p .. | .response p .. => sparNumber p.master.val p.port.val
  | .gutterIn tp s _ | .gutterOut tp s _ => laneIx tp.val s
  | .record u _ => 128 + u.val
  | .message p .. => 256 + p.val
  | .config r _ => 272 + r.val
  | .pageIn r p _ => sparNumber r.val p.val

/-- The octets that a block's CRC-32C covers (R240; log entry 85): its header fields, each in whole octets, then its data. -/
def guardBytes (b : GuardedBlock) : List Byte :=
  match b with
  | .request _ t op a beats =>
    bytesLE op.val 1 ++ bytesLE a.toNat 3 ++ bytesLE t.val 1
      ++ ((List.range beats.length).flatMap (fun k => bytesLE k 1 ++ bytesLE ((beats.getD k ⟨0, 0⟩).mask.toNat) 4))
      ++ beats.flatMap (fun x => bytesLE x.data.toNat 32)
  | .response _ t beats =>
    bytesLE t.val 1 ++ ((List.range beats.length).flatMap (fun k => bytesLE k 1 ++ bytesLE ((beats.getD k ⟨0, 0⟩).status.val) 1))
      ++ beats.flatMap (fun x => bytesLE x.data.toNat 32)
  | .gutterIn _ _ w | .gutterOut _ _ w => bytesLE w.ctl.toNat 8 ++ bytesLE (b2n w.bnd + 2 * b2n w.err) 1 ++ bytesLE w.data.toNat 64
  | .record _ bs | .message _ _ bs | .config _ bs | .pageIn _ _ bs => bytesLE (guardNumber b) 2 ++ bs

/-- A receiver's check of a block against the CRC-32C that came with it. -/
def guardOk (b : GuardedBlock) (crc : BitVec 32) : Bool := decide (crc.toNat = crc32c (guardBytes b))

/-- The master that a poison record names (Table 9.8). -/
def Dev.guardMaster (d : Dev) (b : GuardedBlock) : Nat :=
  match b with
  | .request p .. | .response p .. => p.master.val
  | .gutterIn tp s _ | .gutterOut tp s _ => (d.gutRegion (laneIx tp.val s)).getD 0x7F
  | .record .. => 64
  | .message _ r _ => (r.map (fun r => r.val)).getD 0x7F
  | .config r _ => r.val
  | .pageIn .. => 64

/-- The direction of a block: 0 toward Tier M or the upper tier, 1 toward the master or the lower tier. Extraction
records rise and insertion records fall; a message's direction is that of its sender. -/
def Dev.guardDir (d : Dev) (b : GuardedBlock) : Nat :=
  match b with
  | .request .. => 0
  | .response .. => 1
  | .gutterIn .. => 0
  | .gutterOut .. => 1
  | .record u _ => b2n (! d.on F.TS_IE_CTL_EXT_EN u.val)
  | .message _ r _ => b2n r.isSome
  | .config .. => 1
  | .pageIn .. => 1

/-- What a re-send request of the block names: its bundle, its direction, and the TAG of a spar port's transfer (R241). -/
def guardKey (b : GuardedBlock) : Nat :=
  guardNumber b + (match b with
    | .request _ t .. => 0x400 * t.val
    | .response _ t .. => 0x400 * t.val + 0x10000
    | .gutterOut .. => 0x10000
    | _ => 0)

/-- The operation that a request or response block belongs to. -/
def Dev.guardOp (d : Dev) (p : SparPort) (tag : Nat) : Option Op :=
  d.mt.ops.find? (fun o => decide (o.master = p.master.val ∧ o.port = p.port.val ∧ o.tag = tag))

/-- Change an operation in flight, or one that still waits to be acknowledged. -/
def Dev.markOp (d : Dev) (p : SparPort) (tag : Nat) (g : Op → Op) : Dev :=
  let one (o : Op) : Op := if o.master = p.master.val ∧ o.port = p.port.val ∧ o.tag = tag then g o else o
  d.modMt (fun m => { m with ops := m.ops.map one, waits := m.waits.map one })

/-- The transfers of a bundle stand still while a block of theirs is under re-send. -/
def Dev.guardHold (d : Dev) (b : GuardedBlock) (on : Bool) : Dev :=
  match b with
  | .request p t .. => d.markOp p t.val (fun o => { o with waitReq := on })
  | .response p t .. => d.markOp p t.val (fun o => { o with waitResp := on })
  | _ => d

/-- An accepted block: a gutter word is delivered; the other bundles' commands carry their own contents. -/
def Dev.guardAccept (d : Dev) (b : GuardedBlock) : Dev :=
  match b with
  | .gutterIn tp s w => d.gutterIn (laneIx tp.val s) w
  | .gutterOut tp s w => d.gutterOut (laneIx tp.val s) w
  | _ => d.guardHold b false

/-- A poisoned block at its receiver (Table 9.7): a record's and a message's next command finds nothing. -/
def Dev.guardPoison (d : Dev) (b : GuardedBlock) : Dev :=
  match b with
  | .request p t .. => d.markOp p t.val (fun o => { o with badReq := true, waitReq := false })
  | .response p t beats => d.markOp p t.val (fun o => { o with badResp := some (beats.map (fun b => b.data)), waitResp := false })
  | .gutterIn tp s w => d.gutterIn (laneIx tp.val s) { w with err := true }
  | .gutterOut tp s w => d.gutterOut (laneIx tp.val s) { w with err := true }
  | .record u _ => { d with points := d.points.put u.val { d.points.at u.val {} with lost := true } }.bump F.TS_IE_CNT_DROP_COUNT u.val
  | .message _ (some r) _ => d.modFb r.val (fun x => { x with msgLost := true })
  | .message _ none _ => d
  | .config r _ =>
    let d1 := (d.modFb r.val (fun x => { x with fault := true })).unitFault (0x080 + r.val) 3
    (d1.regionRefresh r.val).wr0 F.CF_STS_FAULTS 1
  | .pageIn r .. => d.pageInDone r.val false

/-- The address that a poison record can give: a failed read response's. -/
def Dev.guardAddr (d : Dev) (b : GuardedBlock) : Option Nat :=
  match b with
  | .response p t _ => ((d.guardOp p t.val).filter (fun o => ! o.isWrite)).bind (fun o => o.words.head?)
  | _ => none

/-- The check of a block at its receiver fails for the nth time: re-sent up to three times, then delivered
poisoned (R241). -/
def Dev.guardFail (d : Dev) (b : GuardedBlock) (n : Nat) : Dev :=
  if n < 4 then (d.modMt (fun m => { m with guards := m.guards.put (guardKey b) { fails := n, block := b } })).guardHold b true
  else
    let d1 := d.modMt (fun m => { m with guards := m.guards.del (guardKey b) })
    (d1.poisonEvent (guardNumber b) (d.guardMaster b) (d.guardDir b) 0 (d.guardAddr b)).guardPoison b

/-- GUARDED_BLOCK: a block reaches its receiver, which checks it before acting on it. A block under re-send
comes again with its re-send request only. -/
def execGuardedBlock (block : GuardedBlock) (crc : BitVec 32) (s : State) : Host.Outcome State Fault Refusal :=
  s.upd (fun d =>
    if (d.mt.guards.find? (guardKey block)).isSome then d
    else if guardOk block crc then d.guardAccept block
    else d.guardFail block 1)

/-- RESEND_REQUEST: the sender re-sends the block from its retry buffer, and the receiver checks it again as it arrives. -/
def execResendRequest (sparPort : Fin 858) (block : GuardedBlock) (crc : BitVec 32) (s : State) : Host.Outcome State Fault Refusal :=
  s.upd (fun d =>
    match d.mt.guards.find? (guardKey block) with
    | none => d
    | some g =>
      if guardNumber block ≠ sparPort.val then d
      else
        let d1 := d.bump F.MT_CNT_RESEND_COUNT
        if guardOk block crc then (d1.modMt (fun m => { m with guards := m.guards.del (guardKey block) })).guardAccept block
        else d1.guardFail block (g.fails + 1))

end Sys2Proof.Machine
end

