-- ==== Sys2Proof/Machine/SelfTest.lean ====
section
/-! DEFINITION. Commands of memory BIST, soft repair, logic BIST and lane tests (R302 to R311 of
spec/13_self_test_snapshot.md). -/
namespace Sys2Proof.Machine

/-! ## Memory BIST -/

def Dev.modMb (d : Dev) (g : MbX → MbX) : Dev := { d with mb := g d.mb }

/-- The first block from `b` on that a pass tests: up to ST_MEND, outside the secure region. -/
def Dev.mbFrom (d : Dev) (b : Nat) : Option Nat :=
  if b ≤ d.rd F.ST_MEND_LAST ∧ b < 0x7C000 then some b else none

/-- A pass starts at ST_MSTART. -/
def Dev.mbPass (d : Dev) : Dev :=
  let first := d.rd F.ST_MSTART_FIRST
  (d.modMb (fun m => { m with under := none, todo := [], ptr := d.mbFrom first, yields := [], failed := false })).wrc
    F.ST_MPROG_BLOCK 0 first

/-- The next block that a pass will test. -/
def Dev.mbNext (d : Dev) : Option Nat := match d.mb.todo with | b :: _ => some b | [] => d.mb.ptr

/-- The running BIST ends. -/
def Dev.mbDone (d : Dev) (result : Nat) : Dev :=
  let d1 := (d.wr0 F.ST_MSTS_RESULT result).wr0 F.ST_MSTS_STATE 0
  let d2 := if d1.on F.ST_MSTS_DONE then d1 else (d1.wr0 F.ST_MSTS_DONE 1).alert 8
  (d2.modMb (fun m => { m with under := none, todo := [], ptr := none, stop := false })).vote 8 rowM false

/-- A pass ends: with LOOP set the next one starts (R304). -/
def Dev.mbPassEnd (d : Dev) : Dev :=
  let result := if d.mb.failed then 2 else 1
  let d1 := d.wrc F.ST_MSTS_PASSES 0 (min (d.rd F.ST_MSTS_PASSES + 1) 65535)
  if d1.on F.ST_MCMD_LOOP then
    let d2 := d1.wr0 F.ST_MSTS_RESULT result
    let d3 := if d2.on F.ST_MSTS_DONE then d2 else (d2.wr0 F.ST_MSTS_DONE 1).alert 8
    (d3.wrc F.ST_MSTS_STATE 0 1).mbPass
  else d1.mbDone result

/-- ST_MCMD START; ignored while a pass runs. -/
def Dev.mbStart (d : Dev) : Dev :=
  if d.rd F.ST_MSTS_STATE ≠ 0 then d
  else
    let d1 := ((d.wr0 F.ST_MSTS_STATE 1).wr0 F.ST_MSTS_RESULT 0).wr0 F.ST_MSTS_PASSES 0
    (d1.modMb (fun m => { m with stop := false })).mbPass.vote 8 rowM true

/-- ST_MCMD STOP: after the current block, or at once between two blocks. -/
def Dev.mbStop (d : Dev) : Dev :=
  if d.rd F.ST_MSTS_STATE = 0 then d
  else if d.mb.under.isSome then d.modMb (fun m => { m with stop := true })
  else d.mbDone 3

/-- MBIST_START. -/
def execMbistStart (s : State) : Host.Outcome State Fault Refusal := s.upd (fun d => d.whenOn rowM Dev.mbStart)

/-- MBIST_STOP. -/
def execMbistStop (s : State) : Host.Outcome State Fault Refusal := s.upd (fun d => d.whenOn rowM Dev.mbStop)

/-- MBIST_BLOCK_START: the next block's words are saved. A pass with no block to test ends. -/
def execMbistBlockStart (s : State) : Host.Outcome State Fault Refusal :=
  s.upd (fun d =>
    if d.rd F.ST_MSTS_STATE = 0 ∨ d.mb.under.isSome ∨ ! d.domOn rowM then d
    else
      match d.mbNext with
      | none => d.mbPassEnd
      | some b =>
        let d1 := d.modMb (fun m => { m with
          under := some b
          touched := false
          todo := m.todo.drop 1
          ptr := if m.todo.isEmpty then d.mbFrom (b + 1) else m.ptr })
        (d1.wrc F.ST_MSTS_STATE 0 1).wrc F.ST_MPROG_BLOCK 0 b)

/-- The distinct failing bits of one word of the block, lowest first. -/
def failsOf (fails : List BitFail) (w : Nat) : List Nat :=
  (List.range 272).filter (fun b => fails.any (fun f => decide (f.word.val = w ∧ f.bit.val = b)))

/-- Count a tested block's failures, and latch the first (R304). -/
def Dev.mbFails (d : Dev) (b : Nat) (fails : List BitFail) : Dev :=
  let bad := (List.range 8).filter (fun w => ! (failsOf fails w).isEmpty)
  let n := ((List.range 8).map (fun w => (failsOf fails w).length)).foldl (· + ·) 0
  match bad with
  | [] => d
  | w :: _ =>
    let bs := failsOf fails w
    let d1 := d.bumpBy F.ST_MFAIL_CNT_COUNT 0 n
    let d2 :=
      if d1.on F.ST_MFAIL_ADDR_VALID then d1
      else
        let d2 := (d1.wr0 F.ST_MFAIL_ADDR_ADDR (256 * b + 32 * w)).wr0 F.ST_MFAIL_ADDR_VALID 1
        (d2.wr0 F.ST_MFAIL_BIT_BIT (bs.headD 0)).wr0 F.ST_MFAIL_BIT_MULTI (b2n (decide (1 < bs.length)))
    let d3 := if d2.mb.failed then d2 else d2.fire 6
    d3.modMb (fun m => { m with failed := true })

/-- The engine yields at a block: retried after the next one, skipped at the eighth yield of a pass (R303). -/
def Dev.mbYield (d : Dev) (b : Nat) : Dev :=
  let n := d.mb.yields.at b 0 + 1
  let d1 := d.modMb (fun m => { m with yields := m.yields.put b n })
  if 8 ≤ n then d1.bump F.ST_MSKIP_COUNT
  else
    let d2 := d1.wrc F.ST_MSTS_STATE 0 2
    match d2.mb.todo with
    | y :: rest => d2.modMb (fun m => { m with todo := y :: b :: rest })
    | [] =>
      match d2.mb.ptr with
      | some y => d2.modMb (fun m => { m with todo := [y, b], ptr := d2.mbFrom (y + 1) })
      | none => d2.modMb (fun m => { m with todo := [b] })

/-- MBIST_BLOCK_DONE: the saved words are back in place. The engine yielded where another master used the block's words,
and where the operand says so. -/
def execMbistBlockDone (yielded : Bool) (fails : List BitFail) (s : State) : Host.Outcome State Fault Refusal :=
  s.upd (fun d =>
    match d.mb.under with
    | none => d
    | some b =>
      let gave := yielded || d.mb.touched
      let d1 := d.modMb (fun m => { m with under := none })
      let d2 := if gave then d1.mbYield b else d1.mbFails b fails
      let failed := ! gave && ! fails.isEmpty
      if d2.mb.stop then d2.mbDone 3
      else if failed && d2.on F.ST_MCMD_STOPFAIL then d2.mbPassEnd
      else
        match d2.mbNext with
        | none => d2.mbPassEnd
        | some c => d2.wrc F.ST_MPROG_BLOCK 0 c)

/-! ## Repair (R305, R306) -/

def Dev.repairsOf (d : Dev) (bank : Nat) : List (Bool × Nat) := d.fuse.repairs.at bank [] ++ d.mb.soft.at bank []

/-- Spares left in a bank: rows of 4, columns of 2. -/
def Dev.sparesLeft (d : Dev) (bank : Nat) (column : Bool) : Nat :=
  (if column then 2 else 4) - ((d.repairsOf bank).filter (fun p => p.1 = column)).length

/-- ST_MREP_STS shows the spares of the bank named. -/
def Dev.showSpares (d : Dev) (bank : Nat) : Dev :=
  (d.wrc F.ST_MREP_STS_ROWS_LEFT 0 (d.sparesLeft bank false)).wrc F.ST_MREP_STS_COLS_LEFT 0 (d.sparesLeft bank true)

/-- REPAIR APPLY. -/
def Dev.repairApply (d : Dev) (bank : Nat) (column : Bool) (index : Nat) : Dev :=
  if d.on F.ST_MREP_STS_BUSY then d.wr0 F.ST_MREP_STS_RESULT 4
  else
    let res (k : Nat) : Dev := (d.wr0 F.ST_MREP_STS_RESULT k).showSpares bank
    if column ∧ 272 ≤ index then res 3
    else if (d.repairsOf bank).contains (column, index) then res 2
    else if d.sparesLeft bank column = 0 then res 1
    else ((res 0).wr0 F.ST_MREP_STS_BUSY 1).modMb (fun m => { m with copy := some (bank, column, index) })

/-- REPAIR_APPLY. -/
def execRepairApply (bank : Fin 512) (column : Bool) (index : Fin 8192) (s : State) : Host.Outcome State Fault Refusal :=
  s.upd (fun d => d.whenOn rowM (fun d => d.repairApply bank.val column index.val))

/-- What Tier M holds where a soft repair ends: a row's word, or a data column's bit in every word, is a free
value. -/
def unrepair (draws bank : Nat) (m : Memory) (r : Bool × Nat) : Memory :=
  if r.1 then
    if 256 ≤ r.2 then m
    else
      (List.range 8192).foldl (fun m row =>
        let a := bankRow bank row + r.2 / 8
        let b := 2 ^ (r.2 % 8)
        m.put a ((m.get a &&& ~~~ (BitVec.ofNat 8 b)) ||| (Config.unrepaired draws a &&& BitVec.ofNat 8 b))) m
  else
    (List.range 32).foldl (fun m k => m.put (bankRow bank r.2 + k) (Config.unrepaired draws (bankRow bank r.2 + k))) m

/-- REPAIR CLEAR: the bank's soft repairs end. -/
def State.repairClear (s : State) (bank : Nat) : State :=
  let d := s.dev
  if d.on F.ST_MREP_STS_BUSY then s.on (fun d => d.wr0 F.ST_MREP_STS_RESULT 4)
  else
    let soft := d.mb.soft.at bank []
    let d1 := d.modMb (fun m => { m with soft := m.soft.del bank })
    let d2 := if soft.isEmpty then d1 else d1.draw
    { s with
      dev := (d2.wr0 F.ST_MREP_STS_RESULT 0).showSpares bank
      mem := soft.foldl (unrepair d.draws bank) s.mem }

/-- REPAIR_CLEAR. -/
def execRepairClear (bank : Fin 512) (s : State) : Host.Outcome State Fault Refusal :=
  .next (if s.dev.domOn rowM then s.repairClear bank.val else s.on (fun d => d.wrc F.PW_STS_OFFACC 0 1))

/-- REPAIR_COMPLETE: the bank switches to the spare, which holds what the original held. -/
def execRepairComplete (s : State) : Host.Outcome State Fault Refusal :=
  s.upd (fun d =>
    match d.mb.copy with
    | none => d
    | some (bank, column, index) =>
      let d1 := d.modMb (fun m => { m with copy := none, soft := m.soft.put bank (m.soft.at bank [] ++ [(column, index)]) })
      (d1.wr0 F.ST_MREP_STS_BUSY 0).showSpares bank)

/-! ## Logic BIST (R307, R308) -/

/-- LBIST START. -/
def Dev.lbStart (d : Dev) (r npat : Nat) : Dev :=
  let ks := d.rd F.UD_STATE_KSTATE (0x080 + r)
  if d.on F.ST_LSTS_BUSY ∨ ! d.domOn (rowL r) ∨ (ks ≠ 1 ∧ ks ≠ 2) ∨ npat < 10 ∨ 20 < npat then d.wr0 F.ST_LSTS_RESULT 5
  else
    let d1 := ((d.wr0 F.ST_LSTS_BUSY 1).wr0 F.ST_LSTS_RESULT 0).wr0 F.ST_LSTS_REGION r
    let d2 := ((d1.wr0 F.ST_LEXP_EXP (Config.lbistExpected npat).toNat).wr0 F.ST_LCMD_NPAT npat).wr0 F.ST_LCNT_COUNT 0
    ((d2.modFb r (fun x => { x with bist := true })).regionRefresh r).vote 8 (rowL r) true

/-- LBIST_START. -/
def execLbistStart (region : Fin 64) (npat : Fin 32) (s : State) : Host.Outcome State Fault Refusal :=
  s.upd (fun d => d.whenOn rowM (fun d => d.lbStart region.val npat.val))

/-- The running test is stopped by the host. -/
def Dev.lbStop (d : Dev) : Dev := match d.lbRegion with | some r => d.lbAbort r | none => d

/-- LBIST_STOP. -/
def execLbistStop (s : State) : Host.Outcome State Fault Refusal := s.upd (fun d => d.whenOn rowM Dev.lbStop)

/-- The result of a finished test (R308). -/
def lbResult (exp sig full count : Nat) : Nat := if sig ≠ exp then 2 else if count = full then 1 else 3

/-- The running test ends with a signature and a pattern count. -/
def Dev.lbFinish (d : Dev) (sig count : Nat) : Dev :=
  match d.lbRegion with
  | none => d
  | some r => d.lbEnd r (lbResult (d.rd F.ST_LEXP_EXP) sig (2 ^ d.rd F.ST_LCMD_NPAT) count) sig count

/-- LBIST_END. -/
def execLbistEnd (sig : BitVec 32) (count : BitVec 21) (s : State) : Host.Outcome State Fault Refusal :=
  s.upd (fun d => d.lbFinish sig.toNat count.toNat)

/-- LBIST_WATCHDOG. -/
def execLbistWatchdog (sig : BitVec 32) (count : BitVec 21) (s : State) : Host.Outcome State Fault Refusal :=
  s.upd (fun d => d.lbFinish sig.toNat count.toNat)

/-! ## Lane tests (R309 to R311) -/

/-- The rate that a lane test runs at. -/
def Dev.ptRate (d : Dev) (l : Nat) : Nat :=
  match d.laneCourse (laneTp l) with
  | some n => d.rd F.CS_RATE_RATE n
  | none => d.rd F.LN_PT_CTL_RATE l

/-- A pattern suits a rate (R310): PRBS7, 15 and 31 at NRZ rates, PRBS13Q and 31Q at PAM4 rates. -/
def patternSuits (pat : Nat) (pam4 : Bool) : Bool := if pam4 then decide (pat = 3 ∨ pat = 4) else decide (pat < 3)

/-- A lane test starts, or ends at once with Refused, No PLL or Pattern. -/
def Dev.ptStart (d : Dev) (l : Nat) : Dev :=
  let ks := d.ks l
  let rate := d.ptRate l
  let d0 := ((d.wr F.LN_PT_ERR_ERR l 0).wr F.LN_PT_BITS_LO_V l 0).wr F.LN_PT_BITS_HI_V l 0
  if ! (decide (ks = 0) || (decide (ks = 7) && decide (d.rd F.LN_PT_CTL_LOOP l = 2))) then d.ptEnd l 3
  else if (d.pllHolding (laneBay l) (rateFamily rate)).isNone then d.ptEnd l 4
  else if ! patternSuits (d.rd F.LN_PT_CTL_PAT l) (ratePam4 rate) then d.ptEnd l 5
  else
    let d1 := d0.modLane l (fun x => { x with testing := true, ksBefore := ks })
    let d2 := if ks = 0 then (d1.wrc F.LN_STS_PLLSEL l ((d.pllHolding (laneBay l) (rateFamily rate)).getD 0)).setKs l 8 else d1
    ((d2.wr F.LN_PT_STS_STATE l 1).wr F.LN_PT_STS_RESULT l 0).ptVote (laneBay l)

/-- A write of LN_PT_CTL: EN at 1 starts a test where none runs, EN at 0 stops one. -/
def Dev.writePtCtl (d : Dev) (l w : Nat) : Dev :=
  let d1 := d.putWord .LN_PT_CTL l w
  let run := (d1.lane l).testing
  if bit w 0 then (if run then d1 else d1.ptStart l)
  else if run then d1.ptEnd l 1
  else d1

/-- LANE_TEST_START: LN_PT_CTL written with EN set. -/
def execLaneTestStart (tp : Fin 64) (side : Side) (data : BitVec 32) (s : State) : Host.Outcome State Fault Refusal :=
  s.upd (fun d => d.whenOn (rowA (tp.val / 8)) (fun d => d.writePtCtl (laneIx tp.val side) (data.toNat / 2 * 2 + 1)))

/-- LANE_TEST_STOP: LN_PT_CTL.EN cleared. -/
def execLaneTestStop (tp : Fin 64) (side : Side) (s : State) : Host.Outcome State Fault Refusal :=
  s.upd (fun d => d.whenOn (rowA (tp.val / 8)) (fun d => d.writePtCtl (laneIx tp.val side) (d.word .LN_PT_CTL (laneIx tp.val side) / 2 * 2)))

/-- What happens to a lane test's checker (R310). -/
def Dev.checkEvent (d : Dev) (l : Nat) (ev : CheckEvent) : Dev :=
  let locked := decide (d.rd F.LN_PT_STS_STATE l = 2)
  match ev with
  | .slip => if d.rd F.LN_PT_CTL_LOOP l = 3 then d.wrc F.LN_PT_STS_SLIP l 1 else d
  | .lock => if d.on F.LN_PT_CTL_CHK l then d.wrc F.LN_PT_STS_STATE l 2 else d
  | .lost => if locked then (d.wr F.LN_PT_STS_STATE l 1).bump F.LN_PT_STS_RESYNC l else d
  | .bits count errors =>
    if ! locked then d
    else
      let n := d.rd F.LN_PT_BITS_LO_V l + d.rd F.LN_PT_BITS_HI_V l * 2 ^ 32 + count
      let d1 := (d.wrc F.LN_PT_BITS_LO_V l n).wrc F.LN_PT_BITS_HI_V l (n / 2 ^ 32)
      let first := decide (d.rd F.LN_PT_ERR_ERR l = 0 ∧ 0 < errors)
      let d2 := d1.bumpBy F.LN_PT_ERR_ERR l errors
      if first && d2.on F.LN_PT_CTL_TRIGERR l then d2.fire 6 else d2

/-- PATTERN_CHECKER_LOCK. -/
def execPatternCheckerLock (tp : Fin 64) (side : Side) (ev : CheckEvent) (s : State) : Host.Outcome State Fault Refusal :=
  s.upd (fun d => if (d.lane (laneIx tp.val side)).testing then d.checkEvent (laneIx tp.val side) ev else d)

end Sys2Proof.Machine
end

