-- ==== Sys2Proof/Machine/Fabric.lean ====
section
/-! DEFINITION. Commands of the fabric regions: service messages, pace and voltage, gutters, context switches and
page commands (R198 to R221 of spec/08_fabric.md). -/
namespace Sys2Proof.Machine

/-! ## Service messages (R211) -/

/-- Word `k` of a course's entry in the layout in force. -/
def Dev.courseWord (d : Dev) (n k : Nat) : Nat :=
  match d.regAt (0x180000 + 128 * n + 4 * k) with
  | some (r, i) => d.word r i
  | none => 0

/-- A region's service message arrives, unless its block did poisoned: then it is discarded (R242). Its service port has served
it (R211). -/
def Dev.message (d : Dev) (r : Nat) (g : Dev → Dev) : Dev :=
  if ! d.domOn (rowL r) then d
  else if (d.fbx r).msgLost then d.modFb r (fun x => { x with msgLost := false })
  else g { d with svcTurn := d.svcTurn.put (r % 16) (r / 16) }

/-- CST_READ: one word, or bytes 0x00 to 0x3F of the entry, go to the region. -/
def execCstRead (region : Fin 64) (course : Fin 512) (offset : Fin 32) (whole : Bool) (s : State) : Host.Outcome State Fault Refusal :=
  s.upd (fun d => d.message region.val (fun d =>
      let ks := if whole then List.range 16 else [offset.val]
      d.modFb region.val (fun x => { x with cst := ks.map (fun k => d.courseWord course.val k) })))

/-- TRIG_REQ: counted as the management write source of the Ridge Trigger. -/
def execTrigReq (region : Fin 64) (s : State) : Host.Outcome State Fault Refusal :=
  s.upd (fun d => d.message region.val (fun d => d.fire 2))

/-- A context that a region can run at all: a resident slot that holds one, or a paged context of the store. -/
def Dev.ctxKnown (d : Dev) (r : Nat) (c : Ctx) : Bool :=
  if c.paged then bit d.img.paged c.num else (d.residentSlot r c).isSome

def Dev.cswResult (d : Dev) (r v : Nat) : Dev := d.modFb r (fun x => { x with csw := some v })

/-- A self switch request (R214, Table 8.10). -/
def Dev.cswReq (d : Dev) (r : Nat) (c : Ctx) : Dev :=
  let d0 := d.lbAbort r
  if d.rd F.FB_CFG_SELMODE r ≠ 2 then d0.cswResult r 4
  else if ! d.domOn rowC then d0.cswResult r 5
  else if ! d.ctxKnown r c then d0.draw.cswResult r (Config.selfSwitchResult d.draws).toNat
  else if (d.residentSlot r c).isSome then (d.select r c none true).cswResult r 0
  else d.select r c none true

/-- CSW_REQ. -/
def execCswReq (region : Fin 64) (paged : Bool) (ctx : Fin 64) (s : State) : Host.Outcome State Fault Refusal :=
  s.upd (fun d => d.message region.val (fun d => d.cswReq region.val ⟨paged, ctx.val⟩))

/-! ## Pace and voltage -/

/-- FB_PACE_WRITE. -/
def execFbPaceWrite (region : Fin 64) (data : BitVec 32) (s : State) : Host.Outcome State Fault Refusal :=
  s.upd (fun d => d.whenOn (rowL region.val) (fun d => d.fbPaceWrite region.val data.toNat))

/-- PW_DOM_WRITE. -/
def execPwDomWrite (row : Fin 127) (data : BitVec 32) (s : State) : Host.Outcome State Fault Refusal :=
  s.upd (fun d => d.pwDomWrite row.val data.toNat)

/-- The rate changes of a course that waited for its bays' shells (R335). -/
def Dev.shellResume (d : Dev) (n : Nat) : Dev :=
  let d1 := if (d.course n).waitSpeed = 0 then d else d.speedChange n (d.course n).waitSpeed
  [Side.a, Side.b].foldl (fun d s =>
    let w := (d.seg (segIx n s)).waitRate
    match d.soleLane n s with
    | some l => if w = 0 ∨ d.shellWaits n w then d else d.followRate n s l w
    | none => d) d1

/-- VOLTAGE_SETTLED: on a bay, what waited for its shell goes on before any step back to VSET. -/
def execVoltageSettled (row : Fin 77) (s : State) : Host.Outcome State Fault Refusal :=
  s.upd (fun d =>
    let r := row.val
    if (d.pw.vtarget.find? r).isNone then d
    else
      let d1 := d.voltSettled r
      if r ≤ 8 then
        let d2 := d1.each (d1.usedCourses.filter (fun n => (d1.courseBays n).contains (r - 1))) (fun n d => d.shellResume n)
        if d2.rd F.PW_DOM_VSET r = d2.rd F.PW_DOM_VNOW r then d2 else d2.voltStep r
      else d1)

/-! ## Gutters -/

/-- Words that a region has acknowledged of an inbound half. -/
def Dev.gutterAcks (d : Dev) (l took : Nat) : Dev := if d.gutLive l ∧ d.gutActive l then d.gutterTake l took else d

/-- GUTTER_INBOUND_WORD, after `took` words of the half that the region has acknowledged since the last command of the through-path. -/
def execGutterInboundWord (tp : Fin 64) (side : Side) (word : GutterWord) (took : Nat) (s : State) : Host.Outcome State Fault Refusal :=
  s.upd (fun d => (d.gutterAcks (laneIx tp.val side) took).gutterIn (laneIx tp.val side) word)

/-- GUTTER_OUTBOUND_WORD, after `took` words that the region has acknowledged of the inbound half whose direction this one continues. -/
def execGutterOutboundWord (tp : Fin 64) (side : Side) (word : GutterWord) (took : Nat) (s : State) : Host.Outcome State Fault Refusal :=
  s.upd (fun d => (d.gutterAcks (laneOpp (laneIx tp.val side)) took).gutterOut (laneIx tp.val side) word)

/-- GUTTER_UNDERRUN. -/
def execGutterUnderrun (tp : Fin 64) (side : Side) (between : Bool) (s : State) : Host.Outcome State Fault Refusal :=
  s.upd (fun d => d.gutterUnderrun (laneIx tp.val side) between)

/-! ## Contexts -/

/-- CONTEXT_SWITCH. -/
def execContextSwitch (region : Fin 64) (s : State) : Host.Outcome State Fault Refusal :=
  s.upd (fun d => d.contextSwitch region.val)

/-- Tier M address of a paged context's image: the store holds the contexts of the image in ascending order, 512 KiB
each. -/
def Dev.ctxAddr (d : Dev) (p : Nat) : Nat := d.img.ctxBase + countBits p d.img.paged * 0x80000

/-- The words that a page-in reads: what the decoder finds in them now, and the uncorrectable errors kept from
before (R229). Answers the part and whether a word was poisoned. -/
def Dev.pageWords (d : Dev) (r p : Nat) (seen : List (Fin 16384 × EccSeen)) : Dev × Bool :=
  let a := d.ctxAddr p
  let kept := (d.mt.bad.map (fun b => b.1)).filter (fun w => decide (a ≤ w ∧ w < a + 0x80000))
  let fresh := (seen.map (fun e => (a + 32 * e.1.val, e.2))).filter (fun e => ! kept.contains e.1)
  (kept.map (fun w => (w, EccSeen.clean)) ++ fresh).foldl (fun (q : Dev × Bool) e =>
    let port := sparNumber r (Config.pagePort q.1.draws).toNat
    let c := q.1.checkWord e.1 64 port false e.2
    (if c.2 = 2 then c.1.draw else c.1, q.2 || decide (c.2 = 2))) (d, false)

/-- A page-in's reads, which pass every bank, meet what other masters have there: each pending operation counts a conflict, and those on the
image's words are served first (R224, R233). -/
def State.pageMeets (s : State) (r p : Nat) : State :=
  let a := s.dev.ctxAddr p
  let here (o : Op) : List Nat := o.words.filter (fun w => decide (a ≤ w ∧ w < a + 0x80000))
  let rivals := s.dev.mt.ops.filter (fun o => o.atBank && decide (o.master ≠ 64))
  let s1 := (rivals.filter (fun o => (here o).isEmpty)).foldl (fun s _ => s.on (fun d => d.bump F.MT_CONF_COUNT 64)) s
  (rivals.filterMap (fun o => (here o).head?)).foldl (fun s w => s.meetWord w 64 (sparNumber r 0) false .clean) s1

/-- PAGE_IN_COMPLETE. -/
def execPageInComplete (region : Fin 64) (poisoned crcOk : Bool) (seen : List (Fin 16384 × EccSeen)) (s : State) :
    Host.Outcome State Fault Refusal :=
  .next (match (s.dev.fbx region.val).paging with
    | none => s
    | some g =>
      (s.pageMeets region.val g.pnum).on (fun d =>
        let q := d.pageWords region.val g.pnum seen
        q.1.pageInDone region.val (! poisoned && ! q.2 && crcOk)))

/-- PAGE_IN_RETRY: a pending selection whose page-in failed or found no frame tries again (R217). -/
def execPageInRetry (region : Fin 64) (s : State) : Host.Outcome State Fault Refusal :=
  s.upd (fun d => if (d.fbx region.val).retry then d.selStart region.val else d)

/-! ## Page commands (R221) -/

def Dev.pgResult (d : Dev) (r v : Nat) : Dev := d.wr F.FB_PGSTS_RESULT r v

/-- PREFETCH. -/
def Dev.pgPrefetch (d : Dev) (r p : Nat) : Dev :=
  if d.on F.FB_PGSTS_BUSY r then d.pgResult r 6
  else if ! bit d.img.paged p then d.pgResult r 3
  else if (d.residentSlot r ⟨true, p⟩).isSome then d.pgResult r 1
  else if ! d.domOn rowC then d.pgResult r 5
  else if (d.fbx r).paging.isSome then d.pgResult r 6
  else
    match d.startPageIn r p true with
    | none => d.pgResult r 2
    | some d1 => (d1.wr F.FB_PGSTS_BUSY r 1).pgResult r 0

/-- PIN and UNPIN. -/
def Dev.pgPin (d : Dev) (r p : Nat) (on : Bool) : Dev :=
  if d.on F.FB_PGSTS_BUSY r then d.pgResult r 6
  else if ! bit d.img.paged p then d.pgResult r 3
  else
    match d.residentSlot r ⟨true, p⟩ with
    | none => d.pgResult r 5
    | some k =>
      let i := 8 * r + k
      if d.on F.FB_SLOT_PIN i = on then d.pgResult r 1 else (d.wr F.FB_SLOT_PIN i (b2n on)).pgResult r 0

/-- EVICT. -/
def Dev.pgEvict (d : Dev) (r p : Nat) : Dev :=
  if d.on F.FB_PGSTS_BUSY r then d.pgResult r 6
  else if ! bit d.img.paged p then d.pgResult r 3
  else
    match d.residentSlot r ⟨true, p⟩ with
    | none => d.pgResult r 1
    | some k =>
      let i := 8 * r + k
      if d.on F.FB_SLOT_ACTIVE i ∨ (d.fbx r).sel.any (fun s => decide (s.ctx = ⟨true, p⟩)) then d.pgResult r 5
      else
        let d1 := ((d.wr F.FB_SLOT_KIND i 2).wr F.FB_SLOT_PNUM i 0).wrc F.FB_SLOT_PIN i 0
        let d2 := d1.modFb r (fun x => { x with shadow := x.shadow.del k, recent := x.recent.filter (· ≠ k) })
        ((d2.ctxRefresh r ⟨true, p⟩).ctxRefresh r ⟨false, k⟩).pgResult r 0

/-- PREFETCH. -/
def execPrefetch (region : Fin 64) (pnum : Fin 64) (s : State) : Host.Outcome State Fault Refusal :=
  s.upd (fun d => d.whenOn (rowL region.val) (fun d => d.pgPrefetch region.val pnum.val))

/-- PIN. -/
def execPagePin (region : Fin 64) (pnum : Fin 64) (s : State) : Host.Outcome State Fault Refusal :=
  s.upd (fun d => d.whenOn (rowL region.val) (fun d => d.pgPin region.val pnum.val true))

/-- UNPIN. -/
def execPageUnpin (region : Fin 64) (pnum : Fin 64) (s : State) : Host.Outcome State Fault Refusal :=
  s.upd (fun d => d.whenOn (rowL region.val) (fun d => d.pgPin region.val pnum.val false))

/-- EVICT. -/
def execEvict (region : Fin 64) (pnum : Fin 64) (s : State) : Host.Outcome State Fault Refusal :=
  s.upd (fun d => d.whenOn (rowL region.val) (fun d => d.pgEvict region.val pnum.val))

end Sys2Proof.Machine
end

