-- ==== Sys2Proof/Machine/PurlinCore.lean ====
section
/-! DEFINITION. Purlin's shared operations: the page table and its check bits, the free-page list, quotas,
scheduling, and the operations of the queue ports (R249 to R260 of spec/10_purlin_transactions.md). -/
namespace Sys2Proof.Machine

def Dev.modPu (d : Dev) (g : PuX → PuX) : Dev := { d with pu := g d.pu }

/-! ## Page table entries (R249, R252) -/

def Dev.setPte (d : Dev) (p : Nat) (e : Pte) : Dev := d.modPu (fun u => { u with ptes := u.ptes.put p e })

/-- An entry is read: a single-bit error is corrected and counted, an uncorrectable one puts the page in fault and
fires the poison source. Answers whether the entry is good. -/
def Dev.readPte (d : Dev) (p : Nat) (seen : EccSeen) : Dev × Bool :=
  match seen with
  | .clean => (d, true)
  | .single _ => (d.bump F.PU_CNT_PTCE_COUNT, true)
  | .double _ => (((d.setPte p { d.pte p with state := 3 }).bump F.PU_CNT_PTUE_COUNT).fire 8, false)

/-! ## The free-page list (R251) -/

def freeCount (runs : List (Nat × Nat)) : Nat := runs.foldl (fun a r => a + r.2) 0

/-- Take the page at the head. -/
def takeFree (runs : List (Nat × Nat)) : Option (Nat × List (Nat × Nat)) :=
  match runs with
  | [] => none
  | (p, n) :: t => some (p, if n ≤ 1 then t else (p + 1, n - 1) :: t)

/-- A page joins the tail. -/
def joinFree (runs : List (Nat × Nat)) (p : Nat) : List (Nat × Nat) :=
  match runs with
  | [] => [(p, 1)]
  | [(a, n)] => if a + n = p then [(a, n + 1)] else [(a, n), (p, 1)]
  | r :: t => r :: joinFree t p

def Dev.showFree (d : Dev) : Dev := d.wrc F.PU_STS_FREE 0 (freeCount d.pu.free)

/-- Pages go back to the free list, in the order given. -/
def Dev.freePages (d : Dev) (ps : List Nat) : Dev :=
  (d.modPu (fun u => { u with free := ps.foldl joinFree u.free, ptes := ps.foldl NMap.del u.ptes })).showFree

/-! ## Queues and groups -/

def queueHealth (ks : Nat) : Nat := match ks with | 2 => 0 | 3 => 1 | 1 => 2 | 5 => 2 | 4 => 4 | _ => 3

/-- The unit of a queue that has one. -/
def Dev.queueUnit (d : Dev) (q : Nat) : Option Nat :=
  (d.listed F.UD_IDENT_KIND).find? (fun id => decide (d.rd F.UD_IDENT_KIND id = 5 ∧ d.rd F.UD_INDEX_INDEX id = q))

/-- A queue takes a KSTATE, mirrored in its unit (R256). -/
def Dev.setQueue (d : Dev) (q ks : Nat) : Dev :=
  let d1 := d.wrc F.PU_QSTS_KSTATE q ks
  match d1.queueUnit q with
  | some id => d1.publish id ks (queueHealth ks)
  | none => d1

/-- A queue records a code of Table 10.4. -/
def Dev.queueCode (d : Dev) (q code : Nat) : Dev :=
  let d1 := d.wr F.PU_QSTS_FCODE q code
  match d1.queueUnit q with
  | some id => d1.unitFault id code
  | none => d1

/-- A queue goes to Fault with FCODE 0x01 (R252). -/
def Dev.queueFault (d : Dev) (q : Nat) : Dev := (d.queueCode q 1).setQueue q 4

/-- The groups above a group, itself first. -/
def Dev.groupChain (d : Dev) (fuel g : Nat) : List Nat :=
  match fuel with
  | 0 => []
  | fuel + 1 => if 1024 ≤ g then [] else g :: d.groupChain fuel (d.rd F.PU_GCFG_PARENT g)

/-- The groups on the path of a queue, nearest first. -/
def Dev.queuePath (d : Dev) (q : Nat) : List Nat := d.groupChain 1024 (d.rd F.PU_QCFG_GROUP q)

def unionNat (a b : List Nat) : List Nat := a ++ b.filter (fun n => ! a.contains n)

/-- The groups that the image or a commit has configured. -/
def Dev.quotaGroups (d : Dev) : List Nat :=
  unionNat (unionNat (d.listed F.PU_GCFG_EN) (d.listed F.PU_GMIN_MIN)) (unionNat (d.listed F.PU_GCFG_PARENT) (d.listed F.PU_GCFG_WEIGHT))

/-- The queues that the image or a commit has configured, in use or not. -/
def Dev.knownQueues (d : Dev) : List Nat :=
  unionNat (unionNat (d.listed F.PU_QCFG_EN) (d.listed F.PU_QSTS_KSTATE)) (unionNat (d.listed F.PU_QCFG_GROUP) (d.listed F.PU_QCFG_WEIGHT))

/-- res(g): the pages that a group still needs (Quotas). -/
def Dev.reserve (d : Dev) (fuel g : Nat) : Nat :=
  match fuel with
  | 0 => 0
  | fuel + 1 =>
    let kids := d.quotaGroups.filter (fun c => decide (d.rd F.PU_GCFG_PARENT c = g))
    max (d.rd F.PU_GMIN_MIN g - d.rd F.PU_GUSED_USED g) ((kids.map (fun c => d.reserve fuel c)).foldl (· + ·) 0)

/-- h of R258: the reserves of every group beside the path. -/
def Dev.heldBack (d : Dev) (q : Nat) : Nat :=
  let path := d.queuePath q
  let beside := d.quotaGroups.filter (fun g =>
    ! path.contains g && (decide (1024 ≤ d.rd F.PU_GCFG_PARENT g) || path.contains (d.rd F.PU_GCFG_PARENT g)))
  (beside.map (fun g => d.reserve (d.quotaGroups.length + 1) g)).foldl (· + ·) 0

/-- A node's cap admits p more pages. -/
def capOk (max used p : Nat) : Bool := decide (max = 0) || decide (used + p ≤ max)

/-- The admission function of R258: 0 OK, 2 DROP_CAP, 3 DROP_POOL. -/
def Dev.enqAllowed (d : Dev) (q p : Nat) : Nat :=
  let caps := capOk (d.rd F.PU_QLIM_MAX q) (d.rd F.PU_QPAGES_PAGES q) p
    && (d.queuePath q).all (fun g => capOk (d.rd F.PU_GMAX_MAX g) (d.rd F.PU_GUSED_USED g) p)
  if ! caps then 2
  else if freeCount d.pu.free < p + d.heldBack q then 3
  else 0

/-- Change the pages held by a queue and every group above it. -/
def Dev.usePages (d : Dev) (q add sub : Nat) : Dev :=
  let d1 := d.wrc F.PU_QPAGES_PAGES q (d.rd F.PU_QPAGES_PAGES q + add - sub)
  d1.each (d1.queuePath q) (fun g d => d.wrc F.PU_GUSED_USED g (d.rd F.PU_GUSED_USED g + add - sub))

/-! ## ENQ (R254) -/

/-- Take n pages from the free list, the entry of each checked as it is read (R252). None where the pages left no
longer cover the record: those taken go back. -/
def Dev.takePages (d : Dev) (fuel n held : Nat) (pte : List EccSeen) (got : List Nat) : Dev × Option (List Nat) :=
  match fuel with
  | 0 => (d.freePages got, none)
  | fuel + 1 =>
    if n = 0 then (d, some got)
    else
      match takeFree d.pu.free with
      | none => (d.freePages got, none)
      | some (p, rest) =>
        let d1 := d.modPu (fun u => { u with free := rest })
        let r := d1.readPte p (pte.headD .clean)
        if r.2 then r.1.takePages fuel (n - 1) held (pte.drop 1) (got ++ [p])
        else if freeCount rest < n + held then (r.1.freePages got, none)
        else r.1.takePages fuel n held (pte.drop 1) got

/-- The record bytes in a page that holds the bytes from `k` × 512 on. -/
def pageFill (len k : Nat) : Nat := min 512 (len - 512 * k)

/-- Link a record's pages behind a queue's last page. -/
def Dev.linkRecord (d : Dev) (q len : Nat) (ps : List Nat) : Dev :=
  let last := ps.length - 1
  let d1 := d.each (List.range ps.length) (fun k d =>
    d.setPte (ps.getD k 0) { next := if k = last then 0 else ps.getD (k + 1) 0, state := 1, eoq := decide (k = last), queue := q
                             fill := pageFill len k, sor := decide (k = 0), eor := decide (k = last) })
  let was := d.rd F.PU_QPAGES_PAGES q
  let tail := d.rd F.PU_QTAIL_TAIL q
  let d2 :=
    if was = 0 then d1.wrc F.PU_QHEAD_HEAD q (ps.headD 0)
    else d1.setPte tail { d1.pte tail with next := ps.headD 0, eoq := false }
  d2.wrc F.PU_QTAIL_TAIL q (ps.getLastD 0)

/-- The beats of a record: 32 bytes each, the last one zero-padded. -/
def beatsOf (data : List Byte) : List (List Byte) :=
  (List.range ((data.length + 31) / 32)).map (fun k =>
    let b := (data.drop (32 * k)).take 32
    b ++ List.replicate (32 - b.length) 0)

/-- Write a record's beats to its pages: full words, which also end any uncorrectable error there (R229). -/
def State.writeRecord (s : State) (ps : List Nat) (data : List Byte) : State :=
  let bs := beatsOf data
  s.each (List.range bs.length) (fun k s =>
    let a := ps.getD (k / 16) 0 * 512 + k % 16 * 32
    s.hardWrite a (natLE (bs.getD k [])) 64 848)

/-- A dropped record: counted, and the queue at its cap (Table 10.4). -/
def Dev.dropRecord (d : Dev) (q st : Nat) : Dev :=
  let d1 := if st = 2 then d.bump F.PU_CNT_DROPCAP_COUNT else d.bump F.PU_CNT_DROPPOOL_COUNT
  let d2 := d1.bump F.PU_QDROP_DROP q
  if d2.rd F.PU_QSTS_KSTATE q = 2 then d2.setQueue q 3 else d2

/-- ENQ of a record: its STATUS. -/
def State.enqueue (s : State) (q : Nat) (data : List Byte) (pte : List EccSeen) : State × Nat :=
  let d := s.dev
  let len := data.length
  if len = 0 ∨ 16384 < len ∨ ! d.on F.PU_QCFG_EN q then (s, 4)
  else if d.rd F.PU_QSTS_KSTATE q = 4 then (s, 6)
  else
    let p := (len + 511) / 512
    let a := d.enqAllowed q p
    if a ≠ 0 then (s.on (fun d => d.dropRecord q a), a)
    else
      match d.takePages (p + pte.length + 1) p (d.heldBack q) pte [] with
      | (d1, none) => ({ s with dev := d1.showFree.dropRecord q 3 }, 3)
      | (d1, some ps) =>
        let d2 := ((d1.linkRecord q len ps).usePages q p 0).showFree
        let d3 := d2.wrc F.PU_QDEPTH_DEPTH q (d2.rd F.PU_QDEPTH_DEPTH q + 1)
        let d4 := if d3.rd F.PU_QSTS_KSTATE q = 3 then d3.setQueue q 2 else d3
        (({ s with dev := d4.purlinVote }).writeRecord ps data, 0)

/-! ## Scheduling (R260) -/

/-- CONS names a requester: regions 0 to 63, extraction points 64 + u, insertion points 192 + u. -/
def consNames (cons who : Nat) : Bool :=
  if who < 64 then decide (cons = who ∨ cons = 0xFF) else decide (192 ≤ who ∧ cons = 0x40)

def Dev.queueEligible (d : Dev) (q who : Nat) : Bool :=
  d.on F.PU_QCFG_EN q && decide (d.rd F.PU_QDEPTH_DEPTH q ≠ 0) && consNames (d.rd F.PU_QLIM_CONS q) who

/-- The pages of the record at a queue's head. -/
def Dev.recordPages (d : Dev) (fuel p : Nat) : List Nat :=
  match fuel with
  | 0 => []
  | fuel + 1 => let e := d.pte p; if e.eor then [p] else p :: d.recordPages fuel e.next

def Dev.headPages (d : Dev) (q : Nat) : List Nat := d.recordPages 32 (d.rd F.PU_QHEAD_HEAD q)
def Dev.headLen (d : Dev) (q : Nat) : Nat := ((d.headPages q).map (fun p => (d.pte p).fill)).foldl (· + ·) 0

/-- Insert a number into a rising list. -/
def insertNat (n : Nat) : List Nat → List Nat
  | [] => [n]
  | m :: t => if n ≤ m then n :: m :: t else m :: insertNat n t

def sortNat (l : List Nat) : List Nat := l.foldl (fun a n => insertNat n a) []

/-- The children of a group in member order, in use or not: queues as their numbers, groups as 16,384 + g. -/
def Dev.groupKids (d : Dev) (g : Nat) : List Nat :=
  let qs := d.knownQueues.filter (fun q => decide (d.rd F.PU_QCFG_GROUP q = g))
  let gs := d.quotaGroups.filter (fun c => decide (d.rd F.PU_GCFG_PARENT c = g))
  sortNat qs ++ (sortNat gs).map (· + 16384)

def Dev.kidPrio (d : Dev) (c : Nat) : Nat := if c < 16384 then d.rd F.PU_QCFG_PRIO c else d.rd F.PU_GCFG_PRIO (c - 16384)
def Dev.kidWeight (d : Dev) (c : Nat) : Nat := if c < 16384 then d.rd F.PU_QCFG_WEIGHT c else d.rd F.PU_GCFG_WEIGHT (c - 16384)

/-- The loop of drr() of Table 10.5: `len` gives the head length of each eligible child.  The fuel covers every weight but 0, with which
alone the loop of the table has no end (log entry 57). -/
def drrLoop (fuel : Nat) (kids : List Nat) (len : Nat → Option Nat) (weight : Nat → Nat) (x : SchedX) : Option (Nat × SchedX) :=
  match fuel with
  | 0 => none
  | fuel + 1 =>
    let pos := if kids.length ≤ x.ptr then 0 else x.ptr
    match kids[pos]? with
    | none => none
    | some c =>
      let step (defs : NMap Nat) : SchedX := { ptr := if pos + 1 < kids.length then pos + 1 else 0, fresh := true, defs := defs }
      match len c with
      | none => drrLoop fuel kids len weight (step (x.defs.put c 0))
      | some n =>
        let dc := x.defs.at c 0 + (if x.fresh then weight c else 0)
        if n ≤ dc then some (c, { ptr := pos, fresh := false, defs := x.defs.put c (dc - n) })
        else drrLoop fuel kids len weight (step (x.defs.put c dc))

/-- serve(g, r) of Table 10.5: the queue, and the scheduler state after a served DEQ. -/
def Dev.serveGroup (d : Dev) (fuel g who : Nat) (sc : NMap SchedX) : Option (Nat × NMap SchedX) :=
  match fuel with
  | 0 => none
  | fuel + 1 =>
    let kids := d.groupKids g
    let inner (c : Nat) : Option (Nat × NMap SchedX) := if d.on F.PU_GCFG_EN (c - 16384) then d.serveGroup fuel (c - 16384) who sc else none
    let len (c : Nat) : Option Nat :=
      if c < 16384 then (if d.queueEligible c who then some (d.headLen c) else none)
      else (inner c).map (fun r => d.headLen r.1)
    let live := kids.filter (fun c => (len c).isSome)
    if live.isEmpty then none
    else
      let pick : Option (Nat × NMap SchedX) :=
        if d.on F.PU_GCFG_SCHED g then
          (drrLoop (kids.length * 16386 + 1) kids len d.kidWeight (sc.at g {})).map (fun r => (r.1, sc.put g r.2))
        else
          let low := live.foldl (fun b c => match b with
            | none => some c
            | some x => if d.kidPrio c < d.kidPrio x then some c else some x) none
          low.map (fun c => (c, sc))
      match pick with
      | none => none
      | some (c, sc1) => if c < 16384 then some (c, sc1) else d.serveGroup fuel (c - 16384) who sc1

/-! ## DEQ, NOTIFY, STATUS (R254) -/

/-- Why an operation on a queue or a group is turned away: 4 DENIED, 6 FAULT; none where it goes on. -/
def Dev.queueDenied (d : Dev) (grp : Bool) (tgt who : Nat) : Option Nat :=
  if grp then (if 1024 ≤ tgt ∨ ! d.on F.PU_GCFG_EN tgt then some 4 else none)
  else if ! d.on F.PU_QCFG_EN tgt ∨ ! consNames (d.rd F.PU_QLIM_CONS tgt) who then some 4
  else if d.rd F.PU_QSTS_KSTATE tgt = 4 then some 6
  else none

/-- The queue that a request is served from, with the scheduler state after it. -/
def Dev.targetQueue (d : Dev) (grp : Bool) (tgt who : Nat) : Option (Nat × NMap SchedX) :=
  if grp then d.serveGroup 1024 tgt who d.pu.sched
  else if d.queueEligible tgt who then some (tgt, d.pu.sched)
  else none

/-- What a walk along a record's pages gathers: the part and memory, the pages read, the beats, and whether an
entry was uncorrectable. -/
structure Walk where
  s : State
  pages : List Nat := []
  beats : List (Nat × List Byte) := []
  seen : List EccSeen := []
  lost : Bool := false

/-- One page of a record, with what the checks find. -/
def Walk.page (w : Walk) (p fill : Nat) (pte : EccSeen) : Walk :=
  let n := (fill + 31) / 32
  let blank := List.replicate n (6, List.replicate 32 (0 : Byte))
  if w.lost then { w with beats := w.beats ++ blank }
  else
    let r := w.s.dev.readPte p pte
    if ! r.2 then { w with s := { w.s with dev := r.1 }, beats := w.beats ++ blank, lost := true }
    else
      let w1 := { w with s := { w.s with dev := r.1 }, pages := w.pages ++ [p] }
      (List.range n).foldl (fun w k =>
        let port := 848 + b2n (Config.purlinPort w.s.dev.draws)
        let x := w.s.hardRead (p * 512 + 32 * k) 64 port (w.seen.headD .clean)
        { w with
          s := if x.2.1 = 2 then x.1.on Dev.draw else x.1
          beats := w.beats ++ [(if x.2.1 = 2 then 5 else 0, x.2.2)]
          seen := w.seen.drop 1 }) w1

/-- A DEQ takes the record at a queue's head: its beats, and the queue after it. -/
def State.takeRecord (s : State) (q : Nat) (pte seen : List EccSeen) : State × List (Nat × List Byte) :=
  let ps := s.dev.headPages q
  let after := (s.dev.pte (ps.getLastD 0)).next
  let w := (List.range ps.length).foldl
    (fun w k => w.page (ps.getD k 0) (s.dev.pte (ps.getD k 0)).fill (pte.getD k .clean)) ({ s := s, seen := seen } : Walk)
  let gone := w.pages.length + b2n w.lost
  let d1 := (w.s.dev.usePages q 0 gone).freePages w.pages
  let d2 := d1.wrc F.PU_QDEPTH_DEPTH q (d1.rd F.PU_QDEPTH_DEPTH q - 1)
  let d3 := if d2.rd F.PU_QPAGES_PAGES q = 0 then d2 else d2.wrc F.PU_QHEAD_HEAD q after
  let d4 := if w.lost then d3.queueFault q else d3
  ({ w.s with dev := d4.purlinVote }, w.beats)

/-- A response on a queue port; a region in Retain or Off discards it (R210). -/
def Dev.queueAnswer (d : Dev) (who port : Nat) (a : QAnswer) : Dev :=
  if who < 64 ∧ ! d.domOn (rowL who) then d
  else d.modPu (fun u => { u with answers := u.answers.put (who * 4 + port) a })

/-- A NOTIFY names a queue in Fault, on which every operation returns FAULT (R254). -/
def Dev.notifyFault (d : Dev) (n : QReq) : Bool := ! n.grp && decide (d.rd F.PU_QSTS_KSTATE n.tgt = 4)

/-- NOTIFYs whose target now holds a record are answered OK, those on a queue in Fault FAULT. -/
def Dev.answerNotifies (d : Dev) : Dev :=
  let due := d.pu.notifies.filter (fun n => d.notifyFault n || (d.targetQueue n.grp n.tgt n.who).isSome)
  let d1 := d.modPu (fun u => { u with notifies := u.notifies.filter (fun n => ! due.contains n) })
  (due.foldl (fun d n => d.queueAnswer n.who n.port { status := if d.notifyFault n then 6 else 0 }) d1).purlinVote

/-- One request, served. -/
def State.serveQueue (s : State) (r : QReq) : State :=
  let s0 := s.on (fun d => d.modPu (fun u => { u with notifies := u.notifies.filter (fun n => ! decide (n.who = r.who ∧ n.port = r.port)) }) |>.purlinVote)
  match r.op with
  | 0 =>
    let e := s0.enqueue r.tgt r.data r.pte
    e.1.on (fun d => (d.queueAnswer r.who r.port { status := e.2 }).answerNotifies)
  | 1 =>
    match s0.dev.queueDenied r.grp r.tgt r.who with
    | some st => s0.on (fun d => d.queueAnswer r.who r.port { status := st })
    | none =>
      match s0.dev.targetQueue r.grp r.tgt r.who with
      | none => s0.on (fun d => d.queueAnswer r.who r.port { status := 1 })
      | some (q, sc) =>
        if s0.dev.rd F.PU_QSTS_KSTATE q = 4 then s0.on (fun d => d.queueAnswer r.who r.port { status := 6, queue := q })
        else
          let len := s0.dev.headLen q
          let t := s0.takeRecord q r.pte r.seen
          t.1.on (fun d => (d.modPu (fun u => { u with sched := sc })).queueAnswer r.who r.port
            { status := (t.2.headD (0, [])).1, queue := q, len := len, beats := t.2 } |>.answerNotifies)
  | 2 =>
    match s0.dev.queueDenied r.grp r.tgt r.who with
    | some st => s0.on (fun d => d.queueAnswer r.who r.port { status := st })
    | none =>
      if (s0.dev.targetQueue r.grp r.tgt r.who).isSome then s0.on (fun d => d.queueAnswer r.who r.port {})
      else s0.on (fun d => (d.modPu (fun u => { u with notifies := u.notifies ++ [r] })).purlinVote)
  | _ =>
    s0.on (fun d =>
      if ! d.on F.PU_QCFG_EN r.tgt then d.queueAnswer r.who r.port { status := 4 }
      else if d.rd F.PU_QSTS_KSTATE r.tgt = 4 then d.queueAnswer r.who r.port { status := 6 }
      else
        let v := d.rd F.PU_QPAGES_PAGES r.tgt + d.rd F.PU_QDEPTH_DEPTH r.tgt * 2 ^ 32
        d.queueAnswer r.who r.port { status := 0, queue := r.tgt, beats := [(0, bytesLE v 32)] })

/-- A request is acknowledged: domain M On, and a region neither quiet nor clamped (R210, R232, R325). -/
def Dev.queueReady (d : Dev) (who : Nat) : Bool :=
  d.domOn rowM && (decide (64 ≤ who) || (d.domOn (rowL who) && ! (d.fbx who).quiet))

/-- A request arrives at a queue port. A region that is not On makes none. -/
def State.queueRequest (s : State) (r : QReq) : State :=
  if r.who < 64 ∧ ! s.dev.domOn (rowL r.who) then s
  else if s.dev.queueReady r.who then s.serveQueue r
  else s.on (fun d => d.modPu (fun u => { u with waits := u.waits ++ [r] }))

/-- The order in which waiting requests are served: of arrival (R232), at one instant that of R255. -/
def QReq.rank (r : QReq) : Nat := r.at_ * 65536 + (if r.op = 0 then 0 else if r.op = 3 then 2 else 1) * 4096 + r.who * 4 + r.port

def insertReq (r : QReq) : List QReq → List QReq
  | [] => [r]
  | p :: t => if r.rank < p.rank then r :: p :: t else p :: insertReq r t

/-- Serve the waiting requests that may now be acknowledged. -/
def State.serveWaits (s : State) : State :=
  let ready := s.dev.pu.waits.filter (fun r => s.dev.queueReady r.who)
  let s1 := s.on (fun d => d.modPu (fun u => { u with waits := u.waits.filter (fun r => ! d.queueReady r.who) }))
  (ready.foldl (fun l r => insertReq r l) []).foldl (fun s r => s.serveQueue r) s1

/-! ## Flush and sweep (R257) -/

/-- EN of a queue falls to 0 by a committed transaction: the sweep starts. -/
def Dev.queueFlush (d : Dev) (q : Nat) : Dev := (d.wr F.PU_QCFG_EN q 0).setQueue q 5

/-- EN of a queue is committed to 1: at once, or when the sweep ends. -/
def Dev.queueEnable (d : Dev) (q : Nat) : Dev :=
  if d.rd F.PU_QSTS_KSTATE q = 5 then d.modPu (fun u => { u with pendEn := q :: u.pendEn.filter (· ≠ q) })
  else (d.wr F.PU_QCFG_EN q 1).setQueue q 2

/-- A page leaves the free list, wherever it stands in it. -/
def dropFree (runs : List (Nat × Nat)) (p : Nat) : List (Nat × Nat) :=
  runs.flatMap (fun r =>
    if r.1 ≤ p ∧ p < r.1 + r.2 then
      (if r.1 < p then [(r.1, p - r.1)] else []) ++ (if p + 1 < r.1 + r.2 then [(p + 1, r.1 + r.2 - (p + 1))] else [])
    else [r])

/-- An entry that a sweep reads is checked (R252): where it is uncorrectable, its page leaves the free list, or the queue that uses it, other
than the one swept, goes to Fault. -/
def Dev.sweepEntry (d : Dev) (q p : Nat) (seen : EccSeen) : Dev :=
  let e := d.pte p
  let r := d.readPte p seen
  if r.2 then r.1
  else if e.state = 1 ∧ e.queue ≠ q then r.1.queueFault e.queue
  else (r.1.modPu (fun u => { u with free := dropFree u.free p })).showFree

/-- The sweep ends: the queue's pages are free, in ascending order; a fault page among them leaves FCODE 0x02. -/
def Dev.sweepDone (d : Dev) (q : Nat) : Dev :=
  if d.rd F.PU_QSTS_KSTATE q ≠ 5 then d
  else
    let mine := d.pu.ptes.filter (fun e => decide (e.2.queue = q))
    let ps := (mine.filter (fun e => decide (e.2.state = 1))).map (fun e => e.1)
    let held := d.rd F.PU_QPAGES_PAGES q
    let d1 := ((d.usePages q 0 held).wrc F.PU_QDEPTH_DEPTH q 0).freePages ps
    let d2 := if mine.any (fun e => decide (e.2.state = 3 ∧ e.2.fill ≠ 0)) then d1.queueCode q 2 else d1.wrc F.PU_QSTS_FCODE q 0
    let d3 :=
      if d2.pu.pendEn.contains q then
        ((d2.modPu (fun u => { u with pendEn := u.pendEn.filter (· ≠ q) })).wr F.PU_QCFG_EN q 1).setQueue q 2
      else d2.setQueue q 1
    d3.purlinVote

end Sys2Proof.Machine
end

