-- ==== Sys2Proof/Machine/Frames.lean ====
section
/-! DEFINITION. Frames at the timestamp units, the classifier and the insertion and extraction points (R150 to R168 of
spec/06_timebase.md, R184 to R193 of spec/07_holdover_services.md, R273 of spec/11_dormer.md). -/
namespace Sys2Proof.Machine

def Dev.point (d : Dev) (u : Nat) : PointX := d.points.at u {}
def Dev.modPoint (d : Dev) (u : Nat) (g : PointX → PointX) : Dev := { d with points := d.points.put u (g (d.point u)) }

/-! ## Classifier lookup (R186, R188) -/

/-- What a lookup of one key finds. -/
inductive Found where
  | none
  | poison
  | hit (entry : Nat) (bytes : List Byte)
  deriving DecidableEq, Repr

/-- The address of a classifier entry. -/
def Dev.clsAddr (d : Dev) (entry : Nat) : Nat := d.rd F.TS_CLS_BASE_BASE * 0x200000 + entry * 32

/-- Read one word of a bucket over Purlin's master spar ports. -/
def State.clsRead (s : State) (entry : Nat) (seen : EccSeen) : State × Nat × List Byte :=
  let r := s.hardRead (s.dev.clsAddr entry) 64 (848 + b2n (Config.purlinPort s.dev.draws)) seen
  if r.2.1 = 2 then (r.1.on Dev.draw, r.2) else r

/-- Read the four words of a bucket, with the status of each. -/
def State.bucket (s : State) (b : Nat) (seen : List EccSeen) : State × List (Nat × List Byte) :=
  (List.range 4).foldl (fun r k => let x := r.1.clsRead (b * 4 + k) (seen.getD k .clean); (x.1, r.2 ++ [x.2])) (s, [])

/-- The way of a bucket whose entry has a key. -/
def wayOf (ws : List (Nat × List Byte)) (key : List Byte) : Option Nat :=
  (List.range 4).find? (fun k => decide ((ws.getD k (0, [])).2.take 24 = key))

/-- Look a key up: whole buckets are read, and a poisoned word ends the lookup. -/
def State.lookup (s : State) (key : List Byte) (seen : List EccSeen) : State × Found :=
  let b := keyBucket key
  let r := s.bucket b seen
  if r.2.any (fun w => decide (w.1 = 2)) then (r.1, .poison)
  else match wayOf r.2 key with
    | some k => (r.1, .hit (b * 4 + k) (r.2.getD k (0, [])).2)
    | none => (r.1, .none)

/-- What the classifier finds for a frame: the profiles in order, the first match acting. -/
def State.classify (s : State) (course dir : Nat) (b : List Byte) (profiles : List Nat) (seen : List EccSeen) : State × Nat × Found :=
  match profiles with
  | [] => (s, 0, .none)
  | p :: rest =>
    match s.lookup (frameKey p dir course b) seen with
    | (s1, .none) => s1.classify course dir b rest (seen.drop 4)
    | (s1, f) => (s1, p, f)

/-- The classifier's result for a frame at point `u`, with the late and poisoned results counted. -/
def State.frameResult (s : State) (u course dir : Nat) (f : FrameIn) : State × Option (Nat × Nat × List Byte) :=
  let ps := profilesOf (s.dev.rd F.TS_IE_CTL_PROF u) f.bytes
  if ! s.dev.pointActive u ∨ ! s.dev.on F.TS_CLS_BASE_EN ∨ ps = [] then (s, none)
  else if ! s.dev.domOn rowM then (s.on (fun d => d.bump F.TS_IE_CNT_LATE_COUNT u), none)
  else
    match s.classify course dir f.bytes ps f.seen with
    | (s1, p, .hit e b) => if f.late then (s1.on (fun d => d.bump F.TS_IE_CNT_LATE_COUNT u), none) else (s1, some (p, e, b))
    | (s1, _, .poison) => (s1.on (fun d => d.bump F.TS_IE_CNT_LATE_COUNT u), none)
    | (s1, _, .none) => if f.late then (s1.on (fun d => d.bump F.TS_IE_CNT_LATE_COUNT u), none) else (s1, none)

/-! ## Tenant meters (R273) -/

/-- Add to a count of `w` bits, with whether it saturates. -/
def satAdd (w a b : Nat) : Nat × Bool := if a + b < 2 ^ w then (a + b, false) else (2 ^ w - 1, true)

/-- A meter counts a frame of `len` octets: only in KSTATE Counting. -/
def Dev.meterCount (d : Dev) (m len : Nat) (ab : Bool) : Dev :=
  if d.rd F.UD_STATE_KSTATE (0xF00 + m) ≠ 1 then d
  else
    let x := d.dm.meters.at m {}
    let x' :=
      if ab then
        let b := satAdd 64 x.bytesAb len
        let f := satAdd 48 x.framesAb 1
        { x with bytesAb := b.1, framesAb := f.1, sat := x.sat || b.2 || f.2 }
      else
        let b := satAdd 64 x.bytesBa len
        let f := satAdd 48 x.framesBa 1
        { x with bytesBa := b.1, framesBa := f.1, sat := x.sat || b.2 || f.2 }
    { d with dm := { d.dm with meters := d.dm.meters.put m x' } }

/-! ## Ingress (R151, R158, R164, R189) -/

/-- T_in of a frame whose timestamp point crosses now (R151, R152). -/
def Dev.ingressTime (d : Dev) (l u course interp pin : Nat) : Int :=
  let frac : Nat := if d.on F.TB_STS_MODE then interp else 0
  let fs := if d.on F.LN_STS_ON_FS l then uiOffset (d.rd F.CS_RATE_RATE course) (d.lane l).slicePhase else 0
  ((d.freeU + frac : Nat) : Int) - ((d.pathDelay u).1 : Int) + positionTerm (d.rd F.CS_RATE_RATE course) pin + fs

/-- What the unit decides for a frame at its ingress latch (R157, R158, R163, R164). -/
def Dev.judge (d : Dev) (u course : Nat) (f : FrameIn) (marked : Bool) (tIn : Int) : FlightX :=
  let body := frameBody f.bytes
  let ctl := d.word .TSU_CTL u
  let base : FlightX := { bytes := f.bytes, tIn := tIn }
  if ! d.on F.CS_CTL_TIMING course then base
  else
    match (candRows body marked).find? (fun r => decide (Nat.land ctl r.enable = r.enable)) with
    | none => base
    | some r =>
      let upto := max (r.field + 8) ((r.csum.map (· + 2)).getD 0)
      let ok := r.allowed && d.inService course && d.tbFine && decide (r.field + 8 ≤ body.length)
        && f.errorAt.elim true (fun e => decide (upto ≤ e))
      { base with candidate := true, correct := ok, ecpri := r.ecpri, field := r.field, csum := r.csum }

/-- The record of an extracted or copied frame (Table 7.7). -/
def Dev.extractRecord (d : Dev) (u course dir : Nat) (f : FrameIn) (tIn : Int) (copy ecpri : Bool) (profile entry : Nat) : List Byte :=
  let head := bytesLE f.bytes.length 2 ++ bytesLE (course + dir * 32768) 2 ++ [BitVec.ofNat 8 (b2n copy + 2 * b2n ecpri), BitVec.ofNat 8 profile, 0, 0]
    ++ bytesLE entry 4 ++ [0, 0, 0, 0] ++ d.stampRecord u tIn false
  head ++ f.bytes ++ List.replicate ((32 - f.bytes.length % 32) % 32) 0

/-- An extract or copy match at the frame's end: the record is queued, or discarded (R189). -/
def State.extract (s : State) (p : Nat) (f : FrameIn) (queue : Nat) (record : List Byte) : State :=
  if f.errorAt.isSome ∨ ! fcsGood f.bytes then s.on (fun d => d.bump F.TS_IE_CNT_DROP_COUNT p)
  else
    if (s.dev.point p).lost then s.on (fun d => d.modPoint p (fun x => { x with lost := false }))
    else
    let e := s.enqueue queue record f.pte
    e.1.on (fun d => (if e.2 = 0 then d.bump F.TS_IE_CNT_EXT_COUNT p else d.bump F.TS_IE_CNT_DROP_COUNT p).answerNotifies)

/-- A frame at a receive ball of a Decoded Ethernet course. -/
def State.frameIn (s : State) (tp side course : Nat) (f : FrameIn) : State :=
  let u := 2 * tp + side
  let p := 2 * ((s.dev.logicalTp course 0).getD tp) + side
  let tIn := s.dev.ingressTime (tp + 64 * side) u course f.interp.val f.pin
  let r := s.frameResult p course side f
  let bytes := (r.2.map (fun x => x.2.2)).getD []
  let b24 := octet bytes 24
  let act := if r.1.dev.on F.TS_IE_CTL_EXT_EN p then b24 % 4 else 0
  let s1 := r.1.on (fun d => if bit b24 3 ∧ f.errorAt.isNone ∧ fcsGood f.bytes then
    d.meterCount (octet bytes 25) f.bytes.length (decide (side = 0)) else d)
  let s2 := if act = 1 ∨ act = 2 then
      s1.extract p f (natLE ((bytes.drop 26).take 2) % 16384) (s1.dev.extractRecord u course side f tIn (decide (act = 2)) (bit b24 2)
        ((r.2.map (fun x => x.1)).getD 0) ((r.2.map (fun x => x.2.1)).getD 0))
    else s1
  let s3 := if act = 1 then s2 else
    s2.on (fun d => d.modPoint u (fun x => { x with flight := x.flight ++ [s.dev.judge u course f (bit b24 2) tIn] }))
  if side = 0 then s3.on (fun d => d.marker course) else s3

/-- FRAME_INGRESS. -/
def execFrameIngress (tp : Fin 64) (side : Side) (frame : FrameIn) (s : State) : Host.Outcome State Fault Refusal :=
  .next (match s.dev.decodedEth tp.val with
    | none => s
    | some n => s.frameIn tp.val (sideN side) n frame)

/-! ## Correction (R159 to R163, R168) -/

/-- The corrected field's sum (R159): the field that cannot be corrected stays, a sum beyond the format becomes its greatest
value, either with the mark of saturation. -/
def Dev.fieldSum (d : Dev) (field add : Int) : Int × Bool :=
  let top : Int := 9223372036854775807
  if field = top then (top, true)
  else if top < field + add then (top, true)
  else if field + add < -9223372036854775808 then (signed 64 (Config.fieldOverflow d.draws).toNat, false)
  else (field + add, false)

/-- A difference of FREE values, modulo 2^64 (R143). -/
def freeDiff (a b : Int) : Int := signed 64 (unsigned 64 (a - b))

/-- T_out of what passes the correction stage now (R151). -/
def Dev.egressTime (d : Dev) (u interp pout : Nat) : Int :=
  let frac : Nat := if d.on F.TB_STS_MODE then interp else 0
  ((d.freeU + frac : Nat) : Int) + ((d.pathDelay u).2 : Int)
    + positionTerm ((d.laneCourse (u / 2)).elim 0 (fun n => d.rd F.CS_RATE_RATE n)) pout

/-- A frame whose correction was decided, corrected: the frame sent, and the unit's registers and counters. -/
def Dev.correct (d : Dev) (u : Nat) (x : FlightX) (tOut : Int) : Dev :=
  let res := freeDiff tOut x.tIn
  let body := frameBody x.bytes
  let old := signed 64 (natBE ((body.drop x.field).take 8))
  let sum := d.fieldSum old (res * 64)
  let new := setOctets body x.field (bytesBE (unsigned 64 sum.1) 8)
  let new := match x.csum with | none => new | some cs => csumUpdate body new x.field 8 cs
  let h := x.field - 8
  let ty := if x.ecpri then 0 else octet body h % 16
  let seq := if x.ecpri then octet body (x.field - 12) else be16 body (h + 30)
  let d1 := (d.draw.modPoint u (fun p => { p with sent := fcsUpdate x.bytes new })).bump F.TSU_CNT_CORR_COUNT u
  let d2 := if sum.2 then d1.bump F.TSU_CNT_SAT_COUNT u else d1
  let d3 := (d2.wr F.TSU_LAST_RES_RES u (unsigned 32 res)).wr F.TSU_LAST_INFO_SEQ u seq
  ((d3.wr F.TSU_LAST_INFO_TYPE u ty).wr F.TSU_LAST_INFO_ECPRI u (b2n x.ecpri)).wr F.TSU_LAST_INFO_SAT u (b2n sum.2)

/-- The frame at the front of a unit's flight passes the correction stage. -/
def Dev.frameOut (d : Dev) (u interp pout : Nat) : Dev :=
  match (d.point u).flight with
  | [] => d
  | x :: rest =>
    let d1 := d.modPoint u (fun p => { p with flight := rest })
    if ! x.candidate then d1.modPoint u (fun p => { p with sent := x.bytes })
    else if ! x.correct then (d1.modPoint u (fun p => { p with sent := x.bytes })).bump F.TSU_CNT_UNCORR_COUNT u
    else d1.correct u x (d.egressTime u interp pout)

/-- FRAME_CORRECTION. -/
def execFrameCorrection (tp : Fin 64) (side : Side) (interp : Fin 1024) (pout : Nat) (s : State) : Host.Outcome State Fault Refusal :=
  s.upd (fun d => d.frameOut (2 * tp.val + sideN side) interp.val pout)

/-! ## Insertion (R190 to R193) -/

/-- LEN and FLAGS of an insertion record. -/
def recLen (r : List Byte) : Nat := natLE (r.take 2)
def recFlag (r : List Byte) (b : Nat) : Bool := bit (octet r 4) b
def recField (r : List Byte) (k : Nat) : Nat := natLE ((r.drop k).take 2)

/-- R192: LEN out of range, or an offset whose field reaches past LEN. -/
def malformed (r : List Byte) : Bool :=
  let len := recLen r
  decide (len < 60 ∨ 2040 < len) || decide (len < recField r 6 + 10) || decide (len < recField r 8 + 8) || decide (len < recField r 10 + 2)

/-- The confirmation of an insertion record, where it asks for one (Table 7.9). -/
def State.confirm (s : State) (r : List Byte) (status : Nat) (stamp : List Byte) (conf : List EccSeen) : State :=
  if ! recFlag r 2 then s
  else
    let data := r.drop 2 |>.take 2
    let e := s.enqueue (recField r 12 % 16384) (data ++ [BitVec.ofNat 8 status] ++ List.replicate 13 0 ++ stamp) conf
    e.1.on Dev.answerNotifies

/-- Credit and elastic count after some byte times and deletions (R190, R191). -/
def Dev.pointTick (d : Dev) (u byteTimes deleted : Nat) : Dev :=
  let x := (d.point u).credRem + byteTimes
  let c := min 4096 (d.rd F.TS_IE_STS_CREDIT u + x / 100)
  ((d.modPoint u (fun p => { p with credRem := x % 100 })).wrc F.TS_IE_STS_CREDIT u c).wrc F.TS_IE_STS_ELASTIC u
    (d.rd F.TS_IE_STS_ELASTIC u - deleted)

/-- The queue at whose head an insertion point's next record stands. -/
def Dev.insQueue (d : Dev) (u : Nat) : Option Nat :=
  let q := d.rd F.TS_IE_CTL_IQ u
  if d.on F.TS_IE_CTL_INS_EN u ∧ d.domOn rowM ∧ (d.queueDenied false q (192 + u)).isNone ∧ d.queueEligible q (192 + u) then some q
  else none

/-- Take the record at a queue's head. -/
def State.takeFor (s : State) (q : Nat) (pte seen : List EccSeen) : State × List Byte :=
  let t := s.takeRecord q pte seen
  (t.1, (t.2.map (fun b => b.2)).flatten)

/-- A stream boundary at an insertion point: the record at the head of its queue is placed where the line and the credit
allow, or dropped where it is malformed. -/
def State.place (s : State) (u : Nat) (pte seen conf : List EccSeen) : State :=
  match s.dev.insQueue u with
  | none => s
  | some q =>
    let head := Memory.read s.mem (s.dev.rd F.PU_QHEAD_HEAD q * 512) 32
    if ! s.dev.pointActive u then s
    else if malformed head then
      let t := s.takeFor q pte seen
      t.1.confirm t.2 2 (List.replicate 16 0) conf
    else
      let c := recLen head + 24
      let e := s.dev.rd F.TS_IE_STS_ELASTIC u
      let cr := s.dev.rd F.TS_IE_STS_CREDIT u
      if 16384 < e + c ∨ cr < c then s
      else
        let t := s.takeFor q pte seen
        if (s.dev.point u).lost then t.1.on (fun d => d.modPoint u (fun p => { p with lost := false }))
        else t.1.on (fun d => ((d.modPoint u (fun p => { p with placed := p.placed ++ [{ record := t.2 }] })).wrc F.TS_IE_STS_ELASTIC u
          (e + c)).wrc F.TS_IE_STS_CREDIT u (cr - c))

/-- INSERTION_PLACE. -/
def execInsertionPlace (tp : Fin 64) (side : Side) (byteTimes deleted : Nat) (pte seen conf : List EccSeen) (s : State) :
    Host.Outcome State Fault Refusal :=
  let u := 2 * tp.val + sideN side
  .next ((s.on (fun d => d.pointTick u byteTimes deleted)).place u pte seen conf)

/-- The octets of an inserted frame before stamping. -/
def Dev.insFrame (d : Dev) (r : List Byte) : List Byte :=
  (List.range (recLen r)).map (fun k => (r.drop 32).getD k (Config.absentOctet d.draws k))

/-- STAMP, CORR and CSUM of an inserted frame (R192). -/
def Dev.insStamp (d : Dev) (r : List Byte) (t : Nat) : List Byte :=
  let b0 := d.insFrame r
  let ts := recField r 6
  let co := recField r 8
  let cs := recField r 10
  let b1 := if recFlag r 0 then setOctets b0 ts (bytesBE (timeSec t) 6 ++ bytesBE (timeNs t) 4) else b0
  let b1 := if recFlag r 0 ∧ recFlag r 3 then csumUpdate b0 b1 ts 10 cs else b1
  let old := signed 64 (natBE ((b1.drop co).take 8))
  let sum := old + ((timeFrac t : Nat) : Int)
  let v := if 9223372036854775807 < sum then (Config.fieldOverflow d.draws).toNat else unsigned 64 sum
  let b2 := if recFlag r 1 then setOctets b1 co (bytesBE v 8) else b1
  if recFlag r 1 ∧ recFlag r 3 then csumUpdate b1 b2 co 8 cs else b2

/-- The inserted frame at the front reaches the correction stage. -/
def State.stampInserted (s : State) (u interp pout : Nat) (conf : List EccSeen) : State :=
  match (s.dev.point u).placed with
  | [] => s
  | x :: rest =>
    let tOut := s.dev.egressTime u interp pout
    let body := s.dev.insStamp x.record (s.dev.stampTime tOut)
    let stamp := s.dev.stampRecord u tOut true
    let s1 := s.on (fun d => ((d.modPoint u (fun p => { p with placed := rest, sent := body ++ bytesLE (crc32eth body) 4 })).bump
      F.TS_IE_CNT_INS_COUNT u).draw)
    s1.confirm x.record 0 stamp conf

/-- INSERTED_FRAME_STAMP. -/
def execInsertedFrameStamp (tp : Fin 64) (side : Side) (interp : Fin 1024) (pout : Nat) (conf : List EccSeen) (s : State) :
    Host.Outcome State Fault Refusal :=
  .next (s.stampInserted (2 * tp.val + sideN side) interp.val pout conf)

/-- MAXWAIT_EXPIRY: the record at the head of the point's queue is dropped (R193). -/
def execMaxwaitExpiry (tp : Fin 64) (side : Side) (pte seen conf : List EccSeen) (s : State) : Host.Outcome State Fault Refusal :=
  let u := 2 * tp.val + sideN side
  .next (match s.dev.insQueue u with
    | none => s
    | some q =>
      let t := s.takeFor q pte seen
      (t.1.on (fun d => d.bump F.TS_IE_CNT_DROP_COUNT u)).confirm t.2 1 (List.replicate 16 0) conf)

end Sys2Proof.Machine
end

