-- ==== Sys2Proof/Machine/Classifier.lean ====
section
/-! DEFINITION. Commands on the classifier's table (R184, R185, R187 of spec/07_holdover_services.md). -/
namespace Sys2Proof.Machine

/-- The 32 octets staged in TS_CLS_KEYj and TS_CLS_ACTj. -/
def Dev.clsStaged (d : Dev) : List Byte :=
  ((List.range 6).map (fun j => bytesLE (d.rd F.TS_CLS_KEY_KEY j) 4)).flatten
    ++ ((List.range 2).map (fun j => bytesLE (d.rd F.TS_CLS_ACT_ACT j) 4)).flatten

/-- The first key octet that a profile leaves unused. -/
def keyUsed (profile : Nat) : Nat := match profile with | 0 => 13 | 1 => 14 | 2 => 10 | _ => 22

/-- A key is in the format of Table 7.6: VALID set, reserved bits and unused octets 0. -/
def keyOk (k : List Byte) : Bool :=
  let b0 := octet k 0
  bit b0 7 && decide (b0 / 8 % 16 = 0) && decide (octet k 2 < 2)
    && ((List.range 24).all (fun j => decide (j < keyUsed (b0 % 4) ∨ octet k j = 0)))
    && (decide (2 ≤ b0 % 4) || decide (be16 k 11 < 4096))

/-- TS_CLS_CMD: discarded while a command runs. -/
def Dev.clsCommand (d : Dev) (op : Nat) (replace : Bool) : Dev :=
  if d.on F.TS_CLS_STS_BUSY then d.wr0 F.TS_CLS_STS_RESULT 6
  else if op = 0 then d
  else { d with cls := some { op := op, replace := replace, entry := d.clsStaged } }.wr0 F.TS_CLS_STS_BUSY 1

/-- CLS_INSERT. -/
def execClsInsert (replace : Bool) (s : State) : Host.Outcome State Fault Refusal :=
  s.upd (fun d => d.whenOn rowAT (fun d => d.clsCommand 1 replace))

/-- CLS_DELETE. -/
def execClsDelete (s : State) : Host.Outcome State Fault Refusal := s.upd (fun d => d.whenOn rowAT (fun d => d.clsCommand 2 false))

/-- CLS_LOOKUP. -/
def execClsLookup (s : State) : Host.Outcome State Fault Refusal := s.upd (fun d => d.whenOn rowAT (fun d => d.clsCommand 3 false))

/-- End the command with a result. -/
def State.clsEnd (s : State) (result : Nat) : State :=
  s.on (fun d => { d with cls := none }.wr0 F.TS_CLS_STS_BUSY 0 |>.wr0 F.TS_CLS_STS_RESULT result)

/-- Write one whole entry. -/
def State.clsWrite (s : State) (entry : Nat) (bytes : List Byte) : State :=
  s.hardWrite (s.dev.clsAddr entry) (natLE bytes) 64 848

def State.clsCount (s : State) (n : Nat) : State := s.on (fun d => d.wr0 F.TS_CLS_STS_COUNT n)

/-- What a command does in its key's bucket. -/
def State.clsRun (s : State) (c : ClsX) (seen : List EccSeen) : State :=
  let key := c.entry.take 24
  let b := keyBucket key
  let r := s.bucket b seen
  let n := r.1.dev.rd F.TS_CLS_STS_COUNT
  match c.op, wayOf r.2 key with
  | 1, some k => if c.replace then (r.1.clsWrite (b * 4 + k) c.entry).clsEnd 0 else r.1.clsEnd 1
  | 1, none =>
    match (List.range 4).find? (fun k => ! bit (octet (r.2.getD k (0, [])).2 0) 7) with
    | some k => ((r.1.clsWrite (b * 4 + k) c.entry).clsCount (min 65536 (n + 1))).clsEnd 0
    | none => r.1.clsEnd 2
  | 2, some k => ((r.1.clsWrite (b * 4 + k) (List.replicate 32 0)).clsCount (n - 1)).clsEnd 0
  | _, some k =>
    let e := (r.2.getD k (0, [])).2
    (r.1.on (fun d => (d.wr F.TS_CLS_ACT_ACT 0 (natLE ((e.drop 24).take 4))).wr F.TS_CLS_ACT_ACT 1 (natLE (e.drop 28)))).clsEnd 0
  | _, none => r.1.clsEnd 3

/-- CLS_COMMAND_DONE: a command whose bucket lies in a domain M that is not On waits (R232). -/
def execClsCommandDone (seen : List EccSeen) (s : State) : Host.Outcome State Fault Refusal :=
  .next (match s.dev.cls with
    | none => s
    | some c =>
      if ! s.dev.on F.TS_CLS_BASE_EN then s.clsEnd 4
      else if ! keyOk (c.entry.take 24) then s.clsEnd 5
      else if ! s.dev.domOn rowM then s
      else s.clsRun c seen)

/-- Entries of the table that are valid, counted anew where another table comes into use. -/
def State.clsRecount (s : State) : State :=
  let lo := s.dev.clsAddr 0
  s.clsCount ((s.mem.filter (fun c => decide (lo ≤ c.1 ∧ c.1 < lo + 0x200000 ∧ c.1 % 32 = 0) && bit c.2.toNat 7)).length)

end Sys2Proof.Machine
end

