-- ==== Sys2Proof/Machine/Timebase.lean ====
section
/-! DEFINITION. Commands of the timebase (R143 to R149, R155, R156 of spec/06_timebase.md). -/
namespace Sys2Proof.Machine

def Dev.tbReject (d : Dev) : Dev := d.wr0 F.TB_STS_WREJ 1

/-- LOAD (R147, R148). -/
def Dev.tbLoad (d : Dev) : Dev :=
  let ns := d.rd F.TB_SET_NS_V
  let t : Nat := ((d.rd F.TB_SET_S_HI_V * 2 ^ 32 + d.rd F.TB_SET_S_LO_V) * 1000000000 + ns) * 65536
  if ! d.on F.TB_CTL_OWNER ∨ 999999999 < ns then d.tbReject else d.stepTime ((t : Int) - ((d.time : Nat) : Int))

/-- The amount of a STEP, in 1/65,536 ns. -/
def Dev.stepAmount (d : Dev) : Int := signed 32 (d.rd F.TB_STEP_NS_V) * 65536 + ((d.rd F.TB_STEP_FRAC_V : Nat) : Int)

/-- STEP (R147, R148). -/
def Dev.tbStep (d : Dev) : Dev :=
  if ! d.on F.TB_CTL_OWNER ∨ 999999999 < (signed 32 (d.rd F.TB_STEP_NS_V)).natAbs ∨ ((d.time : Nat) : Int) + d.stepAmount < 0 then
    d.tbReject
  else d.stepTime d.stepAmount

/-- CAPTURE (R148), under either owner. -/
def Dev.tbCapture (d : Dev) : Dev :=
  let t := d.time
  let d1 := (d.wr0 F.TB_CAP_S_LO_V (timeSec t % 2 ^ 32)).wr0 F.TB_CAP_S_HI_V (timeSec t / 2 ^ 32)
  let d2 := (d1.wr0 F.TB_CAP_NS_V (timeNs t)).wr0 F.TB_CAP_FRAC_V (timeFrac t)
  (d2.wr0 F.TB_CAP_FREE_LO_V (d.free % 2 ^ 32)).wr0 F.TB_CAP_FREE_HI_V (d.free / 2 ^ 32)

/-- A command of TB_CMD takes effect. -/
def Dev.tbRun (d : Dev) (c : Nat) : Dev := if c = 1 then d.tbLoad else if c = 2 then d.tbStep else d.tbCapture

/-- Commands of one write of TB_CMD: the first takes effect now, unless earlier ones still wait, and each later one on a later tick than the one
before (R148). -/
def Dev.tbIssue (d : Dev) (cs : List Nat) : Dev :=
  if ! d.tb.waits.isEmpty then { d with tb := { d.tb with waits := d.tb.waits ++ cs } }
  else
    let d1 := { d with tb := { d.tb with waits := cs.drop 1 } }
    match cs with
    | [] => d
    | c :: _ => d1.tbRun c

/-- The next tick: a command that waits takes effect. -/
def Dev.tbNext (d : Dev) : Dev :=
  match d.tb.waits with
  | [] => d
  | c :: rest => { d with tb := { d.tb with waits := rest } }.tbRun c

/-- TB_PLL_HOLD_EXPIRY: the reference has not returned within the hold (R146). -/
def execTbPllHoldExpiry (s : State) : Host.Outcome State Fault Refusal :=
  s.upd (fun d => if d.tb.holding then
    { (d.wr0 F.TB_STS_LOCK 0).wr0 F.TB_STS_LOL 1 with tb := { d.tb with holding := false } } else d)

/-- LOAD. -/
def execTbLoad (s : State) : Host.Outcome State Fault Refusal := s.upd (fun d => d.whenOn rowAT (fun d => d.tbIssue [1]))

/-- STEP. -/
def execTbStep (s : State) : Host.Outcome State Fault Refusal := s.upd (fun d => d.whenOn rowAT (fun d => d.tbIssue [2]))

/-- CAPTURE. -/
def execTbCapture (s : State) : Host.Outcome State Fault Refusal := s.upd (fun d => d.whenOn rowAT (fun d => d.tbIssue [3]))

/-- The field of a timebase register that its owner writes. -/
def tbField (r : TbReg) : Fld :=
  match r with
  | .adj => F.TB_ADJ_RATE
  | .setSLo => F.TB_SET_S_LO_V
  | .setSHi => F.TB_SET_S_HI_V
  | .setNs => F.TB_SET_NS_V
  | .stepNs => F.TB_STEP_NS_V
  | .stepFrac => F.TB_STEP_FRAC_V

/-- A host write of TB_ADJ, TB_SET_* or TB_STEP_* (R147). -/
def Dev.tbWrite (d : Dev) (r : TbReg) (v : Nat) : Dev := if d.on F.TB_CTL_OWNER then d.wr0 (tbField r) v else d.tbReject

/-- TIMEBASE_WRITE. -/
def execTimebaseWrite (reg : TbReg) (data : BitVec 32) (s : State) : Host.Outcome State Fault Refusal :=
  s.upd (fun d => d.whenOn rowAT (fun d => d.tbWrite reg data.toNat))

/-- LATENCY_REMEASURE: the timebase has entered Fine, and a latency-locked course in service is measured again (R156). -/
def execLatencyRemeasure (course : Fin 512) (latAb latBa : BitVec 24) (s : State) : Host.Outcome State Fault Refusal :=
  s.upd (fun d => if d.on F.TB_STS_MODE ∧ d.inService course.val ∧ d.latencyLocked course.val then
    d.writeLat course.val (some (latAb, latBa)) else d)

end Sys2Proof.Machine
end

