-- ==== Sys2Proof/Machine/Engine.lean ====
section
/-! DEFINITION. Commands of the timing engine, the time outputs and the service ports (R169 to R183, R194 to R196 of
spec/07_holdover_services.md). -/
namespace Sys2Proof.Machine

/-! ## PPS_IN and PTP -/

/-- The Dormer measures a PPS_IN edge against the timebase (R275): TE in 1/65,536 ns. -/
def Dev.dormerEdge (d : Dev) (interp : Nat) : Dev :=
  if ! d.dm.running then d
  else
    let t := d.freeU + interp
    let good := d.dm.edge.elim false (fun t0 => goodPeriod (t - t0))
    let sec : Nat := 1000000000 * 65536
    let at_ := d.time + interp * 64
    let te : Int := (at_ : Int) - (((at_ + sec / 2) / sec * sec : Nat) : Int)
    let ps := te * 1000
    let least := (d.dm.teMin.elim ps (fun m => min m ps))
    let most := (d.dm.teMax.elim ps (fun m => max m ps))
    let m := { d.dm with edge := some t }
    { d with dm := if good then { m with teMin := some least, teMax := some most, teSum := m.teSum + ps, nPulse := m.nPulse + 1 } else m }

/-- PPS_IN_EDGE: the edge that marks a second (TS_PPS_IN.POL). In a device low-power state it is a wake source. -/
def execPpsInEdge (interp : Fin 1024) (s : State) : Host.Outcome State Fault Refusal :=
  s.upd (fun d =>
    let d1 := if d.domOn rowAT then (d.dormerEdge interp.val).ppsPulse interp.val else d
    if d.on F.PW_WAKEEN_PPS then d1.wake 5 0 0 else d1)

/-- PPS_IN_TIME_MESSAGE. -/
def execPpsInTimeMessage (msg : TimeMessage) (s : State) : Host.Outcome State Fault Refusal :=
  s.upd (fun d => if d.domOn rowAT then d.ppsMessage msg else d)

/-- PPS_PULSE_TIMEOUT: no pulse within 1.5 s of the previous one. -/
def execPpsPulseTimeout (s : State) : Host.Outcome State Fault Refusal :=
  s.upd (fun d => if d.domOn rowAT ∧ d.eng.ppsFree.isSome then (d.modEng (fun e => { e with ppsFree := none, ppsBad := 0 })).ppsDisqualify else d)

/-- PPS_MESSAGE_TIMEOUT: no valid message for 3 s. -/
def execPpsMessageTimeout (s : State) : Host.Outcome State Fault Refusal :=
  s.upd (fun d => if d.domOn rowAT ∧ d.on F.TS_STS_PPSQ then d.ppsDisqualify else d)

/-- PTP_SAMPLE. -/
def execPtpSample (offset pathDelay : Int) (valid : Bool) (clockClass : Fin 256) (s : State) : Host.Outcome State Fault Refusal :=
  s.upd (fun d => if d.domOn rowAT then d.ptpSample offset pathDelay valid clockClass.val else d)

/-- PTP_SAMPLE_TIMEOUT: no sample for 3 s. -/
def execPtpSampleTimeout (s : State) : Host.Outcome State Fault Refusal :=
  s.upd (fun d => if d.domOn rowAT ∧ d.eng.ptpSince.isSome then d.ptpDisqualify else d)

/-! ## Line slots -/

/-- The ESMC service reports to a slot: it runs, and the slot's course, or the member that this one now runs through, is bound to it
(R196). -/
def Dev.esmcServes (d : Dev) (k : Nat) : Bool :=
  let serves (n : Nat) : Bool := (d.boundService n).elim false (fun j => decide (d.rd F.TS_SVC_STS_KIND j = 2) && d.svcRuns j)
  serves (d.rd F.TS_LREF_CTL_COURSE k) || (d.slotCourse k).elim false serves

/-- QL_REPORT, of a QL from the frames that arrive at a side's receiver: the slot takes those of its SIDE (R196). -/
def execQlReport (slot : Fin 16) (side : Side) (ql : Fin 16) (failed : Bool) (s : State) : Host.Outcome State Fault Refusal :=
  s.upd (fun d => if d.domOn rowAT ∧ d.esmcServes slot.val ∧ d.rd F.TS_LREF_CTL_SIDE slot.val = b2n (decide (side = .b)) then
    ((((d.wrc F.TS_LREF_STS_QL slot.val ql.val).wrc F.TS_LREF_STS_QLFAIL slot.val (b2n failed)).modSlot slot.val
      (fun x => { x with qlTold := true })).slotEval slot.val).engEval else d)

/-- QL_FAILED. -/
def execQlFailed (slot : Fin 16) (s : State) : Host.Outcome State Fault Refusal :=
  s.upd (fun d => if d.domOn rowAT ∧ d.esmcServes slot.val then ((d.wrc F.TS_LREF_STS_QLFAIL slot.val 1).slotEval slot.val).engEval else d)

/-- LINE_SLOT_WTR_EXPIRY: every qualifying condition has held for WTR. -/
def execLineSlotWtrExpiry (slot : Fin 16) (s : State) : Host.Outcome State Fault Refusal :=
  s.upd (fun d =>
    let d1 := d.slotEval slot.val
    if (d1.slot slot.val).wtr then
      ((d1.modSlot slot.val (fun x => { x with wtr := false, hist := [] })).wrc F.TS_LREF_STS_QUAL slot.val 1).engEval
    else d1.engEval)

/-- LINE_SLOT_SECOND: a slot's phases and frequency of one second. The last slot's ends the second. -/
def execLineSlotSecond (slot : Fin 16) (xPhase zPhase ppm100 : Int) (last : Bool) (s : State) : Host.Outcome State Fault Refusal :=
  s.upd (fun d =>
    if ! d.domOn rowAT then d
    else
      let d1 := d.modSlot slot.val (fun x => { x with x := xPhase, z := zPhase, freqOk := decide (ppm100.natAbs ≤ 460) })
      let d2 := (d1.slotEval slot.val).engEval
      if last then d2.secondEnd else d2)

/-- LREF_CTL_WRITE: a write disqualifies the slot at once (R197). -/
def Dev.lrefWrite (d : Dev) (k w : Nat) : Dev :=
  let d1 := ((d.wr F.TS_LREF_CTL_COURSE k w).wr F.TS_LREF_CTL_EN k (bits w 9 1)).wr F.TS_LREF_CTL_QLREQ k (bits w 10 1)
  let d2 := ((d1.wr F.TS_LREF_CTL_SIDE k (bits w 11 1)).wr F.TS_LREF_CTL_MINQL k (bits w 16 4)).wr F.TS_LREF_CTL_WTR k (bits w 20 12)
  ((d2.slotDisqualify k).slotEval k).engEval

def execLrefCtlWrite (slot : Fin 16) (data : BitVec 32) (s : State) : Host.Outcome State Fault Refusal :=
  s.upd (fun d => d.whenOn rowAT (fun d => d.lrefWrite slot.val data.toNat))

/-! ## The engine -/

/-- TS_CTL_WRITE: every field, the engine's vote on domain AT (Table 14.10), and Table 7.1. -/
def Dev.tsCtlWrite (d : Dev) (w : Nat) : Dev :=
  let d1 := ((d.wr F.TS_CTL_ENABLE 0 w).wr F.TS_CTL_TPRIO 0 (bits w 1 1)).wr F.TS_CTL_STEPANY 0 (bits w 2 1)
  let d2 := ((d1.wr F.TS_CTL_MINGRP 0 (bits w 3 4)).wr F.TS_CTL_PPS_EN 0 (bits w 7 1)).wr F.TS_CTL_PTP_EN 0 (bits w 8 1)
  ((d2.wr F.TS_CTL_PTPSVC 0 (bits w 9 3)).vote 4 rowAT (bit w 0)).engEval

def execTsCtlWrite (data : BitVec 32) (s : State) : Host.Outcome State Fault Refusal :=
  s.upd (fun d => d.whenOn rowAT (fun d => d.tsCtlWrite data.toNat))

/-- LOCKT_EXPIRY: |TE| has stayed within LOCKWIN, or beyond it, throughout LOCKT. -/
def execLocktExpiry (s : State) : Host.Outcome State Fault Refusal :=
  s.upd (fun d =>
    match d.engState, d.eng.lockRun with
    | 1, some true => (d.setEng 2).engEval
    | 2, some false => (d.acquire (d.rd F.TS_STS_ACTREF)).engEval
    | _, _ => d)

/-- HOLDOVER_LIMIT_EXPIRY: TS_HOLD_T reaches the limit of the holdover state. -/
def execHoldoverLimitExpiry (s : State) : Host.Outcome State Fault Refusal :=
  s.upd (fun d =>
    let st := d.engState
    if st = 3 ∨ st = 4 then
      ((d.wrc F.TS_HOLD_T_HOLD_T 0 (max (d.rd F.TS_HOLD_T_HOLD_T) (d.holdLimit st))).setEng 5).engEval
    else d)

/-- FMEM_VALID: Locked without a break for HAVG. -/
def execFmemValid (s : State) : Host.Outcome State Fault Refusal :=
  s.upd (fun d => if d.engState = 2 then d.wrc F.TS_STS_FMEM 0 1 else d)

/-- ENSEMBLE_MEMBER_JOIN: a slot qualified for 3,600 s without a break in Locked becomes a member (R178). -/
def execEnsembleMemberJoin (slot : Fin 16) (s : State) : Host.Outcome State Fault Refusal :=
  s.upd (fun d => if d.engState = 2 ∧ d.on F.TS_LREF_STS_QUAL slot.val then (d.wrc F.TS_LREF_STS_MEMBER slot.val 1).showEnsemble else d)

/-- ENSEMBLE_GROUPING: every 100 s in Locked. -/
def execEnsembleGrouping (s : State) : Host.Outcome State Fault Refusal := s.upd Dev.regroup

/-! ## Outputs (R181 to R183) -/

/-- PPS_OUT, TOD_OUT and a timebase clock output are squelched in this state of the engine. -/
def Dev.outSquelch (d : Dev) : Bool :=
  decide (d.engState = 0 ∨ d.engState = 5) || (decide (d.engState = 1) && d.eng.fromFree)

/-- CLKOUTn is stopped, held low. -/
def Dev.clkoutStopped (d : Dev) (n : Nat) : Bool :=
  match d.rd F.TS_CLKOUT_CTL_SRC n with
  | 1 => d.on F.TS_CLKOUT_CTL_SQ n && d.outSquelch
  | 2 => d.on F.TS_CLKOUT_CTL_SQ n && ! d.on F.TS_LREF_STS_QUAL (d.rd F.TS_CLKOUT_CTL_SLOT n)
  | _ => true

/-- The level of the clock synthesised for CLKOUTn: from the time, high from each rising edge for half a period, the first edge of a second on
the whole second; from a line slot, with no phase relation to the time (R183). -/
def Dev.clkoutLevel (d : Dev) (n : Nat) : Bool :=
  if d.rd F.TS_CLKOUT_CTL_SRC n = 1 then
    let sec : Nat := 1000000000 * 65536
    decide (d.time % sec * d.rd F.TS_CLKOUT_FREQ_FREQ n * 2 / sec % 2 = 0)
  else Config.slotClock d.now n

/-- A tick of the clock outputs: a stopped one is low, and restarts on a rising edge. -/
def Dev.tickClkout (d : Dev) : Dev :=
  d.each ([0, 1].filter (fun n => d.on F.TS_CLKOUT_CTL_SRC n || d.eng.clkRuns.at n false)) (fun n d =>
    let level := d.clkoutLevel n
    let runs := ! d.clkoutStopped n && decide (d.rd F.TS_CLKOUT_FREQ_FREQ n ≠ 0)
      && (d.eng.clkRuns.at n false || (level && ! d.eng.clkLevel.at n true))
    d.modEng (fun e => { e with clkRuns := e.clkRuns.put n runs, clkLevel := e.clkLevel.put n level }))

/-- PPS_OUT_EDGE: the time crosses a whole second plus TS_PPS_OFS by counting. -/
def execPpsOutEdge (s : State) : Host.Outcome State Fault Refusal :=
  s.upd (fun d =>
    if ! d.domOn rowAT ∨ d.rd F.TS_OUT_CTL_PPS_W = 0 ∨ d.eng.ppsOut ∨ (d.on F.TS_OUT_CTL_SQ && d.outSquelch) then d
    else
      let sec : Int := 1000000000 * 65536
      let t : Int := ((d.time : Nat) : Int) - signed 32 (d.rd F.TS_PPS_OFS_OFS) * 64
      let n := ((t + sec / 2) / sec).emod (2 ^ 48)
      d.modEng (fun e => { e with ppsOut := true, ppsOutSec := n.toNat, todDue := d.on F.TS_OUT_CTL_TOD_EN }))

/-- PPS_OUT_PULSE_END. -/
def execPpsOutPulseEnd (s : State) : Host.Outcome State Fault Refusal :=
  s.upd (fun d => d.modEng (fun e => { e with ppsOut := false }))

/-- TOD_OUT_MESSAGE: the last PPS_OUT edge is named, with the clockClass of Table 7.11, or 248 where no PTP port service
runs. -/
def execTodOutMessage (s : State) : Host.Outcome State Fault Refusal :=
  s.upd (fun d =>
    if ! d.domOn rowAT ∨ ! d.eng.todDue ∨ ! d.on F.TS_OUT_CTL_TOD_EN ∨ (d.on F.TS_OUT_CTL_SQ && d.outSquelch) then d
    else
      let ptp := (List.range 8).any (fun k => decide (d.rd F.TS_SVC_STS_KIND k = 1) && d.svcRuns k)
      d.modEng (fun e => { e with todDue := false, tod := some (d.eng.ppsOutSec, if ptp then d.clockClass else 248) }))

/-! ## Service ports (R194 to R196) -/

/-- Rank of an engine state, best to worst (R275). -/
def stateRank (st : Nat) : Nat := match st with | 2 => 0 | 1 => 1 | 3 => 2 | 4 => 3 | 5 => 4 | _ => 5

/-- The Dormer takes an ENG_STATE message: time in the state last told, worst state, transitions (R275). -/
def Dev.dormerMessage (d : Dev) : Dev :=
  let st := d.engState
  let m := d.dm
  let held := d.freeU - max m.msgFree m.startFree
  let acc := if m.running then m.inState.put m.msgState (m.inState.at m.msgState 0 + held) else m.inState
  { d with dm := { m with
      inState := acc, msgFree := d.freeU, msgState := st, msgHold := d.rd F.TS_HOLD_T_HOLD_T, msgClass := d.clockClass
      worst := if m.running ∧ stateRank m.worst < stateRank st then st else m.worst
      nTrans := if m.running ∧ m.msgState ≠ st then m.nTrans + 1 else m.nTrans } }

/-- ENG_STATE: the engine tells every service, and the Dormer's tap. -/
def execEngState (s : State) : Host.Outcome State Fault Refusal :=
  s.upd (fun d =>
    if ! d.domOn rowAT then d
    else
      let members := ((List.range 16).filter (fun k => d.on F.TS_LREF_STS_MEMBER k)).filterMap (fun k => (d.slot k).course)
      (d.modEng (fun e => { e with
        sent := some (d.engState, d.rd F.TS_STS_ACTREF, d.rd F.TS_HOLD_T_HOLD_T, d.clockClass, members) })).dormerMessage)

/-- TIME_READ. -/
def execTimeRead (slot : Fin 8) (s : State) : Host.Outcome State Fault Refusal :=
  s.upd (fun d => if d.domOn rowAT ∧ d.svcRuns slot.val then
    d.modEng (fun e => { e with timeRead := e.timeRead.put slot.val (d.time, d.free) }) else d)

/-- The QL that the ESMC service sends on a course (R196). -/
def Dev.ssmOf (d : Dev) (n : Nat) : Nat :=
  let active := d.rd F.CS_SEL_ACTIVE n
  let m := if d.rd F.CS_CTL_ROLE n = 1 ∧ 0x200 ≤ active then active - 0x200 else n
  let dnu := (List.range 16).any (fun k => (decide ((d.slot k).course = some m) || decide (d.rd F.TS_LREF_CTL_COURSE k = n))
    && (d.on F.TS_LREF_STS_MEMBER k || decide (d.eng.synSlot = some k)))
  if dnu then 0xF else if d.engState = 2 then 0x2 else 0xB

/-- An ESMC service that runs sends on a course that is bound to it. -/
def Dev.esmcSends (d : Dev) (n : Nat) : Bool :=
  (d.boundService n).elim false (fun k => decide (d.rd F.TS_SVC_STS_KIND k = 2) && d.svcRuns k)

/-- ESMC_INFO_PDU on a bound course. -/
def execEsmcInfoPdu (course : Fin 512) (s : State) : Host.Outcome State Fault Refusal :=
  s.upd (fun d => if d.esmcSends course.val then
    d.modEng (fun e => { e with ssm := e.ssm.put course.val (d.ssmOf course.val) }) else d)

/-- The event PDUs of R196: on the tick after a course's QL has changed from that of the PDU last sent on it. -/
def Dev.esmcEvents (d : Dev) : Dev :=
  d.each (d.eng.ssm.map (fun p => p.1)) (fun n d =>
    let ql := d.ssmOf n
    if d.eng.ssm.find? n = some ql ∨ ! d.esmcSends n then d
    else d.modEng (fun e => { e with ssm := e.ssm.put n ql, ssmEvent := e.ssmEvent.put n ql }))

/-- The health of a service (Table 1.8, R195): Degraded as its yealm defines, which is free. -/
def Dev.svcHealth (d : Dev) (k : Nat) : Nat :=
  let r := d.rd F.TS_SVC_STS_REGION k
  if d.rd F.UD_STATE_KSTATE (0x080 + r) = 5 then 4
  else if ! d.svcRuns k then 3
  else if d.rd F.TS_SVC_STS_KIND k = 1 then
    let mine := d.usedCourses.filter (fun n => decide (d.boundService n = some k))
    let live (n : Nat) : Bool :=
      if d.rd F.CS_CTL_ROLE n = 1 then decide (0x200 ≤ d.rd F.CS_SEL_ACTIVE n) && d.inService (d.rd F.CS_SEL_ACTIVE n - 0x200) else d.inService n
    if mine.any live then b2n (Config.serviceDegraded d.now k) else 3
  else b2n (Config.serviceDegraded d.now k)

/-- A service's health is published, and the engine's references see it. -/
def Dev.publishService (d : Dev) (id : Nat) : Dev :=
  let k := d.rd F.UD_INDEX_INDEX id % 8
  let h := d.svcHealth k
  let d1 := (d.wrc F.TS_SVC_STS_HEALTH k h).publish id (d.rd F.UD_STATE_KSTATE id) h
  if d1.rd F.TS_SVC_STS_KIND k = 1 ∧ d1.rd F.TS_CTL_PTPSVC = k ∧ (h = 3 ∨ h = 4) ∧ d1.eng.ptpSince.isSome then d1.ptpDisqualify else d1

/-- HEALTH_PUBLISH: the owner of a unit publishes it; line references follow their courses (R25, R177). -/
def execHealthPublish (id : Fin 4096) (s : State) : Host.Outcome State Fault Refusal :=
  s.upd (fun d => (if d.rd F.UD_IDENT_KIND id.val = 9 then d.publishService id.val else d.publishUnit id.val).slotsEval)

end Sys2Proof.Machine
end

