-- ==== Sys2Proof/Machine/ImageCheck.lean ====
section
/-! DEFINITION. What the loader checks of an image: header and yealms (R347, R348), signature (R349), and the rules and
claims of step 8 (R352, Table 15.8 of spec/15_boot_configuration.md). -/
namespace Sys2Proof.Machine

/-! ## Header and yealms (R347, R348) -/

/-- A row of Table 15.6: TYPE, order, greatest INST, whether required, greatest ULEN in KiB. -/
structure YealmRow where
  ty : Nat
  order : Nat
  inst : Nat
  required : Bool
  kib : Nat
  deriving DecidableEq, Repr

/-- Table 15.6. -/
def yealmRows : List YealmRow :=
  [⟨0x0A, 1, 0, false, 64⟩, ⟨0x03, 2, 0, true, 128⟩, ⟨0x01, 3, 0, true, 256⟩, ⟨0x06, 4, 0, true, 4096⟩,
   ⟨0x07, 5, 0, false, 2048⟩, ⟨0x04, 6, 511, false, 512⟩, ⟨0x05, 6, 63, false, 512⟩, ⟨0x0C, 7, 7, false, 64⟩,
   ⟨0x08, 8, 0, false, 1024⟩, ⟨0x09, 9, 0, false, 64⟩, ⟨0x0B, 10, 0, false, 64⟩, ⟨0x02, 11, 0, true, 64⟩]

def yealmRow (ty : Nat) : Option YealmRow := yealmRows.find? (fun r => decide (r.ty = ty))

/-- What fails in a header, with CF_ITEM: 0 nothing, else a code of Table 15.8. `half` is what the image's flash half holds. -/
def headerCode (h : ImageHeader) (half : Nat) : Nat × Nat :=
  if h.magic.toNat ≠ 0x43525053 then (0x02, 0)
  else if ! h.crcOk then (0x03, 0)
  else if h.format.toNat ≠ 1 ∨ h.hdrlen.toNat ≠ 512 ∨ h.part.toNat ≠ 0x6408 ∨ h.nyealm.toNat = 0 ∨ 1024 < h.nyealm.toNat then (0x04, 0)
  else if half < h.imglen.toNat ∨ h.sigofs.toNat + 256 ≠ h.imglen.toNat then (0x05, 512)
  else (0, 0)

/-- What fails in a yealm behind those already read, with CF_ITEM. -/
def yealmCode (earlier : List Yealm) (y : Yealm) : Nat × Nat :=
  if ! y.crcOk then (0x06, 0)
  else match yealmRow y.ty.toNat with
    | none => (0x07, 0)
    | some r =>
      if r.inst < y.inst.toNat ∨ r.kib * 1024 < y.ulen.toNat ∨ earlier.any (fun e => decide (e.ty = y.ty ∧ e.inst = y.inst)) then (0x07, 0)
      else match y.decomp with
        | some at_ => (0x08, at_)
        | none => (0, 0)

/-- Bytes that a yealm takes in the image. -/
def yealmSize (y : Yealm) : Nat := (16 + y.len.toNat + 63) / 64 * 64

/-- What fails at the end of the yealms: a required type that is missing, or yealms that do not end at SIGOFS. -/
def endCode (h : ImageHeader) (ys : List Yealm) (offset : Nat) : Nat × Nat :=
  if ys.length ≠ h.nyealm.toNat ∨ offset ≠ h.sigofs.toNat then (0x05, offset)
  else match yealmRows.find? (fun r => r.required && ! ys.any (fun y => decide (y.ty.toNat = r.ty))) with
    | some r => (0x07, r.ty)
    | none => (0, 0)

/-- What fails in the signature block against the key slots (R349), with CF_ITEM. -/
def BootX.sigCode (f : BootX) (g : SigBlock) : Nat × Nat :=
  let slot := (List.range 4).find? (fun k => decide (f.keys.find? k = some g.keyHash.toNat))
  if g.alg.toNat ≠ 1 then (0x0A, 0)
  else if f.keys.isEmpty then (if g.verifies then (0, 0) else (0x0A, 0))
  else
    let live := (List.range 4).any (fun k => decide (f.keys.find? k = some g.keyHash.toNat) && ! bit f.revoked k)
    if ! live then (0x09, slot.getD 0xF) else if g.verifies then (0, 0) else (0x0A, 0)

/-! ## The image by itself -/

/-- A field that the loader sets: every RW field, and the RO fields that an image configures (R27, R199, R184, R236, R250). -/
def loaderField (f : Fld) : Bool :=
  match f.acc with
  | .RW => true
  | .RO =>
    match f.reg with
    | .UD_IDENT | .UD_LINKS | .UD_INDEX | .FB_CFG | .FB_CTXSEL | .FB_GUTMAP | .FB_WIN_BASE | .FB_WIN_LIM | .TS_CLS_BASE | .MT_CTL
    | .PU_GCFG | .PU_GMIN | .PU_GMAX | .PU_QCFG | .PU_QLIM | .TB_CTL => true
    | .UD_VOTE => decide (f.lo < 15)
    | .UD_STATE => decide (f.lo = 8 ∨ f.lo = 16)
    | .TS_SVC_STS => decide (f.lo < 9 ∨ f.lo = 24)
    | _ => false
  | _ => false

/-- A word goes into the fields of its register that the loader sets. -/
def Dev.loaderWord (d : Dev) (r : Reg) (i w : Nat) : Dev :=
  (r.fields.filter loaderField).foldl (fun d f => d.wr f i (bits w f.lo f.w)) d

/-- The course entries of an image. -/
def courseOf (s : Setting) : Option (Nat × CourseImage) :=
  match s with
  | .course n ctl rate l0 l1 ctx sel cfg =>
    some (n.val, { ctl := ctl.toNat, rate := rate.toNat, lanes0 := l0.toNat, lanes1 := l1.toNat, ctx := ctx.toNat, sel := sel.toNat, cfg := cfg.toNat })
  | _ => none

def imageCourses (ys : List Yealm) : List (Nat × CourseImage) :=
  (ys.map (fun y => y.settings.filterMap courseOf)).flatten

/-- A setting of the image by itself, for the checks of step 8. -/
def Dev.checkSetting (d : Dev) (s : Setting) : Dev :=
  match s with
  | .word a v => match d.regAt (a.toNat / 4 * 4) with | some (r, i) => d.loaderWord r i v.toNat | none => d
  | .course .. => match courseOf s with | some (n, im) => d.courseImageWrite n im | none => d
  | .store p => { d with img := { d.img with ctxBase := p.val * 512 } }
  | .paged p .. => { d with img := { d.img with paged := if bit d.img.paged p.val then d.img.paged else d.img.paged + 2 ^ p.val } }
  | _ => d

/-- The part as the image alone would set its registers. -/
def imageAlone (ys : List Yealm) : Dev := ys.foldl (fun d y => y.settings.foldl Dev.checkSetting d) {}

/-- The image gives a service slot a yealm of its own. -/
def yealmIndex (ys : List Yealm) (ty : Nat) : Nat := (ys.findIdx? (fun y => decide (y.ty.toNat = ty))).getD 0

/-! ## Rules on units and courses (R21, R35, R70, R202, R213) -/

/-- R20: the kinds that a group kind contains. -/
def containsKind (g k : Nat) : Bool :=
  match g with
  | 2 => decide (k = 1 ∨ k = 2)
  | 6 => decide (k = 5 ∨ k = 6)
  | 8 => decide (k = 7 ∨ k = 8)
  | _ => false

/-- The units whose parent is a unit. -/
def Dev.childrenOf (d : Dev) (id : Nat) : List Nat := (d.listed F.UD_IDENT_PARENT).filter (fun u => decide (d.rd F.UD_IDENT_PARENT u = id))

/-- A chain of parents comes back to a unit. -/
def Dev.inCycle (d : Dev) (fuel id at_ : Nat) : Bool :=
  match fuel with
  | 0 => false
  | fuel + 1 => let p := d.rd F.UD_IDENT_PARENT at_
                if p = 0 then false else decide (p = id) || d.inCycle fuel id p

/-- A unit's chain of members breaks R20: it loops, or holds a unit of a kind that the unit cannot contain or of another parent, so
that no unit stands in two chains. -/
def Dev.chainBad (d : Dev) (id : Nat) : Bool :=
  let ms := d.members id
  decide (unitCount ≤ ms.length) || ms.any (fun m =>
    ! containsKind (d.rd F.UD_IDENT_KIND id) (d.rd F.UD_IDENT_KIND m) || decide (d.rd F.UD_IDENT_PARENT m ≠ id))

/-- A unit breaks R21. -/
def Dev.unitBad (d : Dev) (id : Nat) : Bool :=
  let p := d.rd F.UD_IDENT_PARENT id
  let k := d.rd F.UD_IDENT_KIND id
  let kids := d.members id
  let group := decide (k = 2 ∨ k = 6 ∨ k = 8)
  let q := d.rd F.UD_STATE_QUORUM id
  let a := if k = 2 then d.rd F.CS_SEL_ACTIVE (id - 0x200) else d.rd F.UD_STATE_ACTIVE id
  (decide (p ≠ 0) && ! containsKind (d.rd F.UD_IDENT_KIND p) k) || d.inCycle unitCount id id || d.chainBad id
    || (group && decide (d.rd F.UD_IDENT_POLICY id = 2) && (decide (q = 0) || decide (kids.length < q)))
    || (group && decide (d.rd F.UD_IDENT_POLICY id = 3) && decide (a ≠ 0) && ! kids.contains a)

/-- The Lane units whose parent is a course, as through-paths in ascending order. -/
def Dev.laneKids (d : Dev) (n : Nat) : List Nat :=
  (List.range 64).filter (fun tp => decide (d.rd F.UD_IDENT_PARENT (laneUnit tp) = courseUnit n))

/-- R70 holds of a course. -/
def Dev.membershipOk (d : Dev) (n : Nat) : Bool :=
  let kids := d.laneKids n
  match d.rd F.CS_CTL_ROLE n with
  | 0 => decide (d.courseTps n = kids)
  | 2 =>
    let leaves := (List.range 512).filter (fun m => decide (d.rd F.CS_CTL_ROLE m = 0) && (d.ancestors m).contains n)
    kids.isEmpty && decide (d.courseTps n = (List.range 64).filter (fun tp => leaves.any (fun m => (d.laneKids m).contains tp)))
  | _ => kids.isEmpty

/-- R202 holds of a course: the gutters of its member transceivers are bound to its region. Answers the first that is not. -/
def Dev.gutterUnbound (d : Dev) (n : Nat) : Option Nat :=
  if d.on F.CS_CTL_VIA_FABRIC n then (d.courseLanes n).find? (fun l => decide (d.gutRegion l ≠ some (d.rd F.CS_CTX_REGION n))) else none

/-- R213 holds of a region in Course mode. -/
def Dev.courseSelectOk (d : Dev) (r : Nat) : Bool :=
  let names (n : Nat) : Bool := d.on F.CS_CTX_CTX_VALID n && decide (d.rd F.CS_CTX_REGION n = r)
  let c := d.rd F.FB_CFG_COURSE r
  decide (d.rd F.FB_CFG_SELMODE r ≠ 1) || (names c && (d.listed F.CS_CTX_CTX_VALID).all (fun n => decide (n = c) || ! names n))

/-! ## Rules on Tier M (R184, R209, R236, R238, R250) -/

/-- The byte ranges, as first byte and byte behind the last, of the context store, the classifier table and the compatibility
window. -/
def Dev.storeRange (d : Dev) : Nat × Nat := (d.img.ctxBase, d.img.ctxBase + countBits 64 d.img.paged * 0x80000)
def Dev.tableRange (d : Dev) : Nat × Nat :=
  let b := d.rd F.TS_CLS_BASE_BASE * 0x200000
  (b, if d.on F.TS_CLS_BASE_EN then b + 0x200000 else b)
def Dev.compatRange (d : Dev) : Nat × Nat := (0, if d.on F.MT_CTL_COMPAT then 0x100000 else 0)
def secureRange : Nat × Nat := (0x7C00000, 0x8000000)

/-- A region's address window, empty where it is not enabled. -/
def Dev.windowRange (d : Dev) (i : Nat) : Nat × Nat :=
  let lo := d.rd F.FB_WIN_BASE_BASE i * 0x10000
  (lo, if d.on F.FB_WIN_BASE_EN i then (d.rd F.FB_WIN_LIM_LIM i + 1) * 0x10000 else lo)

/-- The first Tier M page that two byte ranges share. -/
def sharedPage (a b : Nat × Nat) : Option Nat :=
  let lo := max a.1 b.1
  if lo < min a.2 b.2 then some (lo / 512) else none

/-- Add a range of pages to a list of rising, separate runs. -/
def addRun (runs : List (Nat × Nat)) (lo hi : Nat) : List (Nat × Nat) :=
  match runs with
  | [] => if lo < hi then [(lo, hi - lo)] else []
  | (a, n) :: t =>
    if hi ≤ lo then (a, n) :: t
    else if hi < a then (lo, hi - lo) :: (a, n) :: t
    else if a + n < lo then (a, n) :: addRun t lo hi
    else addRun t (min a lo) (max (a + n) hi)

/-- The runs between the given ones, up to page `hi`. -/
def gapRuns (runs : List (Nat × Nat)) (lo hi : Nat) : List (Nat × Nat) :=
  match runs with
  | [] => if lo < hi then [(lo, hi - lo)] else []
  | (a, n) :: t => if lo < a then (lo, a - lo) :: gapRuns t (a + n) hi else gapRuns t (a + n) hi

/-- The pages that R250 reserves. -/
def Dev.reservedRuns (d : Dev) : List (Nat × Nat) :=
  let ranges := [d.storeRange, secureRange, d.tableRange, d.compatRange] ++ (d.listed F.FB_WIN_BASE_EN).map d.windowRange
  ranges.foldl (fun runs r => addRun runs (r.1 / 512) ((r.2 + 511) / 512)) []

/-- The pages of the pool. -/
def Dev.poolPages (d : Dev) : Nat := 262144 - freeCount d.reservedRuns

/-! ## Quotas (R259) -/

def Dev.childGroups (d : Dev) (g : Nat) : List Nat := d.quotaGroups.filter (fun c => decide (d.rd F.PU_GCFG_PARENT c = g))

def sumOf (l : List Nat) (f : Nat → Nat) : Nat := l.foldl (fun a x => a + f x) 0

/-- The MIN values of a group's child groups add up to more than its own. -/
def Dev.minBroken (d : Dev) (g : Nat) : Bool := decide (d.rd F.PU_GMIN_MIN g < sumOf (d.childGroups g) (fun c => d.rd F.PU_GMIN_MIN c))

def Dev.topGroups (d : Dev) : List Nat := d.quotaGroups.filter (fun g => decide (1024 ≤ d.rd F.PU_GCFG_PARENT g))

/-- A member of a DWRR group has a WEIGHT below 64 bytes. -/
def Dev.weightBroken (d : Dev) (g : Nat) : Bool :=
  d.on F.PU_GCFG_SCHED g && ((d.childGroups g).any (fun c => decide (d.rd F.PU_GCFG_WEIGHT c < 64))
    || d.knownQueues.any (fun q => decide (d.rd F.PU_QCFG_GROUP q = g ∧ d.rd F.PU_QCFG_WEIGHT q < 64)))

/-- A group breaks R259, the sum of the top-level groups against the pool apart. -/
def Dev.groupBad (d : Dev) (g : Nat) : Bool :=
  let mx := d.rd F.PU_GMAX_MAX g
  d.minBroken g || (decide (mx ≠ 0) && decide (mx < d.rd F.PU_GMIN_MIN g)) || d.weightBroken g

/-! ## Pace (R206) -/

/-- Handshake rate that a gutter needs at a line rate: 1.2 times its word rate, rounded up, per microsecond (Table 8.6). -/
def gutterPace (rate : Nat) : Nat :=
  match rateRow rate with
  | none => 0
  | some r =>
    let p := payloadShare r.code
    let den := p.2 * 5120000
    (r.kbps * p.1 * 12 + den - 1) / den

/-- FB_PACE.FLOOR of a region (R206). -/
def Dev.paceFloor (d : Dev) (r : Nat) : Nat :=
  let ns := (d.listed F.CS_CTL_VIA_FABRIC).filter (fun n => (d.courseLanes n).any (fun l => decide (d.gutRegion l = some r)))
  ns.foldl (fun m n => max m (gutterPace (d.rd F.CS_RATE_RMAX n))) 0

/-! ## Step 8 (R352) -/

/-- The regions to which an image binds a gutter. -/
def Dev.gutterRegions (d : Dev) (l : Nat) : Nat :=
  ((d.listed F.FB_GUTMAP_MAP).filter (fun i => decide (i % 4 = l / 32) && bit (d.rd F.FB_GUTMAP_MAP i) (l % 32))).length

/-- The gutters bound to a region beyond its 16 attachment points. -/
def Dev.extraGutters (d : Dev) (r : Nat) : List Nat :=
  ((List.range 128).filter (fun l => bit (d.rd F.FB_GUTMAP_MAP (4 * r + l / 32)) (l % 32))).drop 16

def claimCode (c : Claimed) : Nat :=
  match c with | .pin => 0x19 | .timer => 0x1A | .queue => 0x1B | .sparPort => 0x1C | .gutter => 0x14 | .service => 0x1D

/-- Every claim of an image, with the index of its yealm. -/
def imageClaims (ys : List Yealm) : List (Nat × Claimed × Nat) :=
  ((List.range ys.length).map (fun k => (((ys[k]?).map (fun y => y.settings)).getD []).filterMap (fun s =>
    match s with | .claim c item => some (k, c, item) | _ => none))).flatten

/-- The first claim of these kinds that an earlier one has already made. -/
def secondClaim (seen todo : List (Nat × Claimed × Nat)) (what : Claimed) : Option (Nat × Nat) :=
  match todo with
  | [] => none
  | c :: t =>
    if c.2.1 = what ∧ seen.any (fun e => decide (e.2 = c.2)) then some (c.1, c.2.2) else secondClaim (c :: seen) t what

/-- The first broken rule in the order of R352: code, yealm index, item. -/
def ruleBroken (ys : List Yealm) : Option (Nat × Nat × Nat) :=
  let d := imageAlone ys
  let ix (ty : Nat) : Nat := yealmIndex ys ty
  let found (code ty : Nat) (o : Option Nat) : Option (Nat × Nat × Nat) := o.map (fun item => (code, ix ty, item))
  let named := d.listed F.UD_IDENT_PARENT ++ d.listed F.UD_IDENT_POLICY ++ d.listed F.UD_LINKS_FIRST_CHILD
  let units := (List.range 4096).filter (fun id => named.contains id)
  let parents := (List.range 64).map (fun tp => d.rd F.UD_IDENT_PARENT (laneUnit tp))
  let courses := (List.range 512).filter (fun n => (imageCourses ys).any (fun c => decide (c.1 = n)) || parents.contains (courseUnit n))
  let wins := d.listed F.FB_WIN_BASE_EN
  let regions := List.range 64
  let fast (n : Nat) : Bool := decide (d.rd F.CS_RATE_RATE n = 0x15 ∨ d.rd F.CS_RATE_RMIN n = 0x15 ∨ d.rd F.CS_RATE_RMAX n = 0x15)
  let top := sumOf d.topGroups (fun g => d.rd F.PU_GMIN_MIN g)
  let claim (c : Claimed) : Option (Nat × Nat × Nat) := (secondClaim [] (imageClaims ys) c).map (fun p => (claimCode c, p.1, p.2))
  let checks : List (Option (Nat × Nat × Nat)) :=
    [ found 0x10 0x03 (units.find? d.unitBad)
    , found 0x11 0x02 ((((List.range 512).filter fast).map d.courseTps).flatten.find? (fun tp => decide (16 ≤ tp)))
    , found 0x12 0x02 (courses.find? (fun n => ! d.membershipOk n))
    , found 0x16 0x06 (sharedPage d.tableRange secureRange)
    , found 0x16 0x06 (sharedPage d.tableRange d.storeRange)
    , found 0x16 0x06 (sharedPage d.tableRange d.compatRange)
    , found 0x13 0x06 (regions.find? (fun r => decide (paceLimit (d.rd F.PW_DOM_VSET (rowL r)) < d.paceFloor r)))
    , found 0x14 0x02 ((courses.filterMap d.gutterUnbound).head?)
    , found 0x14 0x06 ((List.range 128).find? (fun l => decide (1 < d.gutterRegions l)))
    , found 0x14 0x06 (((d.listed F.FB_GUTMAP_MAP).map (fun i => d.extraGutters (i / 4))).flatten.head?)
    , found 0x15 0x06 (wins.find? (fun i => [secureRange, d.storeRange, d.tableRange].any (fun r => (sharedPage (d.windowRange i) r).isSome)))
    , found 0x17 0x02 (regions.find? (fun r => ! d.courseSelectOk r))
    , found 0x16 0x06 (sharedPage d.storeRange d.compatRange)
    , found 0x16 0x06 (sharedPage d.storeRange secureRange)
    , found 0x16 0x06 (if d.storeRange.2 ≤ 0x8000000 then none else some 262144)
    , found 0x18 0x06 (d.quotaGroups.find? d.groupBad)
    , found 0x18 0x06 (if d.poolPages < top then d.topGroups.head? else none)
    , claim .pin, claim .timer, claim .queue, claim .sparPort, claim .gutter, claim .service ]
  (checks.find? Option.isSome).join

end Sys2Proof.Machine
end

