-- ==== Sys2Proof/Machine/DormerCore.lean ====
section
/-! DEFINITION. Wipes and tampers (R282, R283 of
spec/11_dormer.md). -/
namespace Sys2Proof.Machine

/-! ## Wipes (R239, R283) -/

/-- The wipe command, once domain M is On; a second one joins the first. -/
def Dev.wipeStart (d : Dev) : Dev :=
  if d.domOn rowM then (d.wrc F.MT_STS_WIPING 0 1).modDm (fun m => { m with wipeDue := false })
  else d.modDm (fun m => { m with wipeDue := true })

/-- Step 4 of Table 11.7: tamper's votes are withdrawn, and a ring opens where the Dormer is still sealed. -/
def Dev.wipeDone (d : Dev) : Dev :=
  let d1 := if d.dm.tampered then ((d.modDm (fun m => { m with tampered := false })).vote 9 rowM false).vote 9 rowD false else d
  if d1.dormerLive then d1.ringOpen else d1

/-- JTAG instructions under which the pads are driven from the boundary register (R383). -/
def jtagDrives (ir : Nat) : Bool := decide (ir = 0x00 ∨ ir = 0x08 ∨ ir = 0x09 ∨ ir = 0x0E ∨ ir = 0x0F)

/-- RESET_N resets every domain (R341): eFuse, the tamper latch, the edges on the reference inputs and the test port stay; the
part returns to service where the port has left the instructions of R383. -/
def State.hardReset (s : State) : State :=
  { s with dev := { fuse := s.dev.fuse, dm := { latch := s.dev.dm.latch }, draws := s.dev.draws
                    refs := s.dev.refs.map (fun p => (p.1, { edges := p.2.edges }))
                    jtag := { s.dev.jtag with out := jtagDrives s.dev.jtag.ir } }
           mem := [] }

/-- WIPE_COMPLETE. A reset that waited for it takes effect (R341). -/
def execWipeComplete (s : State) : Host.Outcome State Fault Refusal :=
  .next (if ! s.dev.on F.MT_STS_WIPING then s
    else
      -- operations that were admitted before the wipe complete first
      let old := (s.dev.mt.ops.filter (fun o => o.atBank && o.words.any inSecure)).foldl (fun l o => insertOp o l) []
      let s := s.serveAll old []
      let d1 := (s.dev.wr0 F.MT_STS_WIPING 0).wr0 F.MT_STS_WIPED 1
      let d2 := d1.modMt (fun m => { m with bad := m.bad.filter (fun p => ! inSecure p.1) })
      let s1 : State := { s with dev := (d2.wipeDone).admitWaiting, mem := Memory.clear s.mem 0x7C00000 0x8000000 }
      if s.dev.pw.resetDue then s1.hardReset else s1)

/-! ## Tampers (R282, R283) -/

/-- A tamper confirms: 0 TAMPER_N, 1 Eaves glitch, 2 temperature, 3 sealed image. -/
def Dev.tamper (d : Dev) (src : Nat) : Dev :=
  if d.fuse.life = 0 ∨ d.fuse.life = 4 then d
  else
    let n := if d.fuse.tamper.at src 0 + d.dm.latch.at src 0 < 255 then d.dm.latch.at src 0 + 1 else d.dm.latch.at src 0
    let d1 := (d.modDm (fun m => { m with latch := m.latch.put src n, tampered := true })).alert 1
    let d2 := ((d1.ringDrop).setMeters 0 0).gateRelock
    (((d2.vote 9 rowM true).vote 9 rowD true).wipeStart).wake 6 0 0

end Sys2Proof.Machine
end

