-- ==== Sys2Proof/Machine/Dormer.lean ====
section
/-! DEFINITION. Commands of the Dormer (R276 to R284 of spec/11_dormer.md). -/
namespace Sys2Proof.Machine

/-- INTERVAL_END: the next interval starts at the same tick. SHORT marks an end by FREE. -/
def execIntervalEnd (s : State) : Host.Outcome State Fault Refusal :=
  s.upd (fun d => if d.dm.running then (d.intervalEnd d.intervalLong).intervalStart else d)

/-- A record is in the ring: DM_SEQ_NEW and DM_SEQ_OLD advance (R277). -/
def Dev.recordShown (d : Dev) (seq : Nat) : Dev :=
  let d1 := (d.wr0 F.DM_SEQ_NEW_NEW seq).wr0 F.DM_SEQ_OLD_OLD (seq + 1 - d.rd F.DM_CFG_RINGSZ)
  (d1.modDm (fun m => { m with recs := m.recs.drop 1, retry := false, shown := true })).restCheck

/-- A record write answered POISON: once more, then the meters go to Fault (R277). -/
def Dev.recordFailed (d : Dev) : Dev :=
  if d.dm.retry then
    ((d.modDm (fun m => { m with recs := [], retry := false, halted := true })).setMeters 2 1).restCheck
  else d.modDm (fun m => { m with retry := true })

/-- Address of a record's slot in the secure region. -/
def Dev.recAddr (d : Dev) (seq : Nat) : Nat := 0x7C00000 + 512 * (seq % max 1 (d.rd F.DM_CFG_RINGSZ))

/-- RECORD_WRITE: the next record, as two block writes of master 67. -/
def execRecordWrite (poisoned : Bool) (s : State) : Host.Outcome State Fault Refusal :=
  .next (match s.dev.dm.recs with
    | [] => s
    | r :: _ =>
      if ! s.dev.domOn rowM ∨ s.dev.on F.MT_STS_WIPING then s
      else if poisoned then s.on Dev.recordFailed
      else
        let seq := natLE ((r.drop 4).take 4)
        let a := s.dev.recAddr seq
        let s1 := s.each (List.range 16) (fun k s =>
          s.hardWrite (a + 32 * k) (natLE ((r.drop (32 * k)).take 32)) 67 (sparNumber 67 0))
        s1.on (fun d => d.recordShown seq))

/-- DM_SEL names a record (R280): the copy starts, or its number is not in the ring. -/
def State.dmSelect (s : State) (seq : Nat) (seen : List EccSeen) : State :=
  let s0 := s.on (fun d => ((d.wr0 F.DM_SEL_SEQ seq).wr0 F.DM_RSTS_READY 0).wr0 F.DM_RSTS_GONE 0 |>.wr0 F.DM_RSTS_BUSY 1)
  let d := s0.dev
  if ! d.dm.shown ∨ seq < d.rd F.DM_SEQ_OLD_OLD ∨ d.rd F.DM_SEQ_NEW_NEW < seq ∨ ! d.domOn rowM then
    s0.on (fun d => d.modDm (fun m => { m with copy := none }))
  else
    let a := d.recAddr seq
    let r := (List.range 16).foldl (fun (r : State × List Byte) k =>
      let x := r.1.hardRead (a + 32 * k) 67 (sparNumber 67 0) (seen.getD k .clean)
      (x.1, r.2 ++ x.2.2)) (s0, [])
    r.1.on (fun d => d.modDm (fun m => { m with copy := some r.2 }))

/-- DM_SEL_WRITE. -/
def execDmSelWrite (seq : BitVec 32) (seen : List EccSeen) (s : State) : Host.Outcome State Fault Refusal :=
  .next (if s.dev.domOn rowD then s.dmSelect seq.toNat seen else s.on (fun d => d.wr0 F.PW_STS_OFFACC 1))

/-- RECORD_COPY_DONE: the buffer holds the record, or reads 0. -/
def execRecordCopyDone (s : State) : Host.Outcome State Fault Refusal :=
  s.upd (fun d =>
    if ! d.on F.DM_RSTS_BUSY then d
    else
      let b := d.dm.copy.getD []
      let d1 := d.each (List.range 128) (fun w d => d.wrc F.DM_REC_DATA w (natLE ((b.drop (4 * w)).take 4)))
      let d2 := (d1.wr0 F.DM_RSTS_BUSY 0).wr0 F.DM_RSTS_READY (b2n d.dm.copy.isSome)
      (d2.wr0 F.DM_RSTS_GONE (b2n d.dm.copy.isNone)).modDm (fun m => { m with copy := none }))

/-- TAMPER_N_CONFIRM: a source with DM_CFG.TMPEN. -/
def execTamperNConfirm (s : State) : Host.Outcome State Fault Refusal :=
  s.upd (fun d => if d.on F.DM_CFG_TMPEN then d.tamper 0 else d)

/-- EAVES_SUPPLY_GLITCH; the source is disarmed while RESET_N is low and arms at power good (R388). -/
def execEavesSupplyGlitch (s : State) : Host.Outcome State Fault Refusal := s.upd (fun d => if d.pw.good then d.tamper 1 else d)

/-- Set or clear one bit of a mask. -/
def setBit (m : Mask) (k : Nat) (b : Bool) : Mask := if bit m k = b then m else if b then m + 2 ^ k else m - 2 ^ k

/-- DIE_TEMPERATURE_SAMPLE: MG_TEMPt, and a tamper at the second consecutive sample outside −50 °C to +125 °C, once for each
excursion. -/
def execDieTemperatureSample (tier : Fin 4) (temp : BitVec 12) (s : State) : Host.Outcome State Fault Refusal :=
  s.upd (fun d => if ! d.pw.good then d else
    let d1 := (d.wrc F.MG_TEMP_TEMP tier.val temp.toNat).wrc F.MG_TEMP_VALID tier.val 1
    let out := decide (temp.toInt < -400 ∨ 1000 < temp.toInt)
    let confirms := out && bit d1.dm.hot tier.val && ! bit d1.dm.hotDone tier.val
    let d2 := d1.modDm (fun m => { m with
      hot := setBit m.hot tier.val out, hotDone := setBit m.hotDone tier.val (out && bit m.hot tier.val) })
    if confirms then d2.tamper 2 else d2)

/-- TAMPER_EFUSE_PROGRAM: once domain C is On, the latched counts are programmed. -/
def execTamperEfuseProgram (s : State) : Host.Outcome State Fault Refusal :=
  s.upd (fun d =>
    if ! d.domOn rowC then d
    else
      let t := (List.range 4).foldl (fun (t : NMap Nat) k =>
        let n := min 255 (t.at k 0 + d.dm.latch.at k 0)
        if n = 0 then t else t.put k n) d.fuse.tamper
      { d with fuse := { d.fuse with tamper := t }, dm := { d.dm with latch := [] } })

/-! ## The sealed yealm (R271, R272, R281) -/

/-- A refusal leaves the Dormer unsealed, with its reason. -/
def Dev.refuseYealm (d : Dev) (code : Nat) : Dev := (d.unseal.wr0 F.DM_STS_REFUSE code).alert 1

/-- A lifecycle request that Table 11.5 lists from this state. -/
def lifeOk (frm to_ : Nat) : Bool :=
  match frm, to_ with
  | 0, 1 | 1, 2 | 1, 3 | 2, 3 | 3, 1 | 0, 4 | 1, 4 | 2, 4 | 3, 4 => true
  | _, _ => false

/-- The key slot that a re-provisioning takes. -/
def Dev.nextKeySlot (d : Dev) : Option Nat :=
  if d.fuse.life = 0 then some 0 else if d.fuse.keySlot < 3 then some (d.fuse.keySlot + 1) else none

/-- Blow the seal counter's bits so that it reads a value above the present one. -/
def FuseX.blowTo (f : FuseX) (n : Nat) : FuseX := { f with sealCount := n, sealLeft := f.sealLeft - (n - f.sealCount) }

/-- What a lifecycle request does to eFuse (Table 11.5). -/
def FuseX.lifecycle (f : FuseX) (to_ slot : Nat) (key : List Byte) : FuseX :=
  let ones := List.replicate 32 (0xFF : Byte)
  if to_ = 1 ∧ f.life = 0 then
    let f1 := if f.sealCount = 0 then f.blowTo 1 else f
    { f1 with life := 1, keySlot := 0, kSeal := f.kSeal.put 0 key }
  else if to_ = 1 then
    { f with life := 1, keySlot := slot, kSeal := (f.kSeal.put f.keySlot ones).put slot key
             sealBase := f.sealBase + f.sealCount - 1, sealCount := 1 }
  else if to_ = 4 then { f with life := 4, kSeal := (List.range 4).foldl (fun m k => NMap.put m k ones) f.kSeal }
  else { f with life := to_ }

/-- Step 4 of R271. -/
def configOk (y : SealedYealm) : Bool :=
  let n := countBits 256 y.meters.toNat
  decide (1 ≤ y.interval.toNat ∧ y.interval.toNat ≤ 60) && decide (64 ≤ y.ringsz.toNat ∧ y.ringsz.toNat ≤ 8000)
    && decide (2 * partsOf n ≤ y.ringsz.toNat)

/-- Why a sealed yealm whose signature verifies is refused, 0 where it is not. -/
def Dev.refusal (d : Dev) (y : SealedYealm) : Nat :=
  let n := d.fuse.sealCount
  if y.serial.toNat ≠ d.fuse.serial then 1
  else if y.sc.toNat ≠ n ∧ y.sc.toNat ≠ n + 1 then 2
  else if y.sc.toNat = n + 1 ∧ d.fuse.sealLeft = 0 then 5
  else if ! configOk y then 7
  else if d.fuse.life = 4 then 3
  else match y.request with
    | none => 0
    | some r =>
      if ! lifeOk d.fuse.life r.val then 3
      else if r.val = 1 ∧ d.nextKeySlot.isNone then 3
      else if r.val = 1 ∧ y.key.isNone then 4
      else if r.val = 1 ∧ d.fuse.life = 0 ∧ y.sc.toNat = 0 ∧ d.fuse.sealLeft = 0 then 5
      else 0

/-- K_SEAL as the yealm carries it. -/
def sealedKey (y : SealedYealm) : List Byte := match y.key with | some k => bytesLE k.toNat 32 | none => []

/-- The configuration of a sealed yealm, loaded into the slice. -/
def Dev.loadSlice (d : Dev) (y : SealedYealm) : Dev :=
  let m := y.meters.toNat
  let d1 := ((d.wrc F.DM_CFG_INTERVAL 0 y.interval.toNat).wrc F.DM_CFG_TMPEN 0 (b2n y.tmpen)).wrc F.DM_CFG_RESTOK 0 (b2n y.restok)
  let d2 := (d1.wrc F.DM_CFG_NMETER 0 (countBits 256 m)).wrc F.DM_CFG_RINGSZ 0 y.ringsz.toNat
  d2.each (List.range 8) (fun j d => d.wrc F.DM_MLIST_LIST j (bits m (32 * j) 32))

/-- The lifecycle request of an accepted yealm (R281). -/
def Dev.lifeRequest (d : Dev) (to_ : Nat) (key : List Byte) : Dev :=
  let slot := d.nextKeySlot.getD 0
  let d5 := { d with fuse := d.fuse.lifecycle to_ slot key }
  if to_ = 1 ∧ d.fuse.life = 0 then d5.ringOpen
  else
    let d6 := (d5.setMeters 0 0).wipeStart
    if to_ = 4 then d6.unseal else d6

/-- Acceptance: the configuration is loaded and SEALED set; then any lifecycle request, and a ring opens. -/
def Dev.acceptYealm (d : Dev) (y : SealedYealm) : Dev :=
  let d0 := { d.ringDrop with fuse := if y.sc.toNat = d.fuse.sealCount then d.fuse else d.fuse.blowTo y.sc.toNat }
  let d4 := (((d0.loadSlice y).wrc F.DM_STS_SEALED 0 1).wrc F.DM_STS_SUSP 0 0).dormerVotes true
  match y.request with
  | none => if d4.dormerLive then d4.ringOpen else d4.setMeters 0 0
  | some r => d4.lifeRequest r.val (sealedKey y)

/-- The loader passes a sealed yealm to the Dormer (R271). -/
def Dev.sealedYealm (d : Dev) (y : SealedYealm) : Dev :=
  if ! y.valid then (d.unseal).tamper 3
  else
    let c := d.refusal y
    if c = 0 then d.acceptYealm y else d.refuseYealm c

end Sys2Proof.Machine
end

