-- ==== Sys2Proof/Machine/Purlin.lean ====
section
/-! DEFINITION. Commands of the queue ports (R253 to R257 of spec/10_purlin_transactions.md). Requesters are
numbered 0 to 63 for regions, 64 + u for extraction points and 192 + u for insertion points. -/
namespace Sys2Proof.Machine

/-- ENQ. -/
def execEnq (requester : Fin 320) (port : Fin 4) (queue : Fin 16384) (data : List (BitVec 8)) (pte : List EccSeen) (s : State) :
    Host.Outcome State Fault Refusal :=
  .next (s.queueRequest { at_ := s.dev.now, op := 0, who := requester.val, port := port.val, tgt := queue.val, data := data, pte := pte })

/-- DEQ. -/
def execDeq (requester : Fin 320) (port : Fin 4) (grp : Bool) (tgt : Fin 16384) (pte seen : List EccSeen) (s : State) :
    Host.Outcome State Fault Refusal :=
  .next (s.queueRequest { at_ := s.dev.now, op := 1, who := requester.val, port := port.val, grp := grp, tgt := tgt.val, pte := pte, seen := seen })

/-- NOTIFY. -/
def execNotify (requester : Fin 320) (port : Fin 4) (grp : Bool) (tgt : Fin 16384) (s : State) : Host.Outcome State Fault Refusal :=
  .next (s.queueRequest { at_ := s.dev.now, op := 2, who := requester.val, port := port.val, grp := grp, tgt := tgt.val })

/-- STATUS. -/
def execQueueStatus (requester : Fin 320) (port : Fin 4) (queue : Fin 16384) (s : State) : Host.Outcome State Fault Refusal :=
  .next (s.queueRequest { at_ := s.dev.now, op := 3, who := requester.val, port := port.val, tgt := queue.val })

/-- QUEUE_SWEEP_DONE: `found` holds the entries in which the sweep's reads found an error (R252). -/
def execQueueSweepDone (queue : Fin 16384) (found : List (Fin 262144 × EccSeen)) (s : State) : Host.Outcome State Fault Refusal :=
  s.upd (fun d =>
    if d.rd F.PU_QSTS_KSTATE queue.val ≠ 5 then d
    else ((found.foldl (fun d e => d.sweepEntry queue.val e.1.val e.2) d).sweepDone queue.val).answerNotifies)

end Sys2Proof.Machine
end

