-- ==== Sys2Proof/Machine/Power.lean ====
section
/-! DEFINITION. Commands of the power controller (R321 to R338 of spec/14_power.md, R341 to R343 of
spec/15_boot_configuration.md). -/
namespace Sys2Proof.Machine

/-! ## Domains reaching a state -/

/-- A region's cells in its column: each row that the power policy lists for it or for a sharer of the column, unless quiet
(R324, R325). -/
def Dev.regionVotes (d : Dev) (r : Nat) : Dev :=
  match d.img.column.find? r with
  | none => d
  | some col =>
    let sharers := (d.img.column.filter (fun p => decide (p.2 = col) && ! (d.fbx p.1).quiet)).map (fun p => p.1)
    d.each (d.img.rows.at r []) (fun row d => d.vote col row (sharers.any (fun q => (d.img.rows.at q []).contains row)))

/-- The PLLs of a bay take the strapped profile's families on REFCLK_A (R30, Table 2.4). -/
def Dev.profilePlls (d : Dev) (bay : Nat) : Dev :=
  let p := profileRow (d.rd F.CF_STS_PROFILE)
  let one (d : Dev) (k fam : Nat) : Dev := if fam = 0 then d else d.retune (pllIx bay k) fam 0
  if bit d.boot.barePending bay then one (one d 0 p.fam0) 1 p.fam1 else d

/-- The load check of the context that a region has reloaded fails: LOAD_FAIL (Table 8.2). -/
def Dev.loadFailed (d : Dev) (r : Nat) : Dev :=
  if (List.range 8).any (fun k => d.on F.FB_SLOT_ACTIVE (8 * r + k)) then
    ((d.modFb r (fun x => { x with fault := true })).unitFault (0x080 + r) 1).wr0 F.CF_STS_FAULTS 1
  else d

/-- A region comes back: quiet and Fault end, its column votes, and from Off it reloads its context, whose load check passes or fails (R199,
R215, R325). -/
def Dev.regionRaised (d : Dev) (r was : Nat) (loadOk : Bool) : Dev :=
  let d1 := (d.modFb r (fun x => { x with quiet := false, fault := x.fault && decide (was ≠ 0) })).regionVotes r
  let d2 := if was ≠ 0 then d1 else if loadOk then d1.reloadContext r else (d1.reloadContext r).loadFailed r
  ((d2.showLimit r).regionRefresh r).admitWaiting

/-- A domain that is rising reaches On: AT with its PLL locked, or free-running where the reference is absent or refused, which TB_STS then
shows (R144, R145, log entry 83); a bay with its PLLs set up for the profile, their status following their references (R40). -/
def State.raise (s : State) (row : Nat) (loadOk : Bool) : State :=
  let was := s.dev.rd F.PW_DOM_STATE row
  let d1 := s.dev.domRaised row
  let d2 := if row = rowAT then (d1.wrc F.TB_STS_LOCK 0 (b2n d1.tbRefOk)).tbRefUpdate else d1
  let s1 : State := { s with dev := d2 }
  if row = rowM then
    (s1.on (fun d => (if d.dm.wipeDue then d.wipeStart else d).admitWaiting)).serveWaits
  else if row = rowC then
    s1.on (fun d => d.each (List.range 64) (fun r d => (d.setSel r (d.fbx r).sel).selStart r))
  else if 10 ≤ row ∧ row ≤ 73 then (s1.on (fun d => (d.regionRaised (row - 10) was loadOk).voltStep row)).serveWaits
  else if 1 ≤ row ∧ row ≤ 8 then s1.on (fun d => (((d.profilePlls (row - 1)).pllRefresh (pllIx (row - 1) 0)).pllRefresh (pllIx (row - 1) 1)).voltStep row)
  else s1

/-- Queue units show Disabled once Purlin's registers are lost. -/
def Dev.queuesLost (d : Dev) : Dev :=
  d.each ((List.range 4096).filter (fun id => decide (d.rd F.UD_IDENT_KIND id = 5))) (fun id d => d.publish id 0 3)

/-- A region's outputs are clamped to no request, and its slots' units report (R210, R215). -/
def Dev.regionClamp (d : Dev) (r : Nat) : Dev :=
  let d1 := (d.modMt (fun m => { m with waits := m.waits.filter (fun o => o.master ≠ r) })).modPu (fun u =>
    { u with waits := u.waits.filter (fun q => q.who ≠ r) })
  d1.each (List.range 8) (fun k d => d.slotRefresh r k)

/-- A domain that is entering reaches its idle state. Domain M in Off loses its bytes; domain D in Off unseals the Dormer
(R284). -/
def State.lower (s : State) (row : Nat) : State :=
  let off := (s.dev.dom row).toOff
  let d0 := if row = rowD ∧ off then s.dev.unseal else s.dev
  let d1 := d0.domLowered row off
  if row = rowM then { s with dev := if off then d1.queuesLost else d1, mem := if off then [] else s.mem }
  else if row = rowC then
    { s with dev := d1.each (List.range 64) (fun r d => d.setSel r (d.fbx r).sel) }
  else if 10 ≤ row ∧ row ≤ 73 then { s with dev := (d1.regionClamp (row - 10)).regionRefresh (row - 10) }
  else { s with dev := d1 }

/-! ## Power-up (Tables 14.6 and 15.2) -/

/-- POWER_GOOD: straps and eFuse are read, DEV votes PW_ACTSETj and the loader C and M, and the sequence starts (R341, R342). -/
def execPowerGood (bootSel : Fin 4) (profile : Fin 8) (addrSel : Fin 8) (s : State) : Host.Outcome State Fault Refusal :=
  s.upd (fun d =>
    if d.pw.good then d
    else
      let d1 := { d with now := 0, mg := { d.mg with ulWait := 1000000000 } }.modPw
        (fun p => { p with good := true, core := true, seq := some 1, fromOff := false })
      let d2 := (((d1.wr0 F.CF_STS_BOOT_SEL bootSel.val).wr0 F.CF_STS_PROFILE profile.val).wr0 F.CF_STS_ADDR_SEL addrSel.val).wr0
        F.MG_BUS_SA (0x58 + addrSel.val)
      let d3 := { d2 with boot := { d2.boot with barePending := if profile.val = 7 then 0 else 0xFF } }
      let d4 := d3.publish 0x0C0 2 (domHealth 2)
      ((if bootSel.val = 3 then d4.wr0 F.CF_STATUS_CODE 0x0C else d4).devVotes (d4.wantedVotes 1)).loaderVotes)

/-- A step of the sequence completes, and the domains that rise in it or in the next one follow. -/
def State.stepDone (s : State) (step : Nat) (up : List Nat) (next : Option Nat) (loadFailed : List (Fin 64) := []) : State :=
  let rising := up.filter (fun r => decide ((s.dev.dom r).phase = .exiting))
  let s1 := rising.foldl (fun s r => s.raise r (! loadFailed.any (fun x => decide (rowL x.val = r)))) s
  s1.on (fun d =>
    let d1 := (d.wr0 F.PW_STS_STEP step).modPw (fun p => { p with seq := next })
    (d1.each (List.range 77) (fun r d => d.domEval r)).transitionCheck)

/-- REG_RDY: the bays are On, their PLLs set up for the profile; R41 is judged unless REFCLK_A is still being identified. -/
def execRegRdy (s : State) : Host.Outcome State Fault Refusal :=
  .next (if s.dev.pw.seq = some 1 then
      (s.stepDone 1 [1, 2, 3, 4, 5, 6, 7, 8] (some 2)).on (fun d => if (d.ref 0).edges ∧ (d.ref 0).id = 0 then d else d.bareMismatch (d.ref 0).id)
    else s)

/-- The loader cannot run (R344): CF_STATUS reads NO_CORE. -/
def Dev.noCore (d : Dev) : Dev := if d.rd F.CF_STS_BOOT_SEL = 3 then d else d.loaderEnd 0x0E 0 0

/-- PLL_RDY: domains C and M begin to rise; without VDD_CORE they cannot (R344). -/
def execPllRdy (s : State) : Host.Outcome State Fault Refusal :=
  .next (if s.dev.pw.seq = some 2 then
      (s.stepDone 2 [] (some 3)).on (fun d => if d.pw.core then d else d.noCore)
    else s)

/-- LOGIC_RDY: the voted L domains and D are On, and the sequence ends; the regions whose contexts failed their load check are named. -/
def execLogicRdy (loadFailed : List (Fin 64)) (s : State) : Host.Outcome State Fault Refusal :=
  .next (if s.dev.pw.seq = some 4 then s.stepDone 4 (rowD :: (List.range 64).map rowL) none loadFailed else s)

/-- SEQ_TIMEOUT: the domain that was to rise goes to Fault (R332). -/
def execSeqTimeout (row : Fin 77) (s : State) : Host.Outcome State Fault Refusal :=
  s.upd (fun d =>
    let r := row.val
    if (d.dom r).phase ≠ .exiting then d
    else
      let d1 := ((d.supplyDown r false).modDom r (fun x => { x with phase := .settled, faultHold := true })).setDom r 3
      let d2 := (d1.unitFault (0x0C0 + r) 1).alert 0
      let d3 := if (r = rowM ∨ r = rowC) ∧ d2.pw.seq = some 3 then d2.noCore else d2
      (d3.domEval r).transitionCheck)

/-- RESET_N_LOW (R341). -/
def execResetNLow (s : State) : Host.Outcome State Fault Refusal :=
  .next (if s.dev.on F.MT_STS_WIPING then s.on (fun d => d.modPw (fun p => { p with resetDue := true })) else s.hardReset)

/-- TB_PLL_LOCK: a reference that the PLL accepts is present; a rising domain AT reaches On with it (R144 to R146). -/
def execTbPllLock (s : State) : Host.Outcome State Fault Refusal :=
  .next (if ! s.dev.tbRefOk then s
    else if (s.dev.dom rowAT).phase = .exiting then (s.raise rowAT true).on Dev.transitionCheck
    else if s.dev.domOn rowAT then
      s.on (fun d => { (d.wrc F.TB_STS_LOCK 0 1) with tb := { d.tb with holding := false } })
    else s)

/-! ## Domains, votes and device states -/

/-- DOMAIN_ENTRY_COMPLETE. -/
def execDomainEntryComplete (row : Fin 77) (s : State) : Host.Outcome State Fault Refusal :=
  .next (if (s.dev.dom row.val).phase = .entering then (s.lower row.val).on Dev.transitionCheck else s)

/-- DOMAIN_EXIT_COMPLETE, for a region from Off with what the load check of its context found. -/
def execDomainExitComplete (row : Fin 77) (loadOk : Bool) (s : State) : Host.Outcome State Fault Refusal :=
  .next (if (s.dev.dom row.val).phase = .exiting then (s.raise row.val loadOk).on Dev.transitionCheck else s)

/-- The host's cells in column 1 (Table 14.21). -/
def Dev.hostVotes (d : Dev) (j w : Nat) : Dev :=
  let d1 := d.wr F.PW_HVOTE_ROWS j w
  (d1.each (List.range 32) (fun b d => d.vote 1 (32 * j + b) (bit w b))).transitionCheck

/-- HOST_VOTE_WRITE. -/
def execHostVoteWrite (j : Fin 4) (data : BitVec 32) (s : State) : Host.Outcome State Fault Refusal :=
  s.upd (fun d => d.hostVotes j.val data.toNat)

/-- A write of PW_ACTSETj: in Active, DEV votes the rows that it names. -/
def Dev.actsetWrite (d : Dev) (j w : Nat) : Dev :=
  let d1 := d.wr F.PW_ACTSET_ROWS j w
  if d1.on F.PW_STS_BUSY ∨ d1.rd F.PW_STS_DEV ≠ 1 ∨ ! d1.pw.good then d1
  else d1.devVotes (maskOf (rowsOf (d1.rowSet F.PW_ACTSET_ROWS)))

/-- A region is quiet: FB_STS.OUTST is 0, every queue port operation of its has been answered, and no inbound gutter word waits (R210,
R325). -/
def Dev.isQuiet (d : Dev) (r : Nat) : Bool :=
  decide (d.rd F.FB_STS_OUTST r = 0) && ! d.pu.notifies.any (fun n => decide (n.who = r)) && (List.range 128).all (fun l => decide (d.gutRegion l ≠ some r) || (d.gutter l).inb.isEmpty)

/-- REGION_QUIET: a region under a quiesce request withdraws its column. -/
def execRegionQuiet (region : Fin 64) (s : State) : Host.Outcome State Fault Refusal :=
  s.upd (fun d =>
    let r := region.val
    let asked := (d.img.rows.at r []).any (fun row => bit d.pw.quiesce row)
    if asked ∧ d.isQuiet r then ((d.modFb r (fun x => { x with quiet := true })).regionVotes r).transitionCheck else d)

/-- HOLDREP_EXPIRY: PW_HOLDREP after DEV withdrew (R328). -/
def execHoldrepExpiry (s : State) : Host.Outcome State Fault Refusal :=
  s.upd (fun d => if d.pw.holdrep ∧ d.on F.PW_STS_BUSY then (d.modPw (fun p => { p with repDone := true })).transitionCheck else d)

/-- WAKE_N_LOW. -/
def execWakeNLow (s : State) : Host.Outcome State Fault Refusal :=
  s.upd (fun d => if d.on F.PW_WAKEEN_WAKEN then d.wake 2 0 0 else d)

/-- An Eaves timer reaches 0 and stops (Table 14.22). -/
def Dev.etimFire (d : Dev) (k : Nat) : Dev :=
  let d1 := ((d.wr F.PW_ETIM_CNT_CNT k 0).wr F.PW_ETIM_CTL_FIRED k 1).modPw (fun p => { p with etim := p.etim.del k })
  if d1.on F.PW_ETIM_CTL_WAKE k then d1.wake 4 0 k else d1

/-- EAVES_TIMER_EXPIRY. -/
def execEavesTimerExpiry (k : Fin 4) (s : State) : Host.Outcome State Fault Refusal :=
  s.upd (fun d => if d.on F.PW_ETIM_CTL_EN k.val ∧ d.on F.PW_ETIM_CNT_CNT k.val then d.etimFire k.val else d)

/-- Release pad groups (R337). -/
def Dev.padRelease (d : Dev) (groups : Nat) : Dev :=
  let h := d.rd F.PW_PADREL_HELD
  d.wrc F.PW_PADREL_HELD 0 ((List.range 4).foldl (fun m g => if bit h g && ! bit groups g then m + 2 ^ g else m) 0)

/-- PAD_RELEASE. -/
def execPadRelease (groups : BitVec 4) (s : State) : Host.Outcome State Fault Refusal :=
  s.upd (fun d => d.padRelease groups.toNat)

/-- REQ_ACTIVE. -/
def execReqActive (s : State) : Host.Outcome State Fault Refusal := s.upd (fun d => d.request 1)

/-- REQ_NAP. -/
def execReqNap (s : State) : Host.Outcome State Fault Refusal := s.upd (fun d => d.request 2)

/-- REQ_REST. -/
def execReqRest (s : State) : Host.Outcome State Fault Refusal := s.upd (fun d => d.request 3)

/-- REQ_REST_WITH_TIMEKEEPING. -/
def execReqRestWithTimekeeping (s : State) : Host.Outcome State Fault Refusal := s.upd (fun d => d.request 4)

/-- REQ_OFF. -/
def execReqOff (s : State) : Host.Outcome State Fault Refusal := s.upd (fun d => d.request 5)

end Sys2Proof.Machine
end

