-- ==== Sys2Proof/Machine/Boot.lean ====
section
/-! DEFINITION. The configuration loader: flash and bus loads, checks, application of an image, recovery and key commands
(R343 to R358 of spec/15_boot_configuration.md), and the loss of VDD_CORE (R389 of spec/18_electrical_package.md). -/
namespace Sys2Proof.Machine

def Dev.modBoot (d : Dev) (g : BootX → BootX) : Dev := { d with boot := g d.boot }

/-! ## A load begins, and an image fails (R343, R346, R351) -/

/-- The image under way fails: its result is recorded, and the other flash image is tried if BOOT_SEL names one not yet
tried. -/
def Dev.imageFail (d : Dev) (code yealm item : Nat) : Dev :=
  let d1 := d.imageResult code yealm
  match d1.boot.next with
  | n :: rest => d1.modBoot (fun b => { b with image := n, next := rest, header := none, yealms := [], offset := 512 })
  | [] => d1.loaderEnd code yealm item

/-- A load begins: its keys are those in eFuse now. -/
def Dev.loadStart (d : Dev) (image : Nat) (next : List Nat) : Dev :=
  (d.wrc F.CF_STS_LOADING 0 1).modBoot (fun b =>
    { b with image := image, next := next, header := none, yealms := [], offset := 512, rcv := [], stream := [], applying := false
             keys := d.fuse.imgKeys, revoked := d.fuse.imgRevoked })

/-- A load over the management bus (R356). -/
def Dev.busLoad (d : Dev) : Dev := ((d.loadStart 3 []).wrc F.CF_RCV_STS_ACTIVE 0 1).wrc F.CF_RCV_CNT_COUNT 0 0

/-- A flash that the loader can use (R346): a supported mode and at least 512 Mbit. -/
def flashUsable (f : FlashFound) : Bool := decide (f.mode.val = 1 ∨ f.mode.val = 2) && decide (26 ≤ f.density.toNat)

/-- The flash images in the BOOT_SEL order (Table 15.1). -/
def Dev.flashOrder (d : Dev) : Nat × Nat := if d.rd F.CF_STS_BOOT_SEL = 1 then (2, 1) else (1, 2)

/-- Step 5 of Table 15.2. In a wake from Off the loader releases the flash pads as it starts to read (Table 14.9). -/
def Dev.flashLoad (d : Dev) (flash : Option FlashFound) : Dev :=
  let o := d.flashOrder
  let d1 := d.loadStart o.1 [o.2]
  let d2 := if d1.pw.fromOff then d1.padRelease 4 else d1
  match flash.filter flashUsable with
  | none => (d2.imageFail 1 0 0).imageFail 1 0 0
  | some f => ((d2.wrc F.CF_FLASH_MODE 0 f.mode.val).wrc F.CF_FLASH_FREQ 0 f.freq.toNat).wrc F.CF_FLASH_DENSITY 0 f.density.toNat

/-- The loader starts in the way that BOOT_SEL names. -/
def Dev.loaderStart (d : Dev) (flash : Option FlashFound) : Dev :=
  match d.rd F.CF_STS_BOOT_SEL with
  | 3 => d.wrc F.CF_STATUS_CODE 0 0x0C
  | 2 => d.busLoad
  | _ => d.flashLoad flash

/-- MEM_RDY: domains C and M are On with their hard repairs, and the loader starts. -/
def execMemRdy (flash : Option FlashFound) (s : State) : Host.Outcome State Fault Refusal :=
  .next (if s.dev.pw.seq = some 3 ∧ s.dev.pw.core then (s.stepDone 3 [rowM, rowC] (some 4)).on (fun d => d.loaderStart flash) else s)

/-- What a domain of Tiers L, C and M is that VDD_CORE takes down at once. -/
def State.coreRow (s : State) (row : Nat) : State :=
  if s.dev.rd F.PW_DOM_STATE row = 0 then
    s.on (fun d => (d.modDom row (fun x => { x with phase := .settled, toOff := false })).wrc F.PW_DOM_TRANS row 0)
  else (s.on (fun d => d.modDom row (fun x => { x with toOff := true }))).lower row

/-- VDD_CORE_FAIL (R389). -/
def execVddCoreFail (s : State) : Host.Outcome State Fault Refusal :=
  let s1 := s.on (fun d => d.modPw (fun p => { p with core := false }))
  let s2 := s1.each ((List.range 67).map (· + 10)) (fun r s => s.coreRow r)
  .next (s2.on (fun d =>
    let d1 := d.wrc F.CF_STS_FULL 0 0
    (if d1.on F.CF_STS_LOADING then d1.noCore else d1).transitionCheck))

/-- FLASH_IO_TIMEOUT: no data from the flash within 10 µs (R346). -/
def execFlashIoTimeout (flashByte : BitVec 32) (s : State) : Host.Outcome State Fault Refusal :=
  s.upd (fun d =>
    if d.on F.CF_STS_LOADING ∧ ! d.boot.applying ∧ (d.boot.image = 1 ∨ d.boot.image = 2) then
      d.imageFail 0x0B d.boot.yealms.length flashByte.toNat
    else d)

/-! ## Reading and checking (R347 to R350) -/

/-- What the image under way may take: its flash half; a bus load has no half. -/
def Dev.imageRoom (d : Dev) : Nat := if d.boot.image = 3 then 2 ^ 32 else 2 ^ (d.rd F.CF_FLASH_DENSITY - 1)

/-- A little-endian field of `n` bytes at byte `lo` (R8). -/
def leAt (bs : List Byte) (lo n : Nat) : Nat := natLE ((bs.drop lo).take n)

/-- The header read from the image's first 512 bytes (Table 15.4). -/
def readHeader (bs : List Byte) : ImageHeader :=
  { magic := BitVec.ofNat 32 (leAt bs 0 4), format := BitVec.ofNat 16 (leAt bs 4 2), hdrlen := BitVec.ofNat 16 (leAt bs 6 2)
    part := BitVec.ofNat 32 (leAt bs 8 4), imglen := BitVec.ofNat 32 (leAt bs 12 4), nyealm := BitVec.ofNat 16 (leAt bs 16 2)
    sigofs := BitVec.ofNat 32 (leAt bs 20 4), build := BitVec.ofNat 64 (leAt bs 24 8), version := BitVec.ofNat 32 (leAt bs 32 4)
    crcOk := decide (leAt bs 508 4 = crc32c (bs.take 508)) }

/-- A yealm read from its bytes (Table 15.5).  With Z = 0 the payload is its own decompression, which fails where ULEN is not LEN. -/
def readYealm (y : YealmBytes) : Yealm :=
  let len := leAt y.head 4 4
  let ulen := leAt y.head 8 4
  { ty := BitVec.ofNat 8 (leAt y.head 0 1), inst := BitVec.ofNat 16 (leAt y.head 2 2), len := BitVec.ofNat 32 len
    ulen := BitVec.ofNat 32 ulen, crcOk := decide (leAt y.head 12 4 = crc32c (y.payload.take len))
    decomp := if bit (leAt y.head 1 1) 0 then y.decomp else if ulen = len then none else some len
    settings := y.settings }

/-- The signature block read from its bytes (Table 15.7). -/
def readSig (g : SigBytes) : SigBlock := { alg := BitVec.ofNat 16 (leAt g.bytes 0 2), keyHash := g.keyHash, verifies := g.verifies }

/-- The bytes of a bus load that the loader can read now, in the order in which the host wrote them (R356). -/
def BootX.received (b : BootX) : List Byte := b.stream ++ b.rcv.flatMap (fun w => bytesLE w 4)

/-- Where the image comes from: a bus load's bytes are those received, whatever flash holds (R356). -/
def BootX.headerBytes (b : BootX) (flash : List Byte) : List Byte := if b.image = 3 then b.received.take 512 else flash

/-- Bytes of the image that the next yealm stands behind: the header, before the first. -/
def BootX.lead (b : BootX) : Nat := if b.header.isNone then 512 else 0

/-- The next yealm's bytes, from flash or from those received. -/
def BootX.yealmBytes (b : BootX) (flash : YealmBytes) : YealmBytes :=
  if b.image = 3 then
    let r := b.received.drop b.lead
    { flash with head := r.take 16, payload := (r.drop 16).take (leAt r 4 4) }
  else flash

/-- A bus load has not yet given `n` bytes. -/
def BootX.short (b : BootX) (n : Nat) : Bool := decide (b.image = 3) && decide (b.received.length < n)

/-- `n` bytes of a bus load have been read. -/
def BootX.consume (b : BootX) (n : Nat) : BootX :=
  { b with rcv := [], stream := if b.image = 3 then b.received.drop n else [] }

/-- YEALM_READ: the next yealm has been read, and before the first the header; of a bus load, once its bytes are there. -/
def execYealmRead (header : List Byte) (yealm : YealmBytes) (s : State) : Host.Outcome State Fault Refusal :=
  s.upd (fun d =>
    if ! d.on F.CF_STS_LOADING ∨ d.boot.applying ∨ d.boot.image = 0 then d
    else
      let h := d.boot.header.getD (readHeader (d.boot.headerBytes header))
      let y := readYealm (d.boot.yealmBytes yealm)
      let hc := headerCode h d.imageRoom
      let yc := yealmCode d.boot.yealms y
      if d.boot.short d.boot.lead then d
      else if d.boot.header.isNone ∧ hc.1 ≠ 0 then d.imageFail hc.1 0 hc.2
      else if d.boot.short (d.boot.lead + yealmSize y) then d
      else if yc.1 ≠ 0 then d.imageFail yc.1 d.boot.yealms.length yc.2
      else d.modBoot (fun b =>
        { b.consume (b.lead + yealmSize y) with header := some h, yealms := b.yealms ++ [y], offset := b.offset + yealmSize y }))

/-- Bytes go to Tier M through master 68, whole words of them replacing what was poisoned, after what is pending on them. -/
def State.stageBytes (s0 : State) (a : Nat) (bs : List Byte) : State :=
  let hit := (s0.dev.mt.ops.filter (fun o => o.atBank)).filterMap (fun o => o.words.find? (fun w => decide (a ≤ w ∧ w < a + bs.length)))
  let s := hit.foldl (fun s w => s.meetWord w 68 (sparNumber 68 0) true .clean) s0
  { s with dev := s.dev.modMt (fun m => { m with bad := m.bad.filter (fun p => ! decide (a ≤ p.1 ∧ p.1 < a + bs.length)) })
           mem := Memory.write s.mem a bs }

/-- The context store and the classifier table are staged in Tier M at the addresses that the image names (R350). -/
def State.stageImage (s : State) (ys : List Yealm) : State :=
  let img := imageAlone ys
  if ! s.dev.domOn rowM then s
  else ys.foldl (fun s y => y.settings.foldl (fun s e =>
    match e with
    | .paged p image .. => s.stageBytes (img.img.ctxBase + countBits p.val img.img.paged * 0x80000) (image.take 0x80000)
    | .entry i bytes => s.stageBytes (img.rd F.TS_CLS_BASE_BASE * 0x200000 + 32 * i.val) (bytes.take 32)
    | _ => s) s) s

/-! ## Application (R353, Table 15.6) -/

/-- A register's word from the image. It counts as a write of every transaction that has staged the register (R353). -/
def Dev.imageWord (d : Dev) (a w : Nat) : Dev :=
  match d.regAt (a / 4 * 4) with
  | none => d
  | some (r, i) =>
    let d0 := { d with watched := d.watchHit r i }
    match r with
    | .PW_DOM => d0.pwDomWrite i w
    | .PW_ACTSET => d0.actsetWrite i w
    | .PW_HVOTE => d0.hostVotes i w
    | .TS_CTL => d0.tsCtlWrite w
    | .TS_LREF_CTL => d0.lrefWrite i w
    | .TB_CTL => ((d0.wr0 F.TB_CTL_OWNER (bits w 0 1)).tbRefSelect (bits w 1 2)).engEval
    | .MT_CTL => d0.loaderWord r i (w - w % 2 + d0.rd F.MT_CTL_COMPAT)
    | .PU_QCFG => (d0.loaderWord r i w).setQueue i (if bit w 0 then 2 else 1)
    | _ => d0.loaderWord r i w

/-- One setting of a yealm. Course entries are applied last, and the sealed yealm on its own. -/
def Dev.applySetting (d : Dev) (e : Setting) : Dev :=
  match e with
  | .word a w => d.imageWord a.toNat w.toNat
  | .pll bay n fam ref ndiv =>
    d.modBoot (fun b => { b with plls := b.plls.put (pllIx bay.val n.val) { family := fam.val, refsel := b2n ref, ndiv := ndiv.toNat } })
  | .course .. => d
  | .context r k storage sig cells =>
    let u := ctxUnit r.val ⟨false, k.val⟩
    let d1 := { d with img := { d.img with init := d.img.init.put u storage, sigs := d.img.sigs.put u (sig.toNat, cells) } }
    ((d1.wrc F.FB_SLOT_KIND (8 * r.val + k.val) 1).modFb r.val (fun x => { x with shadow := x.shadow.put k.val storage })).ctxRefresh r.val ⟨false, k.val⟩
  | .paged p _ storage sig cells =>
    let u := ctxUnit 0 ⟨true, p.val⟩
    let d1 := { d with img := { d.img with
      init := d.img.init.put u storage, sigs := d.img.sigs.put u (sig.toNat, cells)
      paged := if bit d.img.paged p.val then d.img.paged else d.img.paged + 2 ^ p.val } }
    d1.ctxRefresh 0 ⟨true, p.val⟩
  | .store page => { d with img := { d.img with ctxBase := page.val * 512 } }
  | .entry .. => d
  | .column r col rows =>
    ({ d with img := { d.img with column := d.img.column.put r.val col.val, rows := d.img.rows.put r.val (rows.map (fun (x : Fin 127) => x.val)) } }).regionVotes r.val
  | .claim .. => d
  | .trim kind target param ws =>
    let l := ws.map (fun w => w.toNat)
    if calRangeOk kind.val target.val param.val then d.calApply kind.val target.val param.val l else d
  | .dormer y => d.sealedYealm y

/-- COMPAT of the Purlin setup, the one yealm that sets it (R236): at once, or when what was admitted before has completed. -/
def Dev.compatSetup (d : Dev) (y : Yealm) : Dev :=
  if y.ty.toNat ≠ 6 then d
  else
    let words := y.settings.filterMap (fun e => match e with
      | .word a w => if (d.regAt (a.toNat / 4 * 4)).any (fun r => decide (r.1 = .MT_CTL)) then some w.toNat else none
      | _ => none)
    match words.getLast? with
    | none => d
    | some w =>
      if d.mt.ops.any (fun o => ! o.denied && ! o.badReq) then
        (d.modMt (fun m => { m with compat := bit w 0, compatSeq := m.nextSeq })).wrc F.MT_STS_COMPAT_PEND 0 (b2n (decide (b2n (bit w 0) ≠ d.rd F.MT_CTL_COMPAT)))
      else (d.wrc F.MT_CTL_COMPAT 0 (b2n (bit w 0))).modMt (fun m => { m with compat := bit w 0 })

/-- The yealms of one order, in index order. -/
def Dev.applyOrder (d : Dev) (ys : List Yealm) (order : Nat) : Dev :=
  (ys.filter (fun y => (yealmRow y.ty.toNat).any (fun r => decide (r.order = order)))).foldl (fun d y => (y.settings.foldl Dev.applySetting d).compatSetup y) d

/-- Before the unit descriptors: the settings of every descriptor go back to ROM's (R27). -/
def Dev.romUnits (d : Dev) : Dev :=
  { d with regs := d.regs.filter (fun p =>
      ! decide (p.1.reg = .UD_IDENT ∨ p.1.reg = .UD_LINKS ∨ p.1.reg = .UD_INDEX ∨ p.1.reg = .UD_VOTE
        ∨ (p.1.reg = .UD_STATE ∧ (p.1.lo = 8 ∨ p.1.lo = 16)))) }

/-- After the Purlin setup: reserved pages, pool and free-page list (R250, R251). -/
def Dev.applyPool (d : Dev) : Dev :=
  let resv := d.reservedRuns
  let free := gapRuns resv 0 262144
  ((d.modPu (fun u => { u with resv := resv, free := free, ptes := [] })).wrc F.PU_POOL_POOL 0 (freeCount free)).showFree

/-- The fabric step: each region with a context is switched to On and its initial selection starts; in Course mode that is the
context that the region's course names in the image's course table (R353). FLOOR follows the image's courses (R201). -/
def Dev.applyRegion (d : Dev) (ys : List Yealm) (r : Nat) : Dev :=
  let frames := d.rd F.FB_CFG_FRAMES r
  let d1 := d.each ((List.range 8).filter (fun k => bit frames k)) (fun k d => (d.wrc F.FB_SLOT_KIND (8 * r + k) 2).ctxRefresh r ⟨false, k⟩)
  let d2 := d1.wrc F.FB_PACE_FLOOR r ((imageAlone ys).paceFloor r)
  let has := decide (frames ≠ 0) || (List.range 8).any (fun k => decide (d2.rd F.FB_SLOT_KIND (8 * r + k) = 1))
  if ! has then d2
  else
    let c : Ctx :=
      if d2.rd F.FB_CFG_SELMODE r = 1 then
        match (imageCourses ys).find? (fun e => decide (e.1 = d2.rd F.FB_CFG_COURSE r)) with
        | some e => ⟨bit e.2.ctx 14, bits e.2.ctx 8 6⟩
        | none => d2.selected r
      else d2.selected r
    (d2.vote 2 (rowL r) true).select r c none false

/-- The timing setup is applied: the timebase enters Fine, with the image's calibration values or the factory's (R153, R286). -/
def Dev.applyTiming (d : Dev) (ys : List Yealm) : Dev :=
  if ! ys.any (fun y => decide (y.ty.toNat = 9)) then d
  else ((d.wrc F.TB_STS_MODE 0 1).wrc F.TB_STS_CALSRC 0 (b2n (ys.any (fun y => decide (y.ty.toNat = 8))))).engEval

/-- The course table (R354): entries of courses that a ROM profile formed wait for their boundaries, the others are written at
once. A course that the image does not name takes an empty entry. -/
def Dev.applyCourses (d : Dev) (ys : List Yealm) : Dev :=
  let table := imageCourses ys
  let all := (List.range 512).filter (fun n => table.any (fun e => decide (e.1 = n)) || d.usedCourses.contains n || d.boot.formed.contains n)
  let entry (n : Nat) : CourseImage := ((table.find? (fun e => decide (e.1 = n))).map (fun e => e.2)).getD {}
  let d0 := d.each (List.range 8) (fun b d =>
    if table.any (fun e => decide (bits (e.2.lanes0 + e.2.lanes1 * 2 ^ 32) (8 * b) 8 ≠ 0)) then d.vote 2 (rowA b) true else d)
  let d1 := d0.each all (fun n d =>
    if d.boot.formed.contains n then d.modBoot (fun b => { b with hand := b.hand.put n (entry n) })
    else (d.courseImageWrite n (entry n)).courseEval n)
  let d2 := d1.modBoot (fun b => { b with applying := true })
  let d3 := d2.each (d2.boot.formed.filter (fun n => ! d2.inService n)) (fun n d => d.courseHandover n)
  (d3.imagePlls).fullService

/-- The classifier entries that a service's yealm installs for the courses bound to it, in both directions (R195, R196): a PTP port service
extracts untagged frames of type 0x88F7 to either of its addresses, an ESMC service those of type 0x8809 with first octet 0x0A. -/
def Dev.svcEntries (d : Dev) (k : Nat) (ys : List Yealm) : List (List Byte) :=
  let bound (n ctx : Nat) : Bool :=
    let u := bits ctx 16 12
    decide (u ≠ 0 ∧ d.rd F.UD_IDENT_KIND u = 9 ∧ d.rd F.UD_INDEX_INDEX u = k)
      && decide (n < 512)
  let ports := ((imageCourses ys).filter (fun e => bound e.1 e.2.ctx)).flatMap (fun e =>
    let below := (List.range 512).filter (fun m => decide (d.rd F.UD_IDENT_PARENT (0x200 + m) = 0x200 + e.1))
    if below.isEmpty then [e.1] else below)
  let q := (Config.serviceQueue k).toNat
  let entry (profile dir n mac ty : Nat) (tail : List Byte) : List Byte :=
    let key := [BitVec.ofNat 8 (profile + 4 * dir + 128)] ++ bytesLE n 2 ++ bytesBE mac 6 ++ bytesBE ty 2 ++ bytesBE 0xFFF 2 ++ tail
    key ++ List.replicate (24 - key.length) 0 ++ [1, 0] ++ bytesLE q 2 ++ [0, 0, 0, 0]
  let both (profile mac ty : Nat) (tail : List Byte) : List (List Byte) := ports.flatMap (fun n => [entry profile 0 n mac ty tail, entry profile 1 n mac ty tail])
  match d.rd F.TS_SVC_STS_KIND k with
  | 1 => both 0 0x011B19000000 0x88F7 [] ++ both 0 0x0180C200000E 0x88F7 []
  | 2 => both 1 0x0180C2000002 0x8809 [0x0A]
  | _ => []

/-- The yealms of the image's services install their entries (R195, R196). -/
def State.installEntries (s : State) (ys : List Yealm) : State :=
  if ! s.dev.on F.TS_CLS_BASE_EN ∨ ! s.dev.domOn rowM then s
  else
    let t := ((List.range 8).flatMap (fun k => s.dev.svcEntries k ys)).foldl (fun s e => s.clsRun { op := 1, replace := true, entry := e } []) s
    -- a host's own command goes on
    t.on (fun d => { d with cls := s.dev.cls }.wrc F.TS_CLS_STS_BUSY 0 (s.dev.rd F.TS_CLS_STS_BUSY) |>.wrc F.TS_CLS_STS_RESULT 0 (s.dev.rd F.TS_CLS_STS_RESULT))

/-- An image without a sealed yealm leaves the Dormer unsealed, with REFUSE 6 (Table 11.9). -/
def Dev.noSealed (d : Dev) (ys : List Yealm) : Dev := if ys.any (fun y => decide (y.ty.toNat = 0x0B)) then d else d.refuseYealm 6

/-- Step 9: the image's header shows, and its yealms apply in the order of Table 15.6. -/
def State.applyImage (s : State) (h : ImageHeader) (ys : List Yealm) : State :=
  let s1 := s.on (fun d =>
    let d1 := ((d.wrc F.CF_BUILD_LO_V 0 (h.build.toNat % 2 ^ 32)).wrc F.CF_BUILD_HI_V 0 (h.build.toNat / 2 ^ 32)).wrc F.CF_VERSION_V 0 h.version.toNat
    let d2 := ((({ d1 with img := {} }).applyOrder ys 1).romUnits.applyOrder ys 2).applyOrder ys 3
    let d3 := ((d2.applyOrder ys 4).applyOrder ys 5)
    let d4 := (d3.applyOrder ys 6).applyPool
    (d4.each (List.range 64) (fun r d => d.applyRegion ys r)))
  let s2 := if ys.any (fun y => decide (y.ty.toNat = 7)) then s1.clsRecount else s1
  (s2.on (fun d => ((((d.applyOrder ys 7).applyOrder ys 8).applyOrder ys 9).applyTiming ys |>.applyOrder ys 10).noSealed ys |>.applyCourses ys)).installEntries ys

/-- IMAGE_LAST_BYTE: the end of the yealms, the signature and the rules of step 8 are checked, and the image applies. -/
def execImageLastByte (sig : SigBytes) (s : State) : Host.Outcome State Fault Refusal :=
  .next (
    match s.dev.boot.header with
    | none => s
    | some h =>
      if ! s.dev.on F.CF_STS_LOADING ∨ s.dev.boot.applying ∨ s.dev.boot.short 256 then s
      else
        let ys := s.dev.boot.yealms
        let ec := endCode h ys s.dev.boot.offset
        let sc := s.dev.boot.sigCode (readSig (if s.dev.boot.image = 3 then { sig with bytes := s.dev.boot.received.take 256 } else sig))
        if ec.1 ≠ 0 then s.on (fun d => d.imageFail ec.1 (if ec.1 = 5 then ys.length else 0) ec.2)
        else
          let s1 := s.stageImage ys
          if sc.1 ≠ 0 then s1.on (fun d => d.imageFail sc.1 0 sc.2)
          else
            let s2 := s1.on (fun d => d.wrc F.CF_STS_DEVKEY 0 (b2n d.boot.keys.isEmpty))
            match ruleBroken ys with
            | some (code, yealm, item) => s2.on (fun d => d.imageFail code yealm item)
            | none => (s2.on (fun d => d.wrc F.CF_RCV_STS_ACTIVE 0 0)).applyImage h ys)

/-- HANDOVER_DEADLINE: 1 ms after step 9, entries still waiting take effect (R354). -/
def execHandoverDeadline (s : State) : Host.Outcome State Fault Refusal :=
  s.upd (fun d => if d.boot.applying then d.each (d.boot.hand.map (fun p => p.1)) (fun n d => d.courseHandover n) else d)

/-! ## Loader commands (R356 to R358) -/

def Dev.cfResult (d : Dev) (v : Nat) : Dev := d.wr0 F.CF_CMDSTS_RESULT v

/-- A loader command may start a load: none runs and Full Service is not reached (R356, R357). -/
def Dev.loadFree (d : Dev) : Bool := ! d.on F.CF_STS_LOADING && ! d.on F.CF_STS_FULL

/-- The loader can run: domains C and M are On (R344). -/
def Dev.loaderCan (d : Dev) : Bool := d.domOn rowC && d.domOn rowM

/-- RELOAD. -/
def Dev.cfReload (d : Dev) (flash : Option FlashFound) : Dev :=
  if ! d.loadFree then d.cfResult 1
  else
    let d1 := (d.each [0, 1] (fun k d => (d.wrc F.CF_RES_CODE k 0x0D).wrc F.CF_RES_YEALM k 0)).cfResult 0
    if d1.rd F.CF_STS_BOOT_SEL ≠ 3 ∧ ! d1.loaderCan then d1.noCore else d1.loaderVotes.loaderStart flash

/-- RECOVER. -/
def Dev.cfRecover (d : Dev) : Dev :=
  if ! d.loadFree then d.cfResult 1
  else
    let d1 := d.cfResult 0
    if ! d1.loaderCan then d1.loaderEnd 0x0E 0 0 else ((d1.vote 2 rowC true).vote 2 rowM true).busLoad

/-- The hash staged in CF_KEYH0 to CF_KEYH11, least significant word first. -/
def Dev.stagedKey (d : Dev) : Nat := (List.range 12).foldl (fun a j => a + d.rd F.CF_KEYH_HASH j * 2 ^ (32 * j)) 0

/-- KEYPROG (3) and KEYREVOKE (4). -/
def Dev.cfKey (d : Dev) (op slot : Nat) : Dev :=
  if d.ulState ≠ 2 then d.cfResult 2
  else if d.on F.CF_CMDSTS_BUSY ∨ ! d.domOn rowC then d.cfResult 1
  else if op = 3 ∧ ((d.fuse.imgKeys.find? slot).isSome ∨ bit d.fuse.imgRevoked slot) then d.cfResult 3
  else (d.wr0 F.CF_CMDSTS_BUSY 1).modBoot (fun b => { b with key := some (op, slot, d.stagedKey) })

/-- RCVABORT: the host abandons a bus load. -/
def Dev.cfAbort (d : Dev) : Dev :=
  if d.on F.CF_RCV_STS_ACTIVE then (d.cfResult 0).imageFail 0x20 0 (d.rd F.CF_RCV_CNT_COUNT) else d.cfResult 1

/-- Four bytes of a bus load; with no space left they are discarded and the load ends (R356). -/
def Dev.rcvWrite (d : Dev) (w : Nat) : Dev :=
  if ! d.on F.CF_RCV_STS_ACTIVE then d
  else if 1024 ≤ d.boot.rcv.length then d.imageFail 0x21 0 (d.rd F.CF_RCV_CNT_COUNT)
  else (d.modBoot (fun b => { b with rcv := b.rcv ++ [w] })).wr0 F.CF_RCV_CNT_COUNT (d.rd F.CF_RCV_CNT_COUNT + 4)

/-- RELOAD. -/
def execReload (flash : Option FlashFound) (s : State) : Host.Outcome State Fault Refusal := s.upd (fun d => d.cfReload flash)

/-- RECOVER. -/
def execRecover (s : State) : Host.Outcome State Fault Refusal := s.upd Dev.cfRecover

/-- KEYPROG. -/
def execKeyprog (slot : Fin 4) (s : State) : Host.Outcome State Fault Refusal := s.upd (fun d => d.cfKey 3 slot.val)

/-- KEYREVOKE. -/
def execKeyrevoke (slot : Fin 4) (s : State) : Host.Outcome State Fault Refusal := s.upd (fun d => d.cfKey 4 slot.val)

/-- RCVABORT. -/
def execRcvabort (s : State) : Host.Outcome State Fault Refusal := s.upd Dev.cfAbort

/-- RECOVERY_DATA_WRITE. -/
def execRecoveryDataWrite (data : BitVec 32) (s : State) : Host.Outcome State Fault Refusal := s.upd (fun d => d.rcvWrite data.toNat)

/-- An image key command ends: the slot, or its revoke bit, is blown. -/
def Dev.cfKeyDone (d : Dev) : Dev :=
  match d.boot.key with
  | none => d
  | some (op, slot, hash) =>
    let f := if op = 3 then { d.fuse with imgKeys := d.fuse.imgKeys.put slot hash }
             else { d.fuse with imgRevoked := if bit d.fuse.imgRevoked slot then d.fuse.imgRevoked else d.fuse.imgRevoked + 2 ^ slot }
    ((({ d with fuse := f }).modBoot (fun b => { b with key := none })).wr0 F.CF_CMDSTS_BUSY 0).cfResult 0

/-- GKEYPROG ends: K_GATE holds the staged key, and the staging registers are cleared (R378). -/
def Dev.gateKeyDone (d : Dev) : Dev :=
  if ! d.mg.gkey then d
  else
    let key := ((List.range 8).map (fun j => bytesLE (d.rd F.TG_UL_GKEY_KEY j) 4)).flatten
    let d1 := { d with fuse := { d.fuse with kGate := key }, mg := { d.mg with gkey := false } }
    ((d1.each (List.range 8) (fun j d => d.wrc F.TG_UL_GKEY_KEY j 0)).wr0 F.TG_UL_STS_BUSY 0).wr0 F.TG_UL_STS_RESULT 0

/-- KEY_PROGRAMMING_DONE: 20 ms after KEYPROG, KEYREVOKE or GKEYPROG (R358, R378). -/
def execKeyProgrammingDone (s : State) : Host.Outcome State Fault Refusal := s.upd (fun d => d.cfKeyDone.gateKeyDone)

end Sys2Proof.Machine
end

