-- ==== Sys2Proof/Machine/RegWrite.lean ====
section
/-! DEFINITION. Writes of RW fields: what each register's own rules make of a word (R7 of spec/01_architecture.md and the
chapters that own the registers). Host writes and committed transactions both come here. -/
namespace Sys2Proof.Machine

/-- A word goes into the RW fields of its register. -/
def Dev.rwFields (d : Dev) (r : Reg) (i w : Nat) : Dev :=
  (r.fields.filter (fun f => decide (f.acc = .RW))).foldl (fun d f => d.wr f i (bits w f.lo f.w)) d

/-- Bits of an alert mask that a write of MG_ALERTEN newly admits join the next in-band interrupt (R377). -/
def Dev.alertEnWrite (d : Dev) (w : Nat) : Dev :=
  let old := d.rd F.MG_ALERTEN_EN
  let d1 := d.wr0 F.MG_ALERTEN_EN w
  let new := (List.range 14).filter (fun b => bit w b && ! bit old b && bit (d.rd F.MG_ALERT_ALERT) b && ! bit d.mg.ibi b)
  { d1 with mg := { d1.mg with ibi := new.foldl (fun m b => m + 2 ^ b) d1.mg.ibi } }

/-- The timebase registers of R147. -/
def tbRegOf (r : Reg) : Option TbReg :=
  match r with
  | .TB_ADJ => some .adj
  | .TB_SET_S_LO => some .setSLo
  | .TB_SET_S_HI => some .setSHi
  | .TB_SET_NS => some .setNs
  | .TB_STEP_NS => some .stepNs
  | .TB_STEP_FRAC => some .stepFrac
  | _ => none

/-- A write of the RW fields of a register. -/
def Dev.rwWrite (d : Dev) (r : Reg) (i w : Nat) : Dev :=
  match r with
  | .MG_ALERTEN => d.alertEnWrite w
  | .PW_ACTSET => d.actsetWrite i w
  | .PW_HVOTE => d.hostVotes i w
  | .PW_DOM => d.pwDomWrite i w
  | .PW_ETIM_CNT => (d.rwFields r i w).modPw (fun p => { p with etim := p.etim.del i })
  | .LN_CTL => d.writeLnCtl i w
  | .LN_TX_FFE => d.writeTxFfe i w
  | .LN_RX_EQ => d.writeRxEq i w
  | .LN_RX_DFE => d.writeRxDfe (i / 3) (i % 3) w
  | .LN_RX_FFE_DATA => d.writeRxFfe i w
  | .LN_PT_CTL => d.writePtCtl i w
  | .TB_CTL => (d.wr0 F.TB_CTL_OWNER (bits w 0 1)).engEval
  | .TS_CTL => d.tsCtlWrite w
  | .TS_HOLD_CFG => (d.rwFields r i w).engEval
  | .TS_LREF_CTL => d.lrefWrite i w
  | .FB_PACE => d.fbPaceWrite i w
  | _ =>
    match tbRegOf r with
    | some t => d.tbWrite t (w % 2 ^ (tbField t).w)
    | none => d.rwFields r i w

/-- A write of 1 clears a W1C bit (R374). -/
def Dev.w1cWrite (d : Dev) (r : Reg) (i w : Nat) : Dev :=
  (r.fields.filter (fun f => decide (f.acc = .W1C))).foldl (fun d f =>
    let v := d.rd f i
    let clear := bits w f.lo f.w
    if v = 0 ∨ clear = 0 then d
    else d.wr f i ((List.range f.w).foldl (fun a b => if bit v b && ! bit clear b then a + 2 ^ b else a) 0)) d

end Sys2Proof.Machine
end

