-- ==== Sys2Proof/Machine/Gate.lean ====
section
/-! DEFINITION. The Transaction Gate's commands: OPEN, STAGE, COMMIT, ABORT, the commit instant and the Boundary Timeout
(R261 to R267 of spec/10_purlin_transactions.md). -/
namespace Sys2Proof.Machine

/-! ## Slots (R261) -/

/-- First slot and number of slots of an initiator. -/
def slotRange (who : Initiator) : Nat × Nat := match who with | .sequencer => (0, 8) | .dormer => (8, 1) | .host => (9, 7)

def slotsOf (who : Initiator) : List Nat := (List.range (slotRange who).2).map (· + (slotRange who).1)

def ownerCode (who : Initiator) : Nat := match who with | .sequencer => 0 | .dormer => 1 | .host => 2

/-- TG_RES after a host command. -/
def Dev.gateRes (d : Dev) (who : Initiator) (code : Nat) : Dev := if who = .host then d.wr0 F.TG_RES_CODE code else d

/-- The slot that an OPEN takes: the lowest free one, else the lowest done one. -/
def Dev.openSlot (d : Dev) (who : Initiator) : Option Nat :=
  ((slotsOf who).find? (fun k => decide (d.rd F.TG_SLOT_STS_STATE k = 0))).or
    ((slotsOf who).find? (fun k => decide (d.rd F.TG_SLOT_STS_STATE k = 3)))

/-- A slot is open, with nothing staged. -/
def Dev.takeSlot (d : Dev) (who : Initiator) (k : Nat) : Dev :=
  let d1 := ((d.wr F.TG_SLOT_STS_STATE k 1).wr F.TG_SLOT_STS_OUTCOME k 0).wr F.TG_SLOT_STS_OWNER k (ownerCode who)
  let d2 := ((d1.wr F.TG_SLOT_STS_COUNT k 0).wr F.TG_SLOT_STS_MODE k 0).wr F.TG_SLOT_STS_COURSE k 0
  let d3 := (d2.wr F.TG_SLOT_CONF_ADDR k 0).wr F.TG_SLOT_CONF_VALID k 0
  { d3.modGate k (fun _ => {}) with watched := d3.watched.filter (fun w => decide (w.slot ≠ k)) }

/-- OPEN, power being good (R10). -/
def Dev.gateOpen (d : Dev) (who : Initiator) : Dev :=
  if ! d.pw.good then d
  else if who = .host ∧ d.ulState ≠ 2 then d.gateRes who 2
  else match d.openSlot who with
    | none => d.gateRes who 1
    | some k =>
      let d1 := (d.takeSlot who k).gateRes who 0
      if who = .host then d1.wr0 F.TG_RES_SLOT k else d1

/-! ## Staging (R262) -/

/-- A field whose bits may be staged. -/
def Dev.committable (d : Dev) (f : Fld) (i : Nat) : Bool :=
  match f.acc with
  | .RW => match f.reg with | .TG_UL_REQ | .DM_SEL => false | _ => true
  | .RO =>
    match f.reg with
    | .CS_CTL => decide (f.lo ≠ 12)
    | .CS_RATE | .CS_LANES | .CS_CTX | .CS_SEL | .CS_ETH_CFG | .CS_CPRI_CFG | .CS_PCI_CFG | .LN_PLL_CTL | .TB_CTL | .TS_CLS_BASE | .FB_CFG
    | .FB_CTXSEL | .FB_WIN_BASE | .FB_WIN_LIM | .MT_CTL | .PU_GCFG | .PU_GMIN | .PU_GMAX | .PU_QCFG | .PU_QLIM => true
    | .LN_FS_STS => decide (f.lo = 0)
    | .UD_STATE => decide (f.lo = 16) && decide (d.rd F.UD_IDENT_POLICY i = 3)
        && decide (d.rd F.UD_IDENT_KIND i = 6 ∨ d.rd F.UD_IDENT_KIND i = 8)
    | _ => false
  | _ => false

/-- The bits of a register that may be staged. -/
def Dev.commitMask (d : Dev) (r : Reg) (i : Nat) : Nat :=
  (r.fields.filter (fun f => d.committable f i)).foldl (fun m f => m + (2 ^ f.w - 1) * 2 ^ f.lo) 0

/-- new := (old AND NOT mask) OR (data AND mask), on 32 bits. -/
def mergeBits (old data mask : Nat) : Nat :=
  ((BitVec.ofNat 32 old &&& ~~~ (BitVec.ofNat 32 mask)) ||| (BitVec.ofNat 32 data &&& BitVec.ofNat 32 mask)).toNat

def orBits (a b : Nat) : Nat := (BitVec.ofNat 32 a ||| BitVec.ofNat 32 b).toNat

/-- A staged write's bits of one field on an old value. -/
def StagedWrite.field (w : StagedWrite) (f : Fld) (old : Nat) : Nat :=
  bits (mergeBits (old * 2 ^ f.lo) w.data w.mask) f.lo f.w

/-- PROTO of a course once a transaction's writes apply. -/
def Dev.protoAfter (d : Dev) (ws : List StagedWrite) (n : Nat) : Proto :=
  match ws.find? (fun w => decide (w.reg = .CS_CTL ∧ w.i = n)) with
  | some w => protoOf (w.field F.CS_CTL_PROTO (d.rd F.CS_CTL_PROTO n))
  | none => d.proto n

/-- The register that a staged address names: the word at E + 0x40 belongs to the layout of the PROTO that the transaction
leaves (R120). -/
def Dev.stagedReg (d : Dev) (ws : List StagedWrite) (a : Nat) : Option (Reg × Nat) :=
  if blockAt a = some .cs ∧ a % 128 = 0x40 then
    let n := (a - 0x180000) / 128
    some (protoCfgReg (d.protoAfter ws n), n)
  else d.regAt a

/-- Stage a write: merged with an earlier one to the same address, or watched anew (R262, R265). -/
def Dev.stageWrite (d : Dev) (k a : Nat) (r : Reg) (i data mask : Nat) : Dev :=
  let g := d.gateSlot k
  if g.staged.any (fun w => decide (w.addr = a)) then
    d.modGate k (fun g => { g with staged := g.staged.map (fun w =>
      if w.addr = a then { w with data := mergeBits w.data data mask, mask := orBits w.mask mask } else w) })
  else
    let d1 := d.modGate k (fun g => { g with staged := g.staged ++ [{ addr := a, reg := r, i := i, data := data, mask := mask }] })
    let d2 : Dev := { d1 with watched := d1.watched ++ [{ reg := r, i := i, slot := k, pos := g.staged.length }] }
    d2.wr F.TG_SLOT_STS_COUNT k (g.staged.length + 1)

/-- STAGE. -/
def Dev.gateStage (d : Dev) (who : Initiator) (k addr data mask : Nat) : Dev :=
  let a := addr / 4 * 4
  let ws := (d.gateSlot k).staged
  if ! (slotsOf who).contains k then d.gateRes who 6
  else if d.rd F.TG_SLOT_STS_STATE k ≠ 1 then d.gateRes who 5
  else match d.stagedReg ws a with
    | none => d.gateRes who 3
    | some (r, i) =>
      if r.block = .dm ∨ mergeBits 0 mask (d.commitMask r i) ≠ mask then d.gateRes who 3
      else if 256 ≤ ws.length ∧ ! ws.any (fun w => decide (w.addr = a)) then d.gateRes who 4
      else (d.stageWrite k a r i data mask).gateRes who 0

/-! ## Requesting a commit, and ABORT (R263) -/

/-- COMMIT in a mode, 0 Immediate, 1 Boundary, 2 Marker. -/
def Dev.gateCommit (d : Dev) (who : Initiator) (k mode course : Nat) : Dev :=
  if ! (slotsOf who).contains k then d.gateRes who 6
  else if d.rd F.TG_SLOT_STS_STATE k ≠ 1 then d.gateRes who 5
  else
    let d1 := ((d.wr F.TG_SLOT_STS_STATE k 2).wr F.TG_SLOT_STS_MODE k mode).wr F.TG_SLOT_STS_COURSE k course
    let mark := if mode = 2 ∧ d.decodedMode course then d.marks.at course 0 else d.bnd.at course 0
    (d1.modGate k (fun g => { g with mark := mark })).gateRes who 0

/-- ABORT. -/
def Dev.gateAbort (d : Dev) (who : Initiator) (k : Nat) : Dev :=
  if ! (slotsOf who).contains k then d.gateRes who 6
  else if d.rd F.TG_SLOT_STS_STATE k = 1 ∨ d.rd F.TG_SLOT_STS_STATE k = 2 then (d.gateEnd k 4).gateRes who 0
  else d.gateRes who 5

/-! ## The values that a commit would leave -/

/-- A staged write's committable fields, with no consequence. -/
def Dev.stagedFields (d : Dev) (w : StagedWrite) (keep : Fld → Bool) : Dev :=
  (w.reg.fields.filter (fun f => keep f && d.committable f w.i && decide (bits w.mask f.lo f.w ≠ 0))).foldl
    (fun d f => d.wr f w.i (w.field f (d.rd f w.i))) d

/-- The part with every staged field in place. -/
def Dev.stagedAll (d : Dev) (ws : List StagedWrite) : Dev := ws.foldl (fun d w => d.stagedFields w (fun _ => true)) d

/-- The staged writes of a slot, the word at E + 0x40 under the layout that the transaction leaves. -/
def Dev.stagedOf (d : Dev) (k : Nat) : List StagedWrite :=
  let ws := (d.gateSlot k).staged
  ws.map (fun w => match d.stagedReg ws w.addr with | some (r, i) => { w with reg := r, i := i } | none => w)

/-- A staged write reaches a field. -/
def StagedWrite.hits (w : StagedWrite) (f : Fld) : Bool := decide (w.reg = f.reg) && decide (bits w.mask f.lo f.w ≠ 0)

/-- R67 on the values that a transaction leaves: NDIV suits the family and its reference, and every lane outside Disabled has its
family. -/
def Dev.pllValuesOk (d : Dev) (p : Nat) : Bool :=
  let fam := d.rd F.LN_PLL_CTL_FAMILY p
  let id := (d.pllRef p).id
  let nd := d.rd F.LN_PLL_CTL_NDIV p
  let suits := if id = 0 then (List.range 6).any (fun j => decide (nd ≠ 0 ∧ pllNdiv fam j = nd)) else decide (nd ≠ 0 ∧ pllNdiv fam id = nd)
  let lanesOk := d.usedCourses.all (fun n =>
    decide (d.rd F.CS_STS_KSTATE n = 0) || ! (d.courseBays n).contains (p / 2) || decide (d.rd F.CS_RATE_RATE n = 0)
      || (if d.proto n = .pcie then [9, 10] else [rateFamily (d.rd F.CS_RATE_RATE n)]).all (fun fam => (d.pllHolding (p / 2) fam).isSome))
  (decide (fam = 0) || suits) && lanesOk

/-- The stand-in that LN_FS_STS shows: its lane's primary slice has failed. -/
def Dev.standInOf (d : Dev) (fs : Nat) : Option Nat :=
  let l := fsLane fs (d.rd F.LN_FS_STS_PAD fs)
  if d.fsOwner fs = 1 ∧ ((d.lane l).standIn ∨ (d.lane l).standInAcq) then some l else none

/-- A staged configuration value that its target's rules would discard; `fin` holds the values of all writes. -/
def Dev.configRejected (d fin : Dev) (w : StagedWrite) : Bool :=
  let n := w.i
  match w.reg with
  | .CS_CTL => [F.CS_CTL_MODE, F.CS_CTL_PROTO, F.CS_CTL_ROLE].any (fun f => w.hits f && decide (fin.rd f n = 3))
  | .CS_RATE =>
    let rate := fin.rd F.CS_RATE_RATE n
    (w.hits F.CS_RATE_FEC && decide (fin.rd F.CS_RATE_FEC n = 3))
      || (decide (rate ≠ d.rd F.CS_RATE_RATE n ∧ rate ≠ 0 ∧ d.rd F.CS_STS_KSTATE n ≠ 0) && ! fin.rateHasPll n rate)
  | .CS_SEL =>
    ! (decide (fin.rd F.CS_CTL_ROLE n = 1 ∧ d.rd F.UD_IDENT_POLICY (courseUnit n) = 3)
      && (d.members (courseUnit n)).contains (fin.rd F.CS_SEL_ACTIVE n))
  | .UD_STATE => ! (d.members n).contains (fin.rd F.UD_STATE_ACTIVE n)
  | .LN_PLL_CTL => ! fin.pllValuesOk n
  | .LN_FS_STS => decide (fin.rd F.LN_FS_STS_OWNER n ≠ 0) || (d.standInOf n).isNone
  | .PU_GCFG =>
    let par := fin.rd F.PU_GCFG_PARENT n
    (w.hits F.PU_GCFG_WEIGHT && decide (par < 1024) && fin.on F.PU_GCFG_SCHED par
      && decide (fin.rd F.PU_GCFG_WEIGHT n < 64)) || (w.hits F.PU_GCFG_SCHED && fin.weightBroken n)
  | .PU_QCFG =>
    let g := fin.rd F.PU_QCFG_GROUP n
    w.hits F.PU_QCFG_WEIGHT && decide (g < 1024) && fin.on F.PU_GCFG_SCHED g && decide (fin.rd F.PU_QCFG_WEIGHT n < 64)
  | _ => false

/-- The word that a staged write leaves in its register. -/
def Dev.stagedWord (d : Dev) (w : StagedWrite) : Nat := mergeBits (d.word w.reg w.i) w.data w.mask

/-- A commit at a boundary of a Straight-through course in service waits with this side-A transmitter, which sends the B-to-A
direction, for that direction's boundary (R86). -/
def Dev.awaitsB (d : Dev) (k l : Nat) : Bool :=
  let n := d.rd F.TG_SLOT_STS_COURSE k
  decide (d.rd F.TG_SLOT_STS_MODE k ≠ 0 ∧ l < 64) && d.hasLane n l && decide (d.rd F.CS_CTL_MODE n = 1) && d.inService n

/-- A staged write of RW fields as its register's rules take it. The training sequencer sets transmit taps as their owner (R48). -/
def Dev.commitRw (d : Dev) (k : Nat) (w : StagedWrite) : Dev :=
  let v := d.stagedWord w
  if w.reg = .LN_TX_FFE ∧ k < 8 then
    (if ! d.tapsOk w.i (tapsOfWord v) then d.lnReject w.i
     else if d.awaitsB k w.i then d.modLane w.i (fun x => { x with heldFfe := some (BitVec.ofNat 32 v) })
     else d.putWord .LN_TX_FFE w.i v)
  else if w.reg = .LN_TX_FFE ∧ d.awaitsB k w.i then d.writeTxFfeAs w.i v true
  else if w.reg = .LN_CTL ∧ d.awaitsB k w.i then d.writeLnCtlAs w.i v true
  else d.rwWrite w.reg w.i v

/-- The write-reject flag that a register's rules use. -/
def rejectFlag (w : StagedWrite) : Option (Fld × Nat) :=
  match w.reg with
  | .LN_CTL | .LN_TX_FFE | .LN_RX_EQ | .LN_RX_FFE_DATA => some (F.LN_STS_WREJ, w.i)
  | .LN_RX_DFE => some (F.LN_STS_WREJ, w.i / 3)
  | .FB_PACE => some (F.FB_STS_WREJ, w.i)
  | _ => if (tbRegOf w.reg).isSome then some (F.TB_STS_WREJ, 0) else none

/-- The staged writes that reach RW fields, in the order in which they apply: what others depend on first. -/
def rwOrder (ws : List StagedWrite) : List StagedWrite :=
  let rw := ws.filter (fun w => w.reg.fields.any (fun f => decide (f.acc = .RW) && w.hits f))
  let first (w : StagedWrite) : Bool := match w.reg with | .TB_CTL | .LN_CTL | .LN_RX_EQ | .LN_RX_FFE_SEL => true | _ => false
  rw.filter first ++ rw.filter (fun w => ! first w)

/-- Addresses of staged RW writes that their registers' rules would discard. -/
def Dev.rwRejected (d : Dev) (k : Nat) (ws : List StagedWrite) : List Nat :=
  ((rwOrder ws).foldl (fun (q : Dev × List Nat) w =>
    let d0 := match rejectFlag w with | some (f, i) => q.1.wrc f i 0 | none => q.1
    let d1 := d0.commitRw k w
    let bad := (match rejectFlag w with | some (f, i) => d1.on f i | none => false)
      || (decide (w.reg = .PW_DOM) && w.hits F.PW_DOM_VSET && ! vsetOk w.i (bits (q.1.stagedWord w) 16 8))
    (d1, if bad then w.addr :: q.2 else q.2)) (d, [])).2

/-- The address of the first staged write whose value would be discarded (Table 10.6, Value). -/
def Dev.valueAbort (d : Dev) (k : Nat) (ws : List StagedWrite) : Option Nat :=
  let fin := d.stagedAll ws
  let bad := d.rwRejected k ws
  (ws.find? (fun w => bad.contains w.addr || d.configRejected fin w)).map (fun w => w.addr)

/-- A committed PU_GMIN breaks R259. -/
def Dev.quotaAbort (d : Dev) (ws : List StagedWrite) : Bool :=
  let fin := d.stagedAll ws
  let top := fin.topGroups
  ws.any (fun w => decide (w.reg = .PU_GMIN)) &&
    (fin.quotaGroups.any fin.minBroken || decide (fin.rd F.PU_POOL_POOL < sumOf top (fun g => fin.rd F.PU_GMIN_MIN g))
      || decide (freeCount fin.pu.free < sumOf top (fun g => fin.reserve (fin.quotaGroups.length + 1) g)))

/-! ## Applying a commit (R264) -/

/-- Fields that a commit changes through an operation of their own. -/
def plainConfig (f : Fld) : Bool :=
  decide (f.acc = .RO) && match f.reg with
    | .PU_QCFG => decide (f.lo ≠ 0)
    | .TB_CTL | .MT_CTL | .LN_FS_STS => false
    | _ => true

/-- The courses that a transaction writes. -/
def stagedCourses (ws : List StagedWrite) : List Nat :=
  (List.range 512).filter (fun n => ws.any (fun w => decide (w.reg.block = .cs) && decide ((w.addr - 0x180000) / 128 = n)))

/-- The settings of a course whose change is row 2 of Table 3.7. -/
def Dev.courseSettings (d : Dev) (n : Nat) : List Nat :=
  [d.rd F.CS_CTL_MODE n, d.rd F.CS_CTL_PROTO n, d.rd F.CS_CTL_ROLE n, d.rd F.CS_RATE_FEC n, d.rd F.CS_CTL_AN n, d.rd F.CS_CTL_EEE n,
   d.rd F.CS_CTL_TIMING n, d.rd F.CS_CTL_VIA_FABRIC n, d.rd F.CS_CTL_REVERSE n, d.rd F.CS_LANES_LANES (2 * n), d.rd F.CS_LANES_LANES (2 * n + 1)]

/-- On a change of PROTO every field of the layouts at E + 0x40 reads 0 (R120, R141). -/
def Dev.layoutClear (d : Dev) (n : Nat) : Dev :=
  { d with regs := d.regs.filter (fun p => ! ((regProto p.1.reg).isSome
      && decide ((match p.1.reg with | .CS_ETH_PG_LO | .CS_ETH_PG_HI | .CS_ETH_TR => p.1.i / 2 | _ => p.1.i) = n))) }

/-- A course that a committed transaction may not leave as it stands (R70, R202, R213). -/
def Dev.courseBroken (d : Dev) (n : Nat) : Bool :=
  ! d.membershipOk n || (d.gutterUnbound n).isSome
    || (List.range 64).any (fun r => decide (d.rd F.FB_CFG_SELMODE r = 1 ∧ d.rd F.FB_CFG_COURSE r = n) && ! d.courseSelectOk r)

/-- Before the values change, a course whose profile changes or breaks leaves its lanes as row 1 of Table 3.7 says. -/
def Dev.commitCoursesBefore (d fin : Dev) (ns : List Nat) : Dev :=
  d.each ns (fun n d =>
    if d.rd F.CS_STS_KSTATE n ≠ 0 ∧ d.rd F.CS_CTL_ROLE n ≠ 1 ∧ (d.courseSettings n ≠ fin.courseSettings n ∨ fin.courseBroken n) then d.enterDisabled n
    else d)

/-- The training sequencer's transactions that change the rate of a course that follows rates count as changes made by rate
following (R116). -/
def Dev.followCounts (d old : Dev) (k : Nat) (ns : List Nat) : Dev :=
  if 8 ≤ k then d
  else d.each ns (fun n d =>
    if d.proto n = .cpri ∧ d.on F.CS_CPRI_CFG_FOLLOW n ∧ d.rd F.CS_RATE_RATE n ≠ old.rd F.CS_RATE_RATE n then
      d.bump F.CS_CPRI_CNT_RATE_COUNT n
    else d)

/-- A committed RATE of a course that is neither Disabled nor in service: its bays' PLLs are retuned as the training sequencer would
(R38), and in Train its lanes take the rate. -/
def Dev.commitRate (d : Dev) (n rate : Nat) : Dev :=
  let ks := d.rd F.CS_STS_KSTATE n
  if ks = 0 ∨ d.inService n ∨ rate = 0 then d
  else d.each (d.courseLanes n) (fun l d => if ks = 3 then (d.wrc F.LN_STS_LOCK l 0).laneToRate n l rate else d.laneToPll n l rate)

/-- After the values have changed, each course evaluates Table 3.7 (R365); one that the transaction leaves with a broken rule is in
Disabled with FCODE 0x07 (R70), and the courses beneath a Span course that it put there leave their hold (R72). -/
def Dev.commitCoursesAfter (d old : Dev) (ns : List Nat) : Dev :=
  let noMember := ns.any (fun n => ! d.membershipOk n)
  let d1 := d.each ns (fun n d => d.modCourse n (fun c => { c with barred := noMember || d.courseBroken n }))
  d1.each ns (fun n d =>
    let rate := d.rd F.CS_RATE_RATE n
    let rateNew := decide (rate ≠ old.rd F.CS_RATE_RATE n)
    let changed := decide (d.courseSettings n ≠ old.courseSettings n) || (d.course n).barred
    let d1 := if d.selectAggregate n then d else d.wrc F.CS_SEL_ACTIVE n 0
    let d2 := d1.wrc F.UD_STATE_ACTIVE (courseUnit n) (d1.rd F.CS_SEL_ACTIVE n)
    let d3 := if rateNew ∧ ! changed then d2.commitRate n rate else d2
    let d4 := d3.courseEval n { changed := changed, newRate := rateNew }
    let d5 := if (d4.course n).barred ∧ d4.rd F.CS_STS_FCODE n ≠ 7 then d4.courseFault n 7 else d4
    let d6 := if d5.rd F.CS_CTL_ROLE n = 2 ∧ old.rd F.CS_STS_KSTATE n ≠ 0 ∧ d5.rd F.CS_STS_KSTATE n = 0 then d5.belowEval n else d5
    d6.courseVotes n)

/-- A bay PLL takes committed settings: retuned or stopped, as the training sequencer would (R67). -/
def Dev.commitPll (d old : Dev) (p : Nat) : Dev :=
  if d.rd F.LN_PLL_CTL_FAMILY p = old.rd F.LN_PLL_CTL_FAMILY p ∧ d.rd F.LN_PLL_CTL_REFSEL p = old.rd F.LN_PLL_CTL_REFSEL p
      ∧ d.rd F.LN_PLL_CTL_NDIV p = old.rd F.LN_PLL_CTL_NDIV p then d
  else
    let d1 := (d.wrc F.LN_PLL_STS_LOCK p 0).pllRefresh p
    -- the PLL that now holds a lane's family serves it (Table 2.20)
    d1.each d1.usedCourses (fun n d =>
      d.each (if d.rd F.CS_STS_KSTATE n = 0 then [] else (d.courseLanes n).filter (fun l => decide (laneBay l = p / 2))) (fun l d =>
        match d.pllHolding (p / 2) (rateFamily (if (d.lane l).rxRate = 0 then d.rd F.CS_RATE_RATE n else (d.lane l).rxRate)) with
        | some k => d.wrc F.LN_STS_PLLSEL l k
        | none => d))

/-- The host releases a stand-in (R64): the lane is in Fault with no slice. -/
def Dev.standInRelease (d : Dev) (fs : Nat) : Dev :=
  match d.standInOf fs with
  | none => d
  | some l =>
    let d1 := (d.modLane l (fun x => { x with standIn := false, standInAcq := false })).fsRelease fs
    (((d1.setOnFs l false).wrc F.LN_STS_LOCK l 0).setTxIdle (laneOpp l) true).setKs l 9

/-- USED of every group counts the pages of the queues beneath it. -/
def Dev.recountUsed (d : Dev) : Dev :=
  let qs := d.listed F.PU_QPAGES_PAGES
  let gs := (List.range 1024).filter (fun g => d.on F.PU_GUSED_USED g || qs.any (fun q => (d.queuePath q).contains g))
  d.each gs (fun g d => d.wrc F.PU_GUSED_USED g (sumOf (qs.filter (fun q => (d.queuePath q).contains g)) (fun q => d.rd F.PU_QPAGES_PAGES q)))

/-- The frames of a region follow FB_CFG.FRAMES. -/
def Dev.framesFollow (d : Dev) (r : Nat) : Dev :=
  d.each (List.range 8) (fun k d =>
    let i := 8 * r + k
    let want := bit (d.rd F.FB_CFG_FRAMES r) k
    let kind := d.rd F.FB_SLOT_KIND i
    if want ∧ kind = 0 then (d.wr F.FB_SLOT_KIND i 2).ctxRefresh r ⟨false, k⟩
    else if ! want ∧ kind = 2 then (d.wr F.FB_SLOT_KIND i 0).ctxRefresh r ⟨false, k⟩
    else d)

/-- A committed selection (R213, R264): at once in Fixed mode, and in Course mode where the commit falls on a boundary or marker
of the selecting course; else at that course's boundary, and where the context is to be paged in at the first boundary after
that (R218). -/
def Dev.commitSelect (d : Dev) (k r : Nat) : Dev :=
  let c := d.selected r
  match d.rd F.FB_CFG_SELMODE r with
  | 0 => (d.select r c none false).contextSwitch r
  | 1 =>
    let n := d.rd F.FB_CFG_COURSE r
    let here := decide (d.rd F.TG_SLOT_STS_MODE k ≠ 0 ∧ d.rd F.TG_SLOT_STS_COURSE k = n)
    let met := decide here || d.boundaryNow courseCount n
    if met ∧ (d.residentSlot r c).isSome then
      -- words from before the boundary pass first (R213)
      (if d.fabricClear n then (d.select r c none false).contextSwitch r else d.select r c (some (n, d.bnd.at n 0 - 1)) false)
    else d.select r c (some (n, d.bnd.at n 0)) false
  | _ => d

/-- The regions whose selection a transaction writes. -/
def Dev.selectedRegions (d : Dev) (ws : List StagedWrite) : List Nat :=
  (List.range 64).filter (fun r => ws.any (fun w =>
    (decide (w.reg = .FB_CFG ∨ (w.reg = .FB_CTXSEL ∧ d.rd F.FB_CFG_SELMODE r = 0)) && decide (w.i = r))
      || (decide (w.reg = .CS_CTX) && decide (d.rd F.FB_CFG_SELMODE r = 1 ∧ d.rd F.FB_CFG_COURSE r = w.i))))

/-- The regions for which a transaction stages a selection that their SELMODE does not take: FB_CTXSEL in Course or Self mode, the CS_CTX of
a course that names a region in Fixed or Self mode (R213). -/
def Dev.discardedSelections (d : Dev) (ws : List StagedWrite) : List Nat :=
  ws.filterMap (fun w =>
    match w.reg with
    | .FB_CTXSEL => if d.rd F.FB_CFG_SELMODE w.i = 0 then none else some w.i
    | .CS_CTX =>
      let r := d.rd F.CS_CTX_REGION w.i
      if d.on F.CS_CTX_CTX_VALID w.i ∧ d.rd F.FB_CFG_SELMODE r ≠ 1 ∧ (w.hits F.CS_CTX_CTX || w.hits F.CS_CTX_PAGED) then some r else none
    | _ => none)

/-- A queue's EN as committed (R257). -/
def Dev.commitQueue (d : Dev) (w : StagedWrite) : Dev :=
  if w.reg ≠ .PU_QCFG ∨ ! w.hits F.PU_QCFG_EN then d
  else
    let was := d.rd F.PU_QCFG_EN w.i
    let v := w.field F.PU_QCFG_EN was
    if v = 1 then (if was = 1 then d else d.queueEnable w.i)
    else if was = 1 ∨ d.rd F.PU_QSTS_KSTATE w.i = 4 then d.queueFlush w.i
    else d

/-- The other fields with operations of their own: TBREF, COMPAT and the release of a stand-in. -/
def Dev.commitSpecial (d : Dev) (w : StagedWrite) : Dev :=
  match w.reg with
  | .TB_CTL => if w.hits F.TB_CTL_TBREF then d.tbRefSelect (w.field F.TB_CTL_TBREF (d.rd F.TB_CTL_TBREF)) else d
  | .MT_CTL =>
    if w.hits F.MT_CTL_COMPAT then
      let v := w.field F.MT_CTL_COMPAT (d.rd F.MT_CTL_COMPAT)
      (d.modMt (fun m => { m with compat := decide (v = 1), compatSeq := m.nextSeq })).wrc F.MT_STS_COMPAT_PEND 0 (b2n (decide (v ≠ d.rd F.MT_CTL_COMPAT)))
    else d
  | .LN_FS_STS => d.standInRelease w.i
  | _ => d

/-- Every write of a transaction applies, and then what each target's own rules attach to its new value (R264). -/
def State.commitApply (s : State) (k : Nat) (ws0 : List StagedWrite) : State :=
  let off := ws0.any (fun w => decide (regDomain w.reg w.i ≠ 0) && ! s.dev.domOn (regDomain w.reg w.i))
  let ws1 := ws0.filter (fun w => decide (regDomain w.reg w.i = 0) || s.dev.domOn (regDomain w.reg w.i))
  let old := s.dev
  let lost := (old.stagedAll ws1).discardedSelections ws1
  let ws := ws1.filter (fun w => ! (decide (w.reg = .FB_CTXSEL) && lost.contains w.i))
  let ns := stagedCourses ws
  let fin := old.stagedAll ws
  let d0 := (if off then old.wrc F.PW_STS_OFFACC 0 1 else old).commitCoursesBefore fin ns
  let d1 := d0.each (ns.filter (fun n => decide (fin.rd F.CS_CTL_PROTO n ≠ old.rd F.CS_CTL_PROTO n))) (fun n d => d.layoutClear n)
  let d2 := ws.foldl (fun d w => d.stagedFields w plainConfig) d1
  let d3 := (rwOrder ws).foldl (fun d w => d.commitRw k w) d2
  let d4 := ws.foldl (fun d w => (d.commitQueue w).commitSpecial w) d3
  let d5 := d4.each ((List.range 16).filter (fun p => ws.any (fun w => decide (w.reg = .LN_PLL_CTL ∧ w.i = p)))) (fun p d => d.commitPll old p)
  let d6 := if ws.any (fun w => decide (w.reg = .PU_QCFG ∨ w.reg = .PU_GCFG ∨ w.reg = .PU_QLIM)) then d5.recountUsed.answerNotifies else d5
  let d7 := d6.each ((List.range 64).filter (fun r => ws.any (fun w => decide (w.reg = .FB_CFG ∧ w.i = r)))) (fun r d => d.framesFollow r)
  let d8 := (d7.followCounts old k ns).commitCoursesAfter old ns
  let d9 := (d8.each (d8.selectedRegions ws) (fun r d => d.commitSelect k r)).each (if k < 9 then [] else lost) (fun r d => d.wr F.FB_STS_WREJ r 1)
  let s1 : State := { s with dev := d9 }
  if ws.any (fun w => decide (w.reg = .TS_CLS_BASE)) then s1.clsRecount else s1

/-! ## The commit instant (R264 to R267) -/

/-- The training sequencer stages a rate change again once after an abort (R267). -/
def Dev.gateAgain (d : Dev) (k : Nat) (g : GateX) (mode course : Nat) : Dev :=
  if 8 ≤ k ∨ g.again ∨ ! g.staged.any (fun w => w.hits F.CS_RATE_RATE) then d
  else match d.openSlot .sequencer with
    | none => d
    | some j =>
      let d1 := d.takeSlot .sequencer j
      let d2 := g.staged.foldl (fun d w => d.stageWrite j w.addr w.reg w.i w.data w.mask) d1
      (d2.modGate j (fun x => { x with again := true })).gateCommit .sequencer j mode course

/-- A transaction aborts: TG_SLOTs_CONF names an address where the outcome has one. -/
def Dev.gateFail (d : Dev) (k outcome : Nat) (addr : Option Nat) : Dev :=
  let g := d.gateSlot k
  let mode := d.rd F.TG_SLOT_STS_MODE k
  let course := d.rd F.TG_SLOT_STS_COURSE k
  let d1 := match addr with
    | some a => (d.wr F.TG_SLOT_CONF_ADDR k a).wr F.TG_SLOT_CONF_VALID k 1
    | none => d
  (d1.gateEnd k outcome).gateAgain k g mode course

/-- The first conflicting address of a slot, in staging order (R265). -/
def Dev.conflictOf (d : Dev) (k : Nat) : Option Nat :=
  ((d.gateSlot k).staged[((d.watched.filter (fun w => decide (w.slot = k))).findIdx? (fun w => w.hit)).getD 256]?).map (fun w => w.addr)

/-- Courses whose staged rate waits for their bays' shells (R335). -/
def Dev.commitWaits (d : Dev) (ws : List StagedWrite) : List Nat :=
  let fin := d.stagedAll ws
  (stagedCourses ws).filter (fun n => (d.inService n || decide (d.rd F.CS_STS_KSTATE n = 3)) && decide (fin.rd F.CS_RATE_RATE n ≠ d.rd F.CS_RATE_RATE n)
    && d.shellWaits n (fin.rd F.CS_RATE_RATE n))

/-- The commit of one slot that is due. -/
def State.commitSlot (s : State) (k : Nat) : State :=
  let d := s.dev
  let ws := d.stagedOf k
  match d.commitWaits ws with
  | n :: rest => s.on (fun d => d.each (n :: rest) (fun n d => d.shellRaise n))
  | [] =>
    match d.conflictOf k with
    | some a => s.on (fun d => d.gateFail k 3 (some a))
    | none =>
      match d.valueAbort k ws with
      | some a => s.on (fun d => d.gateFail k 7 (some a))
      | none =>
        if d.quotaAbort ws then s.on (fun d => d.gateEnd k 6)
        else (s.commitApply k ws).on (fun d => d.gateEnd k 1)

/-- Two slots have staged a common bit of a register. -/
def Dev.shareBit (d : Dev) (j k : Nat) (r : Reg) (i : Nat) : Bool :=
  (d.gateSlot j).staged.any (fun a => (d.gateSlot k).staged.any (fun b =>
    decide (a.reg = r ∧ a.i = i ∧ b.reg = r ∧ b.i = i) && decide (mergeBits 0 a.mask b.mask ≠ 0)))

/-- A commit that falls due together with later ones: of the registers that it stages, only shared bits count against
them (R266). -/
def State.commitTogether (s : State) (j : Nat) (later : List Nat) : State :=
  let before := s.dev
  let mine (w : Watch) : Bool := later.contains w.slot && (before.gateSlot j).staged.any (fun a => decide (a.reg = w.reg ∧ a.i = w.i))
  let was (w : Watch) : Bool := before.watched.any (fun v => decide (v.slot = w.slot ∧ v.pos = w.pos) && v.hit)
  (s.commitSlot j).on (fun d => { d with watched := d.watched.map (fun w =>
    if mine w then { w with hit := was w || before.shareBit j w.slot w.reg w.i } else w) })

/-- The commits that are due up to a slot apply in ascending slot number (R266). -/
def State.commitDueUpTo (s : State) (k : Nat) : State :=
  s.each ((List.range (k + 1)).filter (fun j => s.dev.commitDue j)) (fun j s =>
    s.commitTogether j ((List.range 16).filter (fun m => decide (j < m) && s.dev.commitDue m)))

/-- OPEN. -/
def execGateOpen (initiator : Initiator) (s : State) : Host.Outcome State Fault Refusal := s.upd (fun d => d.gateOpen initiator)

/-- STAGE. -/
def execGateStage (initiator : Initiator) (slot : Fin 16) (addr : BitVec 24) (data mask : BitVec 32) (s : State) :
    Host.Outcome State Fault Refusal :=
  s.upd (fun d => d.gateStage initiator slot.val addr.toNat data.toNat mask.toNat)

/-- COMMIT_IMMEDIATE. -/
def execCommitImmediate (initiator : Initiator) (slot : Fin 16) (s : State) : Host.Outcome State Fault Refusal :=
  s.upd (fun d => d.gateCommit initiator slot.val 0 0)

/-- COMMIT_BOUNDARY. -/
def execCommitBoundary (initiator : Initiator) (slot : Fin 16) (course : Fin 512) (s : State) : Host.Outcome State Fault Refusal :=
  s.upd (fun d => d.gateCommit initiator slot.val 1 course.val)

/-- COMMIT_MARKER. -/
def execCommitMarker (initiator : Initiator) (slot : Fin 16) (course : Fin 512) (s : State) : Host.Outcome State Fault Refusal :=
  s.upd (fun d => d.gateCommit initiator slot.val 2 course.val)

/-- ABORT. -/
def execGateAbort (initiator : Initiator) (slot : Fin 16) (s : State) : Host.Outcome State Fault Refusal :=
  s.upd (fun d => d.gateAbort initiator slot.val)

/-- COMMIT_APPLY: the commit instant of a slot whose commit is due. -/
def execCommitApply (slot : Fin 16) (s : State) : Host.Outcome State Fault Refusal :=
  .next (if s.dev.commitDue slot.val then s.commitDueUpTo slot.val else s)

/-- BOUNDARY_TIMEOUT: 1 ms after COMMIT, no boundary or marker has come (R263). -/
def execBoundaryTimeout (slot : Fin 16) (s : State) : Host.Outcome State Fault Refusal :=
  s.upd (fun d =>
    if d.rd F.TG_SLOT_STS_STATE slot.val = 2 ∧ d.rd F.TG_SLOT_STS_MODE slot.val ≠ 0 ∧ ! d.commitDue slot.val then d.gateFail slot.val 2 none
    else d)

end Sys2Proof.Machine
end

