-- ==== Sys2Proof/Machine/Unlock.lean ====
section
/-! DEFINITION. Unlocking the Transaction Gate (R378 to R381 of spec/17_management_registers.md). -/
namespace Sys2Proof.Machine

def Dev.modMg (d : Dev) (g : MgX → MgX) : Dev := { d with mg := g d.mg }

/-- TG_UL_STS.RESULT at a command's end. -/
def Dev.ulResult (d : Dev) (v : Nat) : Dev := d.wr0 F.TG_UL_STS_RESULT v

/-- The nonce of a new challenge: eight words of the random source. -/
def Dev.drawNonce (d : Dev) : Dev :=
  (d.each (List.range 8) (fun j d => d.wr F.TG_UL_CHAL_NONCE j (Config.random d.draws j).toNat)).draw

def Dev.clearNonce (d : Dev) : Dev := d.each (List.range 8) (fun j d => d.wrc F.TG_UL_CHAL_NONCE j 0)

/-- CHALLENGE (R379, R380). -/
def Dev.ulChallenge (d : Dev) : Dev :=
  if d.on F.TG_UL_STS_BUSY then d
  else if d.gateKeyBlank then d.ulResult 4
  else if d.mg.ulWait ≠ 0 then d.ulResult 3
  else ((d.drawNonce.modMg (fun m => { m with ulExpired := false })).wr0 F.TG_UL_STS_STATE 1).ulResult 0

/-- The 44 bytes that an answer's tag is taken over: the nonce, the serial number, TG_UL_REQ (R379). -/
def Dev.ulMessage (d : Dev) : List Byte :=
  ((List.range 8).map (fun j => bytesLE (d.rd F.TG_UL_CHAL_NONCE j) 4)).flatten
    ++ bytesLE d.fuse.serial 8 ++ bytesLE (d.word .TG_UL_REQ) 4

/-- The tag that answers the challenge. -/
def Dev.ulTag (d : Dev) : List Byte := (hmacSha256 d.fuse.kGate d.ulMessage).take 16

/-- The tag in TG_UL_RESP0 to TG_UL_RESP3. -/
def Dev.ulAnswer (d : Dev) : List Byte := ((List.range 4).map (fun j => bytesLE (d.rd F.TG_UL_RESP_TAG j) 4)).flatten

/-- The Gate is unlocked for the duration of TG_UL_REQ. -/
def Dev.ulMatch (d : Dev) : Dev :=
  let dur := d.rd F.TG_UL_REQ_DUR
  let d1 := (((d.clearNonce.wr0 F.TG_UL_STS_STATE 2).wr0 F.TG_UL_LEFT_LEFT dur).wr0 F.TG_UL_STS_FAILS 0).ulResult 0
  d1.modMg (fun m => { m with ulTimed := decide (dur ≠ 0), ulNs := 0 })

/-- A wrong tag: FAILS counts, and CHALLENGE waits (R380). -/
def Dev.ulMismatch (d : Dev) : Dev :=
  let d1 := (((d.clearNonce.wr0 F.TG_UL_STS_STATE 0).wr0 F.TG_UL_LEFT_LEFT 0).bump F.TG_UL_STS_FAILS).ulResult 2
  d1.modMg (fun m => { m with ulWait := 2 ^ (min (d1.rd F.TG_UL_STS_FAILS) 10 - 1) * 1000000000 })

/-- VERIFY (R379). -/
def Dev.ulVerify (d : Dev) : Dev :=
  if d.on F.TG_UL_STS_BUSY then d
  else if d.gateKeyBlank then d.ulResult 4
  else if d.rd F.TG_UL_STS_STATE ≠ 1 then d.ulResult (if d.mg.ulExpired then 5 else 1)
  else if d.ulAnswer = d.ulTag then d.ulMatch else d.ulMismatch

/-- GKEYPROG (R378). -/
def Dev.ulKeyProg (d : Dev) : Dev :=
  if d.on F.TG_UL_STS_BUSY then d
  else if ! d.gateKeyBlank then d.ulResult 6
  else (d.wr0 F.TG_UL_STS_BUSY 1).modMg (fun m => { m with gkey := true })

/-- A write of TG_UL_CMD. -/
def Dev.ulCommand (d : Dev) (op : Nat) : Dev :=
  match op with
  | 1 => d.ulChallenge
  | 2 => d.ulVerify
  | 3 => d.gateRelock
  | 4 => d.ulKeyProg
  | _ => d

/-- CHALLENGE. -/
def execChallenge (s : State) : Host.Outcome State Fault Refusal := s.upd Dev.ulChallenge

/-- VERIFY. -/
def execVerify (s : State) : Host.Outcome State Fault Refusal := s.upd Dev.ulVerify

/-- RELOCK. -/
def execRelock (s : State) : Host.Outcome State Fault Refusal := s.upd Dev.gateRelock

/-- GKEYPROG. -/
def execGkeyprog (s : State) : Host.Outcome State Fault Refusal := s.upd Dev.ulKeyProg

/-- UNLOCK_EXPIRY: TG_UL_LEFT reaches 0, TG_UL_REQ.DUR not having been 0 (R381). -/
def execUnlockExpiry (s : State) : Host.Outcome State Fault Refusal :=
  s.upd (fun d => if d.mg.ulTimed then d.gateRelock else d)

/-- CHALLENGE_EXPIRY: 10 s after it was drawn the challenge can no longer be answered (R379). -/
def execChallengeExpiry (s : State) : Host.Outcome State Fault Refusal :=
  s.upd (fun d =>
    if d.ulState ≠ 1 then d
    else ((d.clearNonce.modMg (fun m => { m with ulExpired := true })).wr0 F.TG_UL_STS_STATE 0))

end Sys2Proof.Machine
end

