-- ==== Sys2Proof/Machine/RegAccess.lean ====
section
/-! DEFINITION. Host accesses to the 24-bit management space: which rule a word written to, or read from, each register comes
under (R5 and R7 of spec/00_scope.md, R322 of spec/14_power.md, R371, R372, R374, R384 of
spec/17_management_registers.md). -/
namespace Sys2Proof.Machine

/-! ## Bus status -/

/-- A bit of MG_BUSSTS; alert BUS where it was 0 (Table 17.3). -/
def Dev.busSts (d : Dev) (f : Fld) : Dev := if d.on f then d else (d.wr0 f 1).alert 12

/-- The domain of an address whose block defines no register there. -/
def blockDomain (a : Nat) : Nat :=
  match blockAt a with
  | some .ln => rowA ((a - 0x100000) / 0x10000)
  | some .tb => rowAT
  | some .tsu => rowA ((a - 0x201000) / 64 / 2 / 8)
  | some .ts => if a < 0x211000 then rowAT else rowA ((a - 0x211000) / 32 / 2 / 8 % 8)
  | some .fb => rowL ((a - 0x300000) / 0x1000)
  | some .st | some .mt | some .pu => rowM
  | some .dm => rowD
  | _ => 0

/-! ## Commands in registers -/

/-- TG_CMD, with what TG_ADDR, TG_DATA and TG_MASK stage. -/
def Dev.tgCommand (d : Dev) (w : Nat) : Dev :=
  match bits w 0 3 with
  | 1 => d.gateOpen .host
  | 2 => d.gateStage .host (bits w 8 4) (d.rd F.TG_ADDR_ADDR * 4) (d.rd F.TG_DATA_DATA) (d.rd F.TG_MASK_MASK)
  | 3 => d.gateCommit .host (bits w 8 4) (bits w 12 2) (bits w 16 9)
  | 4 => d.gateAbort .host (bits w 8 4)
  | _ => d

/-- CF_CMD (R356 to R358). -/
def Dev.cfCommand (d : Dev) (w : Nat) (flash : Option FlashFound) : Dev :=
  match bits w 0 3 with
  | 1 => d.cfReload flash
  | 2 => d.cfRecover
  | 3 => d.cfKey 3 (bits w 4 2)
  | 4 => d.cfKey 4 (bits w 4 2)
  | 5 => d.cfAbort
  | _ => d

/-- ST_MCMD: its settings, then its command. -/
def Dev.mbCommand (d : Dev) (w : Nat) : Dev :=
  let d1 := d.rwFields .ST_MCMD 0 w
  match bits w 0 2 with
  | 1 => d1.mbStart
  | 2 => d1.mbStop
  | _ => d1

/-- ST_LCMD. -/
def Dev.lbCommand (d : Dev) (w : Nat) : Dev :=
  match bits w 6 2 with
  | 1 => d.lbStart (bits w 0 6) (bits w 8 5)
  | 2 => d.lbStop
  | _ => d

/-- CL_CMD (Table 12.8). -/
def Dev.clCommand (d : Dev) (w : Nat) : Dev :=
  let kind := bits w 4 3
  let target := bits w 8 8
  let param := bits w 24 5
  match bits w 0 3 with
  | 1 => d.calStart 1 kind target param (bit w 16) (bit w 17) (bits w 18 3)
  | 2 => d.calStart 2 kind target param false false 0
  | 3 => d.calStart 3 kind target param false true 0
  | 4 => d.calCancel
  | _ => d

/-- TB_CMD: LOAD, then STEP, then CAPTURE (R148). -/
def Dev.tbCommand (d : Dev) (w : Nat) : Dev :=
  d.tbIssue ((if bit w 0 then [1] else []) ++ (if bit w 1 then [2] else []) ++ (if bit w 2 then [3] else []))

/-- FB_PGCMD of a region. -/
def Dev.pgCommand (d : Dev) (r w : Nat) : Dev :=
  let p := bits w 4 6
  match bits w 0 3 with
  | 1 => d.pgPrefetch r p
  | 2 => d.pgPin r p true
  | 3 => d.pgPin r p false
  | 4 => d.pgEvict r p
  | _ => d

/-- ST_MREP_CMD. -/
def State.repairCommand (s : State) (w : Nat) : State :=
  match bits w 30 2 with
  | 1 => s.on (fun d => d.repairApply (bits w 0 9) (bit w 9) (bits w 16 13))
  | 2 => s.repairClear (bits w 0 9)
  | _ => s

/-- A word written to a register that is not a command: its RW fields by their own rules, and W1C bits. -/
def Dev.fieldWrite (d : Dev) (r : Reg) (i w : Nat) : Dev := (d.rwWrite r i w).w1cWrite r i w

/-- A word written to a register of the Eaves domain or of a domain that is On. -/
def State.regWrite (s : State) (r : Reg) (i w : Nat) (flash : Option FlashFound) (seen : List EccSeen) : State :=
  match r with
  | .DM_SEL => s.dmSelect w seen
  | .ST_MREP_CMD => s.repairCommand w
  | .PW_CTL => s.on (fun d => d.request (bits w 0 3))
  | .PW_PADREL => s.on (fun d => d.padRelease (bits w 0 4))
  | .CF_CMD => s.on (fun d => d.cfCommand w flash)
  | .CF_RCV_DATA => s.on (fun d => d.rcvWrite w)
  | .TG_CMD => s.on (fun d => d.tgCommand w)
  | .TG_UL_CMD => s.on (fun d => d.ulCommand (bits w 0 3))
  | .TG_UL_RESP => s.on (fun d => d.wr F.TG_UL_RESP_TAG i w)
  | .TG_UL_GKEY => s.on (fun d => d.wr F.TG_UL_GKEY_KEY i w)
  | .SN_FIRE => s.on (fun d => if bit w 0 then d.fire 2 else d)
  | .SN_ARMALL => s.on (fun d => if bit w 0 then d.each d.allSlots (fun k d => d.armSlot k) else d)
  | .SN_BSLOT => s.on (fun d => if bit w 0 then d.armSlot (4096 + i) else d)
  | .UD_SNAP => s.on (fun d => if bit w 0 ∧ d.rd F.UD_IDENT_KIND i ≠ 0 then d.armSlot i else d)
  | .ST_MCMD => s.on (fun d => d.mbCommand w)
  | .ST_LCMD => s.on (fun d => d.lbCommand w)
  | .CL_CMD => s.on (fun d => d.clCommand w)
  | .TB_CMD => s.on (fun d => d.tbCommand w)
  | .TS_CLS_CMD => s.on (fun d => if bits w 0 2 = 0 then d else d.clsCommand (bits w 0 2) (bit w 2))
  | .FB_PGCMD => s.on (fun d => d.pgCommand i w)
  | _ => s.on (fun d => d.fieldWrite r i w)

/-- A host access to an address: an Eaves register, or one whose domain is On. -/
def Dev.served (d : Dev) (row : Nat) : Bool := decide (row = 0) || d.domOn row

def Dev.offAcc (d : Dev) : Dev := d.wrc F.PW_STS_OFFACC 0 1

/-- A host write of a word at a word address (R322, R372), power being good (R10). -/
def State.hostWrite (s : State) (a w : Nat) (flash : Option FlashFound) (seen : List EccSeen) : State :=
  if ! s.dev.pw.good then s
  else if inWindowSpace a then s.windowWrite (a - 0x600000) w (seen.headD .clean)
  else match s.dev.regAt a with
    | some (r, i) => if s.dev.served (regDomain r i) then s.regWrite r i w flash seen else s.on Dev.offAcc
    | none =>
      if (blockAt a).isNone then s.on (fun d => d.busSts F.MG_BUSSTS_UNMAPPED)
      else if s.dev.served (blockDomain a) then s else s.on Dev.offAcc

/-- What a read of a register leaves: RC fields at 0, or at 1 where an event of theirs coincides with the read (R68); a done
transaction slot is free (R261). -/
def Dev.readEffect (d : Dev) (r : Reg) (i : Nat) (coincident : Bool) : Dev :=
  let d1 := (r.fields.filter (fun f => decide (f.acc = .RC))).foldl (fun d f => d.wrc f i (b2n coincident)) d
  if r = .TG_SLOT_STS ∧ d1.rd F.TG_SLOT_STS_STATE i = 3 then d1.wr F.TG_SLOT_STS_STATE i 0 else d1

/-- A host read of a word address, power being good (R10), with the word returned. -/
def State.hostRead (s : State) (a : Nat) (coincident : Bool) (seen : EccSeen) : State × Nat :=
  if ! s.dev.pw.good then (s, 0)
  else if inWindowSpace a then
    let s1 := s.windowRead (a - 0x600000) seen
    (s1, s1.dev.mt.winRead)
  else match s.dev.regAt a with
    | some (r, i) =>
      if s.dev.served (regDomain r i) then (s.on (fun d => d.readEffect r i coincident), s.dev.word r i)
      else (s.on Dev.offAcc, 0)
    | none =>
      if (blockAt a).isNone then (s.on (fun d => d.busSts F.MG_BUSSTS_UNMAPPED), 0)
      else if s.dev.served (blockDomain a) then (s, 0) else (s.on Dev.offAcc, 0)

/-- REGISTER_WRITE. -/
def execRegisterWrite (addr : BitVec 24) (data : BitVec 32) (flash : Option FlashFound) (seen : List EccSeen) (s : State) :
    Host.Outcome State Fault Refusal :=
  .next (s.hostWrite (addr.toNat / 4 * 4) data.toNat flash seen)

/-- COUNTER_READ: the word returned is the part's last answer. -/
def execCounterRead (addr : BitVec 24) (coincident : Bool) (seen : EccSeen) (s : State) : Host.Outcome State Fault Refusal :=
  let r := s.hostRead (addr.toNat / 4 * 4) coincident seen
  .next (r.1.on (fun d => d.modMg (fun m => { m with readWords := [r.2] })))

end Sys2Proof.Machine
end

