-- ==== Sys2Proof/Machine/Bus.lean ====
section
/-! DEFINITION. The management bus: private transfers, the CCCs of Table 17.1, in-band interrupts and the Target Reset Pattern
(R369 to R377 of spec/17_management_registers.md). -/
namespace Sys2Proof.Machine

/-! ## Answering and waking -/

/-- The part answers a private transfer in a framing: after the straps are sampled, and once a dynamic address is assigned only
in I3C framing (R369, R375). -/
def Dev.answers (d : Dev) (i3c : Bool) : Bool := d.pw.good && (i3c || ! d.on F.MG_BUS_I3C)

/-- An address match is wake source 1 (R375). Requests made over the bus before it lie on earlier ticks, and what the access
itself writes on later ones (R367). -/
def Dev.addressMatch (d : Dev) : Dev :=
  if ! d.on F.PW_WAKEEN_ADDR then d
  else ((d.modPw (fun p => { p with undo := none })).wake 1 0 0).modPw (fun p => { p with wakeAt := none })

/-! ## Private transfers (R371 to R373) -/

/-- The whole words of a message's data octets, least significant octet first. -/
def wordsOf : List Byte → List Nat
  | a :: b :: c :: e :: rest => natLE [a, b, c, e] :: wordsOf rest
  | _ => []

/-- How many findings of the SECDED decoder a write to an address uses: one word of the window, or the record that DM_SEL
names. -/
def seenBy (a : Nat) : Nat := if inWindowSpace a then 1 else if a = 0x500030 then 16 else 0

/-- The current address advances by 4, from 0xFF_FFFC to 0 (R371). -/
def Dev.nextAddr (d : Dev) : Dev := d.modMg (fun m => { m with curAddr := (m.curAddr + 4) % 2 ^ 24 })

/-- Word `k` of a private write: written at the current address, or discarded where the write buffer is full. -/
def State.postWord (s : State) (k w : Nat) (full : List Nat) (flash : Option FlashFound) (seen : List EccSeen) : State :=
  (if full.contains k then s.on (fun d => d.busSts F.MG_BUSSTS_WBOVF)
   else s.hostWrite s.dev.mg.curAddr w flash seen).on Dev.nextAddr

/-- The words of a private write in order, with what the decoder finds as they are applied. -/
def State.postWords (s : State) (k : Nat) (ws : List Nat) (full : List Nat) (flash : Option FlashFound) (seen : List EccSeen) : State :=
  match ws with
  | [] => s
  | w :: rest =>
    let used := if full.contains k then 0 else seenBy s.dev.mg.curAddr
    (s.postWord k w full flash seen).postWords (k + 1) rest full flash (seen.drop used)

/-- Octets that a private write keeps: up to the maximum write length, and in I3C framing up to the first parity error. -/
def Dev.keptOctets (d : Dev) (i3c : Bool) (bytes : List BusByte) : List BusByte :=
  let b := bytes.take (d.rd F.MG_BUS_MWL)
  if i3c then b.takeWhile (fun x => x.parityOk) else b

/-- The bits of MG_BUSSTS that a private write sets before its words apply (R371, R372). -/
def Dev.writeErrors (d : Dev) (i3c : Bool) (bytes : List BusByte) : Dev :=
  let kept := d.keptOctets i3c bytes
  let mwl := d.rd F.MG_BUS_MWL
  let bad := decide (kept.length < min bytes.length mwl)
  let d1 := if mwl < bytes.length then d.busSts F.MG_BUSSTS_MWLOVF else d
  let d2 := if bad then d1.busSts F.MG_BUSSTS_PARITY else d1
  let d3 := if 3 < kept.length ∧ (kept.length - 3) % 4 ≠ 0 ∧ ! bad then d2.busSts F.MG_BUSSTS_PARTIAL else d2
  let d4 := match kept with
    | _ :: _ :: a :: _ => if a.val.toNat % 4 ≠ 0 then d3.busSts F.MG_BUSSTS_MISALIGN else d3
    | _ => d3
  d4.modMg (fun m => { m with nack := ! i3c && decide (mwl < bytes.length) })

/-- The address that a private write's first three octets give, bits [1:0] taken as 0. -/
def writeAddr (a b c : Byte) : Nat := (a.toNat * 65536 + b.toNat * 256 + c.toNat) / 4 * 4

/-- A private write. -/
def State.privateWrite (s : State) (i3c : Bool) (bytes : List BusByte) (full : List Nat) (flash : Option FlashFound)
    (seen : List EccSeen) : State :=
  if ! s.dev.answers i3c then s
  else
    let s1 := s.on Dev.addressMatch
    let kept := (s1.dev.keptOctets i3c bytes).map (fun b => b.val)
    let s2 := s1.on (fun d => d.writeErrors i3c bytes)
    match kept with
    | a :: b :: c :: data =>
      (s2.on (fun d => d.modMg (fun m => { m with curAddr := writeAddr a b c }))).postWords 0 (wordsOf data) full flash seen
    | _ => s2

/-- PRIVATE_WRITE. -/
def execPrivateWrite (i3c : Bool) (bytes : List BusByte) (full : List Nat) (flash : Option FlashFound) (seen : List EccSeen)
    (s : State) : Host.Outcome State Fault Refusal :=
  .next (s.privateWrite i3c bytes full flash seen)

/-- `n` words read from the current address on, word `k` first; the words go to the part's answer. -/
def State.readWords (s : State) (k n : Nat) (coincident : List Nat) (seen : List EccSeen) : State :=
  match n with
  | 0 => s
  | n + 1 =>
    let a := s.dev.mg.curAddr
    let r := s.hostRead a (coincident.contains k) (seen.headD .clean)
    let s1 := (r.1.on Dev.nextAddr).on (fun d => d.modMg (fun m => { m with readWords := m.readWords ++ [r.2] }))
    s1.readWords (k + 1) n coincident (if inWindowSpace a then seen.drop 1 else seen)

/-- A private read of a number of words, of which some are ready in time: in I3C framing the part NACKs the header, or ends the
read at the word that is not; in I2C framing it stretches SCL (R373). -/
def State.privateRead (s : State) (i3c : Bool) (words ready : Nat) (coincident : List Nat) (seen : List EccSeen) : State :=
  if ! s.dev.answers i3c then s
  else
    let s1 := (s.on Dev.addressMatch).on (fun d => d.modMg (fun m => { m with readWords := [], nack := i3c && decide (ready = 0) }))
    let s2 := s1.readWords 0 (if i3c then min words ready else words) coincident seen
    if i3c ∧ ready < words then s2.on (fun d => d.bump F.MG_CNT_NOTRDY_COUNT) else s2

/-- PRIVATE_READ. -/
def execPrivateRead (i3c : Bool) (words ready : Nat) (coincident : List Nat) (seen : List EccSeen) (s : State) :
    Host.Outcome State Fault Refusal :=
  .next (s.privateRead i3c words ready coincident seen)

/-! ## CCCs (R370) -/

/-- A CCC, taken once the part answers; a direct one matches its address. -/
def Dev.ccc (d : Dev) (direct : Bool) (g : Dev → Dev) : Dev :=
  if ! d.pw.good then d else g (if direct then d.addressMatch else d)

/-- The octets that a direct CCC returns. -/
def Dev.cccAnswer (d : Dev) (l : List Byte) : Dev := d.modMg (fun m => { m with cccData := l })

/-- ENEC. -/
def execEnec (direct enint : Bool) (s : State) : Host.Outcome State Fault Refusal :=
  s.upd (fun d => d.ccc direct (fun d => if enint then d.wr0 F.MG_BUS_ENINT 1 else d))

/-- DISEC. -/
def execDisec (direct enint : Bool) (s : State) : Host.Outcome State Fault Refusal :=
  s.upd (fun d => d.ccc direct (fun d => if enint then d.wr0 F.MG_BUS_ENINT 0 else d))

/-- RSTDAA. -/
def execRstdaa (s : State) : Host.Outcome State Fault Refusal :=
  s.upd (fun d => d.ccc false (fun d => (d.wr0 F.MG_BUS_I3C 0).wr0 F.MG_BUS_DA 0))

/-- ENTDAA: a part without a dynamic address takes the one assigned. -/
def execEntdaa (da : BitVec 7) (s : State) : Host.Outcome State Fault Refusal :=
  s.upd (fun d => d.ccc false (fun d =>
    if d.on F.MG_BUS_I3C then d else (d.wr0 F.MG_BUS_I3C 1).wr0 F.MG_BUS_DA da.toNat))

/-- SETMWL. -/
def execSetmwl (direct : Bool) (len : BitVec 16) (s : State) : Host.Outcome State Fault Refusal :=
  s.upd (fun d => d.ccc direct (fun d => if 7 ≤ len.toNat ∧ len.toNat ≤ 1027 then d.wr0 F.MG_BUS_MWL len.toNat else d))

/-- SETDASA: from the static address, which the part answers while it has no dynamic one. -/
def execSetdasa (static : BitVec 7) (da : BitVec 7) (s : State) : Host.Outcome State Fault Refusal :=
  s.upd (fun d =>
    if d.on F.MG_BUS_I3C ∨ static.toNat ≠ d.rd F.MG_BUS_SA then d
    else d.ccc true (fun d => (d.wr0 F.MG_BUS_I3C 1).wr0 F.MG_BUS_DA da.toNat))

/-- GETMWL, most significant octet first. -/
def execGetmwl (s : State) : Host.Outcome State Fault Refusal :=
  s.upd (fun d => d.ccc true (fun d => d.cccAnswer (bytesBE (d.rd F.MG_BUS_MWL) 2)))

/-- The provisioned ID of Table 17.1. -/
def Dev.pid (d : Dev) : Nat :=
  d.rd F.MG_MFR_MIPI * 2 ^ 33 + 0x6408 * 2 ^ 16 + d.rd F.CF_STS_ADDR_SEL * 2 ^ 12 + d.rd F.MG_ID_REV

/-- GETPID. -/
def execGetpid (s : State) : Host.Outcome State Fault Refusal :=
  s.upd (fun d => d.ccc true (fun d => d.cccAnswer (bytesBE d.pid 6)))

/-- GETBCR. -/
def execGetbcr (s : State) : Host.Outcome State Fault Refusal := s.upd (fun d => d.ccc true (fun d => d.cccAnswer [0x06]))

/-- GETDCR. -/
def execGetdcr (s : State) : Host.Outcome State Fault Refusal := s.upd (fun d => d.ccc true (fun d => d.cccAnswer [0x00]))

/-- The status word of GETSTATUS. -/
def Dev.statusWord (d : Dev) : Nat :=
  let alerts := ((List.range 14).filter (fun b => bit (d.rd F.MG_ALERT_ALERT) b && bit (d.rd F.MG_ALERTEN_EN) b)).length
  min alerts 15 + d.rd F.MG_BUSSTS_PARITY * 32 + d.rd F.PW_STS_DEV * 256 + d.rd F.CF_STS_BARE * 2048 + d.rd F.CF_STS_FULL * 4096

/-- GETSTATUS. -/
def execGetstatus (s : State) : Host.Outcome State Fault Refusal :=
  s.upd (fun d => d.ccc true (fun d => (d.cccAnswer (bytesBE d.statusWord 2)).wr0 F.MG_BUSSTS_PARITY 0))

/-- RSTACT: values other than 1 and 2 act as 0. -/
def execRstact (direct : Bool) (action : BitVec 8) (s : State) : Host.Outcome State Fault Refusal :=
  s.upd (fun d => d.ccc direct (fun d =>
    d.modMg (fun m => { m with rstact := if action.toNat = 1 ∨ action.toNat = 2 then action.toNat else 0 })))

/-- The bus front end resets: its registers (Table 17.9) but for the addresses, its current address and answers. -/
def Dev.busReset (d : Dev) : Dev :=
  let d1 := ((d.wr0 F.MG_BUS_ENINT 1).wr0 F.MG_BUS_MWL 259).wr0 F.MG_CNT_NOTRDY_COUNT 0
  let d2 := ((d1.wr0 F.MG_BUSSTS_WBOVF 0).wr0 F.MG_BUSSTS_MISALIGN 0).wr0 F.MG_BUSSTS_PARTIAL 0
  let d3 := ((d2.wr0 F.MG_BUSSTS_MWLOVF 0).wr0 F.MG_BUSSTS_UNMAPPED 0).wr0 F.MG_BUSSTS_PARITY 0
  d3.modMg (fun m => { m with curAddr := 0, readWords := [], cccData := [], nack := false })

/-- The part resets as by RESET_N (R341): at once, or after the wipe that runs. -/
def State.partReset (s : State) : State :=
  if s.dev.on F.MT_STS_WIPING then s.on (fun d => d.modPw (fun p => { p with resetDue := true })) else s.hardReset

/-- TARGET_RESET_PATTERN: the action of the last RSTACT, which then reverts to 1. -/
def execTargetResetPattern (s : State) : Host.Outcome State Fault Refusal :=
  .next (if ! s.dev.pw.good then s
    else
      let s1 := s.on (fun d => d.modMg (fun m => { m with rstact := 1 }))
      match s.dev.mg.rstact with
      | 1 => s1.on Dev.busReset
      | 2 => s1.partReset
      | _ => s1)

/-- IBI_REQUEST: at Bus Available the part requests an in-band interrupt for the bits set since the last one accepted, with the
lowest of them in its mandatory byte; a NACKed one is issued again (R377). -/
def execIbiRequest (acked : Bool) (s : State) : Host.Outcome State Fault Refusal :=
  s.upd (fun d =>
    if d.mg.ibi = 0 ∨ ! d.on F.MG_BUS_ENINT ∨ ! d.on F.MG_BUS_I3C then d
    else
      let d1 := d.modMg (fun m => { m with ibiByte := some (lowBit m.ibi), nack := ! acked })
      if acked then d1.modMg (fun m => { m with ibi := 0 }) else d1)

end Sys2Proof.Machine
end

