-- ==== Sys2Proof/Machine/Jtag.lean ====
section
/-! DEFINITION. The JTAG test port (R382, R383 of spec/17_management_registers.md).  It reaches no register, no memory and no
eFuse; an instruction that drives the pads takes every receiver's signal away. -/
namespace Sys2Proof.Machine

def Dev.modJtag (d : Dev) (g : JtagX → JtagX) : Dev := { d with jtag := g d.jtag }

/-- Receivers that see a signal lose it. -/
def Dev.signalsLost (d : Dev) : Dev :=
  d.each ((List.range 128).filter (fun l => d.on F.LN_STS_SIGDET l)) (fun l d => d.signalLost l false)

/-- An instruction is loaded: it selects a data register, and under those of R383 the pads are driven from the boundary register
until the part is back in service. -/
def Dev.jtagLoad (d : Dev) (ir : Nat) (bypass : Bool) : Dev :=
  let d1 := d.modJtag (fun j => { j with ir := ir, bypassed := bypass, out := j.out || jtagDrives ir })
  if jtagDrives ir ∧ ! d.jtag.out then d1.signalsLost else d1

/-- The identification register (Table 17.5). -/
def Dev.idcode (d : Dev) : Nat :=
  d.rd F.MG_ID_REV * 2 ^ 28 + 0x6408 * 2 ^ 12 + d.rd F.MG_MFR_JEP106 * 2 + 1

/-- EXTEST. -/
def execExtest (s : State) : Host.Outcome State Fault Refusal := s.upd (fun d => d.jtagLoad 0x00 false)

/-- IDCODE. -/
def execIdcode (s : State) : Host.Outcome State Fault Refusal :=
  s.upd (fun d => (d.jtagLoad 0x01 false).modJtag (fun j => { j with idcode := d.idcode }))

/-- SAMPLE/PRELOAD: the cells capture what stands at the pads, and the boundary register is preloaded. -/
def execSamplePreload (sampled preload : List Bool) (s : State) : Host.Outcome State Fault Refusal :=
  s.upd (fun d => (d.jtagLoad 0x02 false).modJtag (fun j => { j with captured := sampled, boundary := preload }))

/-- EXTEST_PULSE. -/
def execExtestPulse (s : State) : Host.Outcome State Fault Refusal := s.upd (fun d => d.jtagLoad 0x08 false)

/-- EXTEST_TRAIN. -/
def execExtestTrain (s : State) : Host.Outcome State Fault Refusal := s.upd (fun d => d.jtagLoad 0x09 false)

/-- CLAMP: bypass is selected. -/
def execClamp (s : State) : Host.Outcome State Fault Refusal := s.upd (fun d => d.jtagLoad 0x0E true)

/-- HIGHZ: bypass is selected. -/
def execHighz (s : State) : Host.Outcome State Fault Refusal := s.upd (fun d => d.jtagLoad 0x0F true)

/-- BYPASS under a code: 0xFF or one that Table 17.5 does not list; a listed code is that row's own instruction. -/
def execBypass (code : BitVec 8) (s : State) : Host.Outcome State Fault Refusal :=
  s.upd (fun d =>
    if [0x00, 0x01, 0x02, 0x08, 0x09, 0x0E, 0x0F].contains code.toNat then d else d.jtagLoad code.toNat true)

end Sys2Proof.Machine
end

