-- ==== Sys2Proof/Machine/LineCode.lean ====
section
/-! DEFINITION. Line codes as the lane sees them: 8b/10b and sync headers (R50 to R55 of
spec/02_lane_tier.md). -/
namespace Sys2Proof.Machine

/-- The 6-bit sub-block abcdei of data value x, in the column of negative running disparity. -/
def sixNeg (x : Nat) : Nat :=
  match x with
  | 0 => 0b100111 | 1 => 0b011101 | 2 => 0b101101 | 3 => 0b110001
  | 4 => 0b110101 | 5 => 0b101001 | 6 => 0b011001 | 7 => 0b111000
  | 8 => 0b111001 | 9 => 0b100101 | 10 => 0b010101 | 11 => 0b110100
  | 12 => 0b001101 | 13 => 0b101100 | 14 => 0b011100 | 15 => 0b010111
  | 16 => 0b011011 | 17 => 0b100011 | 18 => 0b010011 | 19 => 0b110010
  | 20 => 0b001011 | 21 => 0b101010 | 22 => 0b011010 | 23 => 0b111010
  | 24 => 0b110011 | 25 => 0b100110 | 26 => 0b010110 | 27 => 0b110110
  | 28 => 0b001110 | 29 => 0b101110 | 30 => 0b011110 | _ => 0b101011

def ones (n v : Nat) : Nat := countBits n v

/-- The 6-bit sub-block in the column of running disparity `pos`. -/
def six (x : Nat) (pos : Bool) : Nat :=
  let v := sixNeg x
  if pos ∧ (ones 6 v ≠ 3 ∨ v = 0b111000) then 63 - v else v

/-- Running disparity at the end of the 6-bit sub-block (R50). -/
def rdAfter6 (v : Nat) (pos : Bool) : Bool :=
  if 3 < ones 6 v ∨ v = 0b000111 then true
  else if ones 6 v < 3 ∨ v = 0b111000 then false
  else pos

/-- Running disparity at the end of the 4-bit sub-block (R50). -/
def rdAfter4 (v : Nat) (pos : Bool) : Bool :=
  if 2 < ones 4 v ∨ v = 0b0011 then true
  else if ones 4 v < 2 ∨ v = 0b1100 then false
  else pos

/-- The 4-bit sub-block fghj of D.x.y with the running disparity at its start (R50, alternate code). -/
def fourD (x y : Nat) (pos : Bool) : Nat :=
  match y with
  | 0 => if pos then 0b0100 else 0b1011
  | 1 => 0b1001
  | 2 => 0b0101
  | 3 => if pos then 0b0011 else 0b1100
  | 4 => if pos then 0b0010 else 0b1101
  | 5 => 0b1010
  | 6 => 0b0110
  | _ =>
    if ! pos ∧ (x = 17 ∨ x = 18 ∨ x = 20) then 0b0111
    else if pos ∧ (x = 11 ∨ x = 13 ∨ x = 14) then 0b1000
    else if pos then 0b0001 else 0b1110

/-- The code group of a data octet. -/
def encD (octet : Nat) (pos : Bool) : Nat :=
  let x := octet % 32
  let v := six x pos
  v * 16 + fourD x (octet / 32) (rdAfter6 v pos)

/-- The special code groups, in the column of negative running disparity: Table 2.7, and the other valid
control symbols of 8b/10b, which pass through (R53). -/
def specials : List (Nat × Nat) :=
  [(0x1C, 0b0011110100), (0x3C, 0b0011111001), (0x5C, 0b0011110101), (0x7C, 0b0011110011),
   (0x9C, 0b0011110010), (0xBC, 0b0011111010), (0xDC, 0b0011110110), (0xFC, 0b0011111000),
   (0xF7, 0b1110101000), (0xFB, 0b1101101000), (0xFD, 0b1011101000), (0xFE, 0b0111101000)]

def encK (g : Nat) (pos : Bool) : Nat := if pos then 1023 - g else g

/-- A code group of the column of running disparity `pos`: whether it is special, and its octet. -/
def decodeIn (g : Nat) (pos : Bool) : Option (Bool × Nat) :=
  match specials.find? (fun k => decide (encK k.2 pos = g)) with
  | some k => some (true, k.1)
  | none =>
    match (List.range 32).find? (fun x => decide (six x pos = g / 16)) with
    | none => none
    | some x =>
      match (List.range 8).find? (fun y => decide (encD (y * 32 + x) pos = g)) with
      | none => none
      | some y => some (false, y * 32 + x)

/-- Running disparity computed from a received code group (R50). -/
def rdOfGroup (g : Nat) (pos : Bool) : Bool := rdAfter4 (g % 16) (rdAfter6 (g / 16) pos)

/-- K28.5, which holds the comma pattern on which code groups are aligned (R52). -/
def isComma (g : Nat) : Bool := decide (g = 0b0011111010 ∨ g = 0b1100000101)

/-- A carried lane has its code groups or blocks again: LN_STS.LOCK is set where its CDR is locked too (Table 2.20). -/
def Dev.codeLock (d : Dev) (l : Nat) : Dev :=
  if (d.ks l = 2 ∨ d.ks l = 3) ∧ d.on F.LN_STS_SIGDET l ∧ ! (d.lane l).loss.contains .cdr then d.wrc F.LN_STS_LOCK l 1 else d

/-- A carried lane has lost them: a loss indication (R87). -/
def Dev.codeLost (d : Dev) (l : Nat) (c : LossCause) : Dev :=
  let d1 := d.wrc F.LN_STS_LOCK l 0
  if d1.ks l = 2 ∨ d1.ks l = 3 then (d1.modLane l (fun x => x.indicate c)).handoverCut l else d1

/-- K30.7 with correct running disparity (R54). -/
def k307 (pos : Bool) : Nat := encK 0b0111101000 pos

/-- The course of a lane decodes it. -/
def Dev.decodes (d : Dev) (l : Nat) : Bool := (d.laneCourse (laneTp l)).elim false (fun n => d.decodedMode n)

/-- Steps 2 and 3 of Table 3.11 run on a lane. -/
def Dev.recovering (d : Dev) (l : Nat) : Bool := decide (d.ks l = 4 ∨ d.ks l = 5)

/-- What is sent on for a received code group: in Straight-through the group itself; in Decoded mode its symbol encoded anew, K30.7 in
place of one that is invalid, and, during steps 2 and 3, of one that cannot be recovered (R54, R88, R140). `sym` is none in both cases. -/
def Dev.sendGroup (d : Dev) (l g : Nat) (sym : Option (Bool × Nat)) : Dev :=
  let rd := (d.lane l).txRd
  let out : Nat := if ! d.decodes l then g
    else match sym with
      | none => k307 rd
      | some (k, o) => if k then encK ((specials.find? (fun p => decide (p.1 = o))).elim 0 (fun p => p.2)) rd else encD o rd
  d.modLane l (fun x => { x with txGroup := BitVec.ofNat 10 out, txRd := rdOfGroup out rd, txError := d.decodes l && sym.isNone })

/-- A code group arrives on a boundary: alignment, then the check of R51, then what is sent on (R52 to R54, R88, R140). -/
def Dev.codeGroup (d : Dev) (l g phase : Nat) : Dev :=
  let x := d.lane l
  let comma := isComma g
  -- alignment (R52)
  let gained := ! x.aligned && comma && decide (x.comma = some phase)
  let x1 : LaneX :=
    if comma ∧ ! x.aligned then { (if gained then x.clears [.codeGroup] else x) with comma := some phase, aligned := gained } else x
  let rd0 : Option Bool := if gained ∧ x.rd.isNone then some (rdAfter4 (g % 16) (rdAfter6 (g / 16) false)) else none
  if rd0.isSome then ((d.modLane l (fun _ => { x1 with rd := rd0, invHist := [] })).sendGroup l g (some (true, 0xBC))).codeLock l
  else if ! x1.aligned then
    let d1 := d.modLane l (fun _ => x1)
    if d1.recovering l ∨ ! d1.decodes l then d1.sendGroup l g none else d1
  else
    let pos := x1.rd.getD false
    let here := decodeIn g pos
    let there := decodeIn g (! pos)
    let invalid := here.isNone && there.isNone
    let d1 :=
      if invalid then d.bump F.LN_CNT_INV_COUNT l
      else if here.isNone then d.bump F.LN_CNT_DISP_COUNT l else d
    let rd1 := if invalid then pos else rdOfGroup g pos
    let hist := (invalid :: x1.invHist).take 16
    let lost := decide (4 ≤ (hist.filter (fun b => b)).length)
    let d2 := (d1.modLane l (fun _ =>
      { x1 with rd := some rd1, invHist := if lost then [] else hist, aligned := ! lost
                comma := if lost then none else x1.comma })).sendGroup l g (here.or there)
    if lost then d2.codeLost l .codeGroup else if gained then d2.codeLock l else d2

/-- What is sent on for a received block: the block, its header included (R56, R140); in its place, during steps 2 and 3 of Table 3.11 on
a Decoded Ethernet or CPRI lane whose data cannot be recovered, an error control block (R88). -/
def Dev.sendBlock (d : Dev) (l h : Nat) (bad : Bool) : Dev :=
  let pcie := (d.laneCourse (laneTp l)).any (fun n => decide (d.proto n = .pcie))
  let err := d.decodes l && ! pcie && d.recovering l && (bad || ! (d.lane l).blockLock)
  d.modLane l (fun x => { x with txHeader := if err then 2 else BitVec.ofNat 2 h, txError := err })

/-- A sync header arrives: R55. Block lock of 64b/66b needs 64 valid headers in a row and is lost at 16
invalid of any 64; for 128b/130b the header is checked only. -/
def Dev.syncHeader (d : Dev) (l h : Nat) : Dev :=
  let bad := decide (h = 0 ∨ h = 3)
  let d1 := (if bad then d.bump F.LN_CNT_SHDR_COUNT l else d).sendBlock l h bad
  let x := d1.lane l
  let is66 := ((rateRow x.rxRate).elim true (fun r => decide (r.code ≠ .c128b130)))
  if ! is66 then d1
  else if x.blockLock then
    let hist := (bad :: x.hdrHist).take 64
    if 16 ≤ (hist.filter (fun b => b)).length then
      (d1.modLane l (fun x => { x with blockLock := false, hdrHist := [], hdrRun := 0 })).codeLost l .blockLock
    else d1.modLane l (fun x => { x with hdrHist := hist })
  else if bad then d1.modLane l (fun x => { x with hdrRun := 0 })
  else if x.hdrRun + 1 = 64 then
    (d1.modLane l (fun x => { x.clears [.blockLock] with blockLock := true, hdrRun := 0, hdrHist := [] })).codeLock l
  else d1.modLane l (fun x => { x with hdrRun := x.hdrRun + 1 })

/-- CODE_GROUP_RECEIVED. -/
def execCodeGroupReceived (tp : Fin 64) (side : Side) (group : BitVec 10) (phase : Fin 10) (s : State) :
    Host.Outcome State Fault Refusal :=
  s.upd (fun d => d.codeGroup (laneIx tp side) group.toNat phase)

/-- SYNC_HEADER_RECEIVED. -/
def execSyncHeaderReceived (tp : Fin 64) (side : Side) (header : BitVec 2) (s : State) :
    Host.Outcome State Fault Refusal :=
  s.upd (fun d => d.syncHeader (laneIx tp side) header.toNat)

end Sys2Proof.Machine
end

