-- ==== Sys2Proof/Machine/Train.lean ====
section
/-! DEFINITION. Course timers and Ethernet training: auto-negotiation, training frames, coefficient requests and
the segment timers (spec/03_courses_datapaths.md Table 3.6, spec/04_training_ethernet_cpri.md). -/
namespace Sys2Proof.Machine

/-- T_ALLSQ_EXPIRY (row 17). -/
def execTAllsqExpiry (course : Fin 512) (s : State) : Host.Outcome State Fault Refusal :=
  s.upd (fun d => if (d.course course).tAllsq then d.courseEval course { allsqExpired := true } else d)

/-- T_HOLD_EXPIRY (row 13). -/
def execTHoldExpiry (course : Fin 512) (s : State) : Host.Outcome State Fault Refusal :=
  s.upd (fun d => if (d.course course).tHold then d.courseEval course { holdExpired := true } else d)

/-- BACKOFF_END (R82): BACKOFF := min(BACKOFF + 1, 7), and Table 3.7 is evaluated afresh. -/
def execBackoffEnd (course : Fin 512) (s : State) : Host.Outcome State Fault Refusal :=
  s.upd (fun d =>
    let n := course.val
    if (d.course n).backoff then
      let d1 := d.modCourse n (fun c => { c with backoff := false, stepEnd := d.now })
      (d1.wr F.CS_STS_BACKOFF n (min (d1.rd F.CS_STS_BACKOFF n + 1) 7)).courseEval n
    else d)

/-! ## Clause 73 -/

/-- Acknowledge and Next Page of a Clause 73 page: bits D14 and D15. -/
def pageAck (p : BitVec 48) : Bool := p.getLsbD 14
def pageNext (p : BitVec 48) : Bool := p.getLsbD 15

/-- Record a page in CS_ETH_PGx (Table 4.9). -/
def Dev.recordPage (d : Dev) (k : Nat) (isNext : Bool) (page : BitVec 48) : Dev :=
  if isNext then d.bump F.CS_ETH_PG_HI_NPCNT k
  else
    ((d.wr F.CS_ETH_PG_LO_PAGE_LO k (page.toNat % 2 ^ 32)).wr F.CS_ETH_PG_HI_PAGE_HI k (page.toNat / 2 ^ 32)).wr
      F.CS_ETH_PG_HI_VALID k 1

/-- The resolution of both segments, written as both complete (R96). -/
def Dev.writeResolution (d : Dev) (n : Nat) : Dev :=
  let a := (d.seg (2 * n)).pages
  let b := (d.seg (2 * n + 1)).pages
  let hcd := hcdOf (Config.clause73Hcd a b).toNat
  ((d.wr F.CS_ETH_RES_HCD n hcd).wr F.CS_ETH_RES_FEC n (fecOf hcd (Config.clause73Fec a b).toNat)).wr
    F.CS_ETH_RES_EEE_ADV n (b2n (Config.clause73Eee a b))

/-- A page arrives on a segment in Negotiate: recorded, forwarded on the other side's logical lane 0 unless the other segment is in Train
or Ready (R97); a page forwarded is decoded, and where it completes the resolution, DONE is set (R96). -/
def Dev.pageInNegotiate (d : Dev) (n : Nat) (s : Side) (isNext : Bool) (page : BitVec 48) : Dev :=
  let k := segIx n s
  let o := segIx n (otherSide s)
  let d1 := d.recordPage k isNext page
  let oth := d1.segState n (otherSide s)
  if oth = 2 ∨ oth = 3 then d1
  else
    let d2 := ((d1.modSeg k (fun x => { x with pages := x.pages ++ [page] })).modSeg o
      (fun x => { x with sentPage := some page })).forwardIdle n s false
    if pageAck page ∧ ! pageNext page then
      let done := if s = .a then F.CS_ETH_RES_DONE_A else F.CS_ETH_RES_DONE_B
      let d3 := (d2.modSeg k (fun x => { x with done := true })).wrc done n 1
      if (d3.seg o).done then d3.writeResolution n else d3
    else d2

/-- CLAUSE73_PAGE: the end of a page that began on the tick `began`. A page in progress at the end of a back-off step is ignored
(R82). -/
def execClause73Page (course : Fin 512) (side : Side) (isNext : Bool) (page : BitVec 48) (began : Nat) (s : State) :
    Host.Outcome State Fault Refusal :=
  s.upd (fun d =>
    let n := course.val
    let ks := d.rd F.CS_STS_KSTATE n
    if d.proto n ≠ .eth ∨ ! d.on F.CS_CTL_AN n ∨ d.rd F.CS_CTL_ROLE n = 1 ∨ ks = 0 ∨ ks = 7 ∨ (d.course n).backoff
        ∨ began < (d.course n).stepEnd then d
    else
      let d1 :=
        if ks = 1 then d.courseEval n { page := true }
        else if ks = 4 ∨ ks = 5 ∨ ks = 6 then d.courseEval n { restart := some true }
        else if d.segState n side = 2 ∨ d.segState n side = 3 then d.segLost n side true
        else d
      if d1.segState n side = 1 then (d1.pageInNegotiate n side isNext page).courseEval n else d1)

/-! ## Training frames -/

/-- The part's own next request on a receiver that is not trained yet: a coefficient request, which only a receiver whose ADAPT is
Continuous makes (R100, R101). -/
def Dev.ownRequestOn (d : Dev) (l : Nat) (trained : Bool) : Dev :=
  if trained ∨ d.rd F.LN_RX_EQ_ADAPT l ≠ 0 then d
  else (d.modLane l (fun x => { x with ownRequest := some (.further (Config.ownRequest d.draws)) })).draw

/-- TRAINING_FRAME: acted on locally, nothing of it crossing to the other segment (R100). `trained`: the part's receiver on the lane
meets R101; `partnerReady` and `precoding`: what the frame's status field says.  CS_ETH_TRx.PREC_RX has one bit for a segment's
lanes: the last frame of any of them sets it (log entry 82). -/
def execTrainingFrame (course : Fin 512) (side : Side) (lane : Fin 8) (trained partnerReady precoding : Bool)
    (s : State) : Host.Outcome State Fault Refusal :=
  s.upd (fun d =>
    let n := course.val
    let k := segIx n side
    if d.proto n ≠ .eth then d
    else if d.inService n then
      if d.on F.CS_CTL_AN n then d else d.courseEval n { restart := some false }
    else if d.trains n ∧ d.rd F.CS_STS_KSTATE n = 3 ∧ d.segState n side = 2 then
      match d.logicalTp n lane with
      | none => d
      | some tp =>
        let l := laneIx tp side
        let ok := trained || decide (d.rd F.LN_RX_EQ_ADAPT l ≠ 0)
        let lr := d.rd F.CS_ETH_TR_LRDY k
        let pr := d.rd F.CS_ETH_TR_PRDY k
        let b := lane.val
        let lr' := if ok ∧ ! bit lr b then lr + 2 ^ b else lr
        let pr' := if partnerReady then (if bit pr b then pr else pr + 2 ^ b) else (if bit pr b then pr - 2 ^ b else pr)
        let d1 := ((d.wrc F.CS_ETH_TR_LRDY k lr').wrc F.CS_ETH_TR_PRDY k pr').wrc F.CS_ETH_TR_PREC_RX k (b2n precoding)
        let d2 := (d1.modSeg k (fun x => { x with ended := false })).ownRequestOn l ok
        ((d2.receiverReady n).segsReady n).courseEval n
    else d)

/-- The answers of Table 4.3, as the model numbers them. -/
def ansNotUpdated : Nat := 0
def ansUpdated : Nat := 1
def ansMaximum : Nat := 2
def ansMinimum : Nat := 3
def ansNotSupported : Nat := 4

def Dev.answer (d : Dev) (l code : Nat) : Dev := d.modLane l (fun x => { x with answer := code })

/-- The training clause of the course whose lane takes requests now: an Ethernet course in Train whose PHY
type trains. -/
def Dev.requestClause (d : Dev) (l : Nat) : Nat :=
  match d.laneCourse (laneTp l) with
  | none => 0
  | some n =>
    if d.proto n = .eth ∧ d.rd F.CS_STS_KSTATE n = 3 then phyClause (d.rd F.CS_ETH_CFG_PHY n) else 0

/-- A request for the part's transmitter: ignored where no training runs, answered with no change under
MANUAL (R104). -/
def Dev.coefRequest (d : Dev) (l : Nat) (g : Nat → Dev → Dev) : Dev :=
  let c := d.requestClause l
  if c = 0 then d
  else if d.on F.LN_CTL_MANUAL l then d.answer l ansNotUpdated
  else g c d

/-- One step of a tap with its compensating tap (Table 4.3). -/
def stepTaps (t : Taps) (tap : Tap) (up : Bool) : Taps :=
  let s : Int := if up then 1 else -1
  let grow (x : Int) : Int := if x.natAbs < (x + s).natAbs then -1 else 1
  match tap with
  | .cm3 => { t with cm3 := t.cm3 + s, c0 := t.c0 + grow t.cm3 }
  | .cm2 => { t with cm2 := t.cm2 + s, c0 := t.c0 + grow t.cm2 }
  | .cm1 => { t with cm1 := t.cm1 + s, c0 := t.c0 + grow t.cm1 }
  | .cp1 => { t with cp1 := t.cp1 + s, c0 := t.c0 + grow t.cp1 }
  | .c0 => { t with c0 := t.c0 + s, cp1 := t.cp1 + s }

/-- COEFFICIENT_HOLD: nothing changes, Not updated. -/
def execCoefficientHold (tp : Fin 64) (side : Side) (s : State) : Host.Outcome State Fault Refusal :=
  s.upd (fun d => d.coefRequest (laneIx tp side) (fun _ d => d.answer (laneIx tp side) ansNotUpdated))

/-- COEFFICIENT_UPDATE. -/
def execCoefficientUpdate (tp : Fin 64) (side : Side) (tap : Tap) (inc : Bool) (s : State) :
    Host.Outcome State Fault Refusal :=
  s.upd (fun d => d.coefRequest (laneIx tp side) (fun c d =>
    let l := laneIx tp side
    if (tap = .cm3 ∨ tap = .cm2) ∧ (c = 72 ∨ c = 136) then d.answer l (if c = 72 then ansNotUpdated else ansNotSupported)
    else
      let t := stepTaps (d.taps l) tap inc
      if t.ok then (d.setTaps l t).answer l ansUpdated
      else d.answer l (if inc then ansMaximum else ansMinimum)))

/-- PRESET_REQUEST (R103). -/
def execPresetRequest (tp : Fin 64) (side : Side) (k : Fin 8) (s : State) : Host.Outcome State Fault Refusal :=
  s.upd (fun d => d.coefRequest (laneIx tp side) (fun c d =>
    match presetTaps k c with
    | some t => (d.setTaps (laneIx tp side) t).answer (laneIx tp side) ansUpdated
    | none => d.answer (laneIx tp side) ansNotSupported))

/-- INITIALIZE_REQUEST (R103): Clause 72 procedure only; under another clause it is answered as not supported, as a preset that the
clause does not define is (log entry 82). -/
def execInitializeRequest (tp : Fin 64) (side : Side) (s : State) : Host.Outcome State Fault Refusal :=
  s.upd (fun d => d.coefRequest (laneIx tp side) (fun c d =>
    if c = 72 then (d.setTaps (laneIx tp side) initializeTaps).answer (laneIx tp side) ansUpdated
    else d.answer (laneIx tp side) ansNotSupported))

/-- PRECODER_REQUEST (R105). CS_ETH_TRx.PREC_TX, one bit for the segment, is 1 where any lane precodes (log entry 82). -/
def execPrecoderRequest (tp : Fin 64) (side : Side) (on : Bool) (s : State) : Host.Outcome State Fault Refusal :=
  s.upd (fun d => d.coefRequest (laneIx tp side) (fun _ d =>
    let l := laneIx tp side
    match d.laneCourse tp with
    | none => d
    | some n =>
      if ratePam4 (d.rd F.CS_RATE_RATE n) then
        let d1 := (d.modLane l (fun x => { x with precode := on })).answer l ansUpdated
        d1.wrc F.CS_ETH_TR_PREC_TX (segIx n side) (b2n ((d1.courseSideLanes n side).any (fun m => (d1.lane m).precode)))
      else d.answer l ansNotUpdated))

/-! ## Segment timers (Table 4.6) -/

/-- A segment is in Negotiate, Train or Ready. -/
def Dev.segBusy (d : Dev) (n : Nat) (s : Side) : Bool :=
  decide (d.segState n s = 1 ∨ d.segState n s = 2 ∨ d.segState n s = 3)

/-- TNEG_EXPIRY: a timeout (row 12). -/
def execTnegExpiry (course : Fin 512) (side : Side) (s : State) : Host.Outcome State Fault Refusal :=
  s.upd (fun d =>
    if (d.seg (segIx course side)).tneg ∧ (d.segState course side = 1 ∨ d.segState course side = 2) then
      ((d.modSeg (segIx course side) (fun x => { x with tneg := false })).segLost course side false).courseEval course
    else d)

/-- PARTNER_SILENCE_EXPIRY: the partner is lost (row 12). -/
def execPartnerSilenceExpiry (course : Fin 512) (side : Side) (s : State) : Host.Outcome State Fault Refusal :=
  s.upd (fun d =>
    if (d.seg (segIx course side)).silence ∧ d.segBusy course side then
      ((d.modSeg (segIx course side) (fun x => { x with silence := false })).segLost course side true).courseEval course
    else d)

/-- TTRAIN_EXPIRY: a timeout (row 12). -/
def execTtrainExpiry (course : Fin 512) (side : Side) (s : State) : Host.Outcome State Fault Refusal :=
  s.upd (fun d =>
    if (d.seg (segIx course side)).ttrain ∧ d.segState course side = 2 then
      ((d.modSeg (segIx course side) (fun x => { x with ttrain := false })).segLost course side false).courseEval course
    else d)

/-- T_DATA_EXPIRY: data did not start after RR_SENT (row 12). -/
def execTDataExpiry (course : Fin 512) (side : Side) (s : State) : Host.Outcome State Fault Refusal :=
  s.upd (fun d =>
    if (d.seg (segIx course side)).tdata ∧ d.segState course side = 2 then
      ((d.modSeg (segIx course side) (fun x => { x with tdata := false })).segLost course side false).courseEval course
    else d)

/-- PARTNER_TRAINING_END: after RR_SENT, the partner has stopped sending training frames on every lane; the segment ends training
(R106, R107). -/
def execPartnerTrainingEnd (course : Fin 512) (side : Side) (s : State) : Host.Outcome State Fault Refusal :=
  s.upd (fun d =>
    let k := segIx course side
    if d.trains course ∧ d.segState course side = 2 ∧ d.on F.CS_ETH_TR_RR_SENT k then
      ((d.modSeg k (fun x => { x with ended := true, frames := false, askPrecode := false })).segsReady course).courseEval course
    else d)

/-- ALIGNMENT_MARKER_LOCK: a Decoded receive direction holds marker lock on every lane and has measured its
skew (R57, R107). In Run, a lane beyond 180 ns has lost alignment. -/
def execAlignmentMarkerLock (course : Fin 512) (side : Side) (skewNs : Nat) (last : Fin 64) (s : State) :
    Host.Outcome State Fault Refusal :=
  s.upd (fun d =>
    let n := course.val
    if ! d.decodedMode n ∨ d.rd F.CS_STS_KSTATE n = 0 then d
    else
      let d1 := d.modSeg (segIx n side) (fun x => { x with amLock := true, skewNs := skewNs, skewLast := last })
      let f := if side = .a then F.CS_SKEW_SKEW_AB else F.CS_SKEW_SKEW_BA
      let d2 := d1.wr f n (min (skewNs * 100) 0xFFFF)
      if d2.inService n then
        if skewNs ≤ 180 then d2.each (d2.courseSideLanes n side) (fun l d => d.modLane l (fun x => x.clears [.deskew]))
        else
          let l := laneIx last side
          if d2.ks l = 2 ∨ d2.ks l = 3 then (d2.modLane l (fun x => x.indicate .deskew)).handoverCut l else d2
      else (d2.segsReady n).courseEval n)

end Sys2Proof.Machine
end

