-- ==== Sys2Proof/Machine/Dispatch.lean ====
section
/-! DEFINITION. One arm per command, each a direct call of its meaning. -/
namespace Sys2Proof.Machine

def exec (i : Instr) (s : State) : Host.Outcome State Fault Refusal :=
  match i with
  | .powerGood bootSel profile addrSel => Sys2Proof.Machine.execPowerGood bootSel profile addrSel s
  | .resetNLow => Sys2Proof.Machine.execResetNLow s
  | .regRdy => Sys2Proof.Machine.execRegRdy s
  | .pllRdy => Sys2Proof.Machine.execPllRdy s
  | .memRdy flash => Sys2Proof.Machine.execMemRdy flash s
  | .logicRdy loadFailed => Sys2Proof.Machine.execLogicRdy loadFailed s
  | .seqTimeout row => Sys2Proof.Machine.execSeqTimeout row s
  | .vddCoreFail => Sys2Proof.Machine.execVddCoreFail s
  | .synthesiserLock => Sys2Proof.Machine.execSynthesiserLock s
  | .healthPublish id => Sys2Proof.Machine.execHealthPublish id s
  | .registerWrite addr data flash seen => Sys2Proof.Machine.execRegisterWrite addr data flash seen s
  | .counterRead addr coincident seen => Sys2Proof.Machine.execCounterRead addr coincident seen s
  | .udSnapArm id => Sys2Proof.Machine.execUdSnapArm id s
  | .snArmall => Sys2Proof.Machine.execSnArmall s
  | .pllLossOfLock bay n => Sys2Proof.Machine.execPllLossOfLock bay n s
  | .pllLock bay n => Sys2Proof.Machine.execPllLock bay n s
  | .refEdgesAppear ref => Sys2Proof.Machine.execRefEdgesAppear ref s
  | .refIdentified ref refid hz => Sys2Proof.Machine.execRefIdentified ref refid hz s
  | .refAbsent ref => Sys2Proof.Machine.execRefAbsent ref s
  | .refFrequencyChange ref => Sys2Proof.Machine.execRefFrequencyChange ref s
  | .refSpreadChange ref ppm above => Sys2Proof.Machine.execRefSpreadChange ref ppm above s
  | .lnCtlWrite tp side data => Sys2Proof.Machine.execLnCtlWrite tp side data s
  | .lnTxFfeWrite tp side data => Sys2Proof.Machine.execLnTxFfeWrite tp side data s
  | .lnRxEqWrite tp side data => Sys2Proof.Machine.execLnRxEqWrite tp side data s
  | .lnRxDfeWrite tp side j data => Sys2Proof.Machine.execLnRxDfeWrite tp side j data s
  | .lnRxFfeDataWrite tp side data => Sys2Proof.Machine.execLnRxFfeDataWrite tp side data s
  | .codeGroupReceived tp side group phase => Sys2Proof.Machine.execCodeGroupReceived tp side group phase s
  | .syncHeaderReceived tp side header => Sys2Proof.Machine.execSyncHeaderReceived tp side header s
  | .signalDetectAssert tp side => Sys2Proof.Machine.execSignalDetectAssert tp side s
  | .signalDetectDeassert tp side lpi => Sys2Proof.Machine.execSignalDetectDeassert tp side lpi s
  | .laneIdleExitLock tp side => Sys2Proof.Machine.execLaneIdleExitLock tp side s
  | .laneIdleExitFailure tp side => Sys2Proof.Machine.execLaneIdleExitFailure tp side s
  | .laneIdleQuietLimit tp side => Sys2Proof.Machine.execLaneIdleQuietLimit tp side s
  | .sliceFault tp side => Sys2Proof.Machine.execSliceFault tp side s
  | .standInGrant bay side => Sys2Proof.Machine.execStandInGrant bay side s
  | .standInLock bay side => Sys2Proof.Machine.execStandInLock bay side s
  | .lossIndication tp side cause => Sys2Proof.Machine.execLossIndication tp side cause s
  | .lossConfirmed tp side => Sys2Proof.Machine.execLossConfirmed tp side s
  | .reacquireLock tp side => Sys2Proof.Machine.execReacquireLock tp side s
  | .tReacqExpiry tp side => Sys2Proof.Machine.execTReacqExpiry tp side s
  | .rescueLock tp side => Sys2Proof.Machine.execRescueLock tp side s
  | .tRescueExpiry tp side => Sys2Proof.Machine.execTRescueExpiry tp side s
  | .squelchedLaneLock tp side => Sys2Proof.Machine.execSquelchedLaneLock tp side s
  | .handoverSwitch tp side phaseOffset => Sys2Proof.Machine.execHandoverSwitch tp side phaseOffset s
  | .tShadowExpiry tp side => Sys2Proof.Machine.execTShadowExpiry tp side s
  | .tAllsqExpiry course => Sys2Proof.Machine.execTAllsqExpiry course s
  | .tHoldExpiry course => Sys2Proof.Machine.execTHoldExpiry course s
  | .backoffEnd course => Sys2Proof.Machine.execBackoffEnd course s
  | .clause73Page course side isNext page began => Sys2Proof.Machine.execClause73Page course side isNext page began s
  | .trainingFrame course side lane trained partnerReady precoding => Sys2Proof.Machine.execTrainingFrame course side lane trained partnerReady precoding s
  | .coefficientHold tp side => Sys2Proof.Machine.execCoefficientHold tp side s
  | .coefficientUpdate tp side tap inc => Sys2Proof.Machine.execCoefficientUpdate tp side tap inc s
  | .presetRequest tp side k => Sys2Proof.Machine.execPresetRequest tp side k s
  | .initializeRequest tp side => Sys2Proof.Machine.execInitializeRequest tp side s
  | .precoderRequest tp side on => Sys2Proof.Machine.execPrecoderRequest tp side on s
  | .tnegExpiry course side => Sys2Proof.Machine.execTnegExpiry course side s
  | .partnerSilenceExpiry course side => Sys2Proof.Machine.execPartnerSilenceExpiry course side s
  | .ttrainExpiry course side => Sys2Proof.Machine.execTtrainExpiry course side s
  | .tDataExpiry course side => Sys2Proof.Machine.execTDataExpiry course side s
  | .incomingRateChange course side => Sys2Proof.Machine.execIncomingRateChange course side s
  | .rateIdentified course side rate => Sys2Proof.Machine.execRateIdentified course side rate s
  | .rateFollowLock course side => Sys2Proof.Machine.execRateFollowLock course side s
  | .hyperframeStart course side hfnsync => Sys2Proof.Machine.execHyperframeStart course side hfnsync s
  | .hfnholdExpiry course side latAb latBa => Sys2Proof.Machine.execHfnholdExpiry course side latAb latBa s
  | .receiverDetection course foundA foundB => Sys2Proof.Machine.execReceiverDetection course foundA foundB s
  | .orderedSetReceived course side lane os => Sys2Proof.Machine.execOrderedSetReceived course side lane os s
  | .speedChangeReady course rate => Sys2Proof.Machine.execSpeedChangeReady course rate s
  | .eqRequest tp side req => Sys2Proof.Machine.execEqRequest tp side req s
  | .eqPresetEvaluated course side lane errors => Sys2Proof.Machine.execEqPresetEvaluated course side lane errors s
  | .marginCommand course side lane rcvr cmd => Sys2Proof.Machine.execMarginCommand course side lane rcvr cmd s
  | .tbPllLock => Sys2Proof.Machine.execTbPllLock s
  | .tbPllHoldExpiry => Sys2Proof.Machine.execTbPllHoldExpiry s
  | .tbLoad => Sys2Proof.Machine.execTbLoad s
  | .tbStep => Sys2Proof.Machine.execTbStep s
  | .tbCapture => Sys2Proof.Machine.execTbCapture s
  | .timebaseWrite reg data => Sys2Proof.Machine.execTimebaseWrite reg data s
  | .frameIngress tp side frame => Sys2Proof.Machine.execFrameIngress tp side frame s
  | .frameCorrection tp side interp pout => Sys2Proof.Machine.execFrameCorrection tp side interp pout s
  | .latencyRemeasure course latAb latBa => Sys2Proof.Machine.execLatencyRemeasure course latAb latBa s
  | .ppsInEdge interp => Sys2Proof.Machine.execPpsInEdge interp s
  | .ppsInTimeMessage msg => Sys2Proof.Machine.execPpsInTimeMessage msg s
  | .ppsPulseTimeout => Sys2Proof.Machine.execPpsPulseTimeout s
  | .ppsMessageTimeout => Sys2Proof.Machine.execPpsMessageTimeout s
  | .ptpSample offset pathDelay valid clockClass => Sys2Proof.Machine.execPtpSample offset pathDelay valid clockClass s
  | .ptpSampleTimeout => Sys2Proof.Machine.execPtpSampleTimeout s
  | .qlReport slot side ql failed => Sys2Proof.Machine.execQlReport slot side ql failed s
  | .lineSlotWtrExpiry slot => Sys2Proof.Machine.execLineSlotWtrExpiry slot s
  | .lineSlotSecond slot xPhase zPhase ppm100 last => Sys2Proof.Machine.execLineSlotSecond slot xPhase zPhase ppm100 last s
  | .locktExpiry => Sys2Proof.Machine.execLocktExpiry s
  | .holdoverLimitExpiry => Sys2Proof.Machine.execHoldoverLimitExpiry s
  | .fmemValid => Sys2Proof.Machine.execFmemValid s
  | .ensembleMemberJoin slot => Sys2Proof.Machine.execEnsembleMemberJoin slot s
  | .ensembleGrouping => Sys2Proof.Machine.execEnsembleGrouping s
  | .tsCtlWrite data => Sys2Proof.Machine.execTsCtlWrite data s
  | .lrefCtlWrite slot data => Sys2Proof.Machine.execLrefCtlWrite slot data s
  | .ppsOutEdge => Sys2Proof.Machine.execPpsOutEdge s
  | .ppsOutPulseEnd => Sys2Proof.Machine.execPpsOutPulseEnd s
  | .todOutMessage => Sys2Proof.Machine.execTodOutMessage s
  | .clsInsert replace => Sys2Proof.Machine.execClsInsert replace s
  | .clsDelete => Sys2Proof.Machine.execClsDelete s
  | .clsLookup => Sys2Proof.Machine.execClsLookup s
  | .clsCommandDone seen => Sys2Proof.Machine.execClsCommandDone seen s
  | .insertionPlace tp side byteTimes deleted pte seen conf => Sys2Proof.Machine.execInsertionPlace tp side byteTimes deleted pte seen conf s
  | .insertedFrameStamp tp side interp pout conf => Sys2Proof.Machine.execInsertedFrameStamp tp side interp pout conf s
  | .maxwaitExpiry tp side pte seen conf => Sys2Proof.Machine.execMaxwaitExpiry tp side pte seen conf s
  | .engState => Sys2Proof.Machine.execEngState s
  | .timeRead slot => Sys2Proof.Machine.execTimeRead slot s
  | .esmcInfoPdu course => Sys2Proof.Machine.execEsmcInfoPdu course s
  | .qlFailed slot => Sys2Proof.Machine.execQlFailed slot s
  | .cstRead region course offset whole => Sys2Proof.Machine.execCstRead region course offset whole s
  | .trigReq region => Sys2Proof.Machine.execTrigReq region s
  | .cswReq region paged ctx => Sys2Proof.Machine.execCswReq region paged ctx s
  | .fbPaceWrite region data => Sys2Proof.Machine.execFbPaceWrite region data s
  | .pwDomWrite row data => Sys2Proof.Machine.execPwDomWrite row data s
  | .voltageSettled row => Sys2Proof.Machine.execVoltageSettled row s
  | .gutterInboundWord tp side word took => Sys2Proof.Machine.execGutterInboundWord tp side word took s
  | .gutterOutboundWord tp side word took => Sys2Proof.Machine.execGutterOutboundWord tp side word took s
  | .gutterUnderrun tp side between => Sys2Proof.Machine.execGutterUnderrun tp side between s
  | .sparReadWord port tag addr => Sys2Proof.Machine.execSparReadWord port tag addr s
  | .sparWriteWord port tag addr mask data => Sys2Proof.Machine.execSparWriteWord port tag addr mask data s
  | .sparReadBlock port tag addr => Sys2Proof.Machine.execSparReadBlock port tag addr s
  | .sparWriteBlock port tag addr beats => Sys2Proof.Machine.execSparWriteBlock port tag addr beats s
  | .sparResponse port tag ecc earlier => Sys2Proof.Machine.execSparResponse port tag ecc earlier s
  | .inflightPlaceFreed => Sys2Proof.Machine.execInflightPlaceFreed s
  | .contextSwitch region => Sys2Proof.Machine.execContextSwitch region s
  | .pageInComplete region poisoned crcOk seen => Sys2Proof.Machine.execPageInComplete region poisoned crcOk seen s
  | .pageInRetry region => Sys2Proof.Machine.execPageInRetry region s
  | .prefetch region pnum => Sys2Proof.Machine.execPrefetch region pnum s
  | .pagePin region pnum => Sys2Proof.Machine.execPagePin region pnum s
  | .pageUnpin region pnum => Sys2Proof.Machine.execPageUnpin region pnum s
  | .evict region pnum => Sys2Proof.Machine.execEvict region pnum s
  | .scrub bank seen => Sys2Proof.Machine.execScrub bank seen s
  | .windowRead addr seen => Sys2Proof.Machine.execWindowRead addr seen s
  | .windowWrite addr data seen => Sys2Proof.Machine.execWindowWrite addr data seen s
  | .guardedBlock block crc => Sys2Proof.Machine.execGuardedBlock block crc s
  | .resendRequest sparPort block crc => Sys2Proof.Machine.execResendRequest sparPort block crc s
  | .compatChange => Sys2Proof.Machine.execCompatChange s
  | .wipeComplete => Sys2Proof.Machine.execWipeComplete s
  | .enq requester port queue data pte => Sys2Proof.Machine.execEnq requester port queue data pte s
  | .deq requester port grp tgt pte seen => Sys2Proof.Machine.execDeq requester port grp tgt pte seen s
  | .notify requester port grp tgt => Sys2Proof.Machine.execNotify requester port grp tgt s
  | .queueStatus requester port queue => Sys2Proof.Machine.execQueueStatus requester port queue s
  | .queueSweepDone queue found => Sys2Proof.Machine.execQueueSweepDone queue found s
  | .gateOpen initiator => Sys2Proof.Machine.execGateOpen initiator s
  | .gateStage initiator slot addr data mask => Sys2Proof.Machine.execGateStage initiator slot addr data mask s
  | .commitImmediate initiator slot => Sys2Proof.Machine.execCommitImmediate initiator slot s
  | .commitBoundary initiator slot course => Sys2Proof.Machine.execCommitBoundary initiator slot course s
  | .commitMarker initiator slot course => Sys2Proof.Machine.execCommitMarker initiator slot course s
  | .gateAbort initiator slot => Sys2Proof.Machine.execGateAbort initiator slot s
  | .commitApply slot => Sys2Proof.Machine.execCommitApply slot s
  | .boundaryTimeout slot => Sys2Proof.Machine.execBoundaryTimeout slot s
  | .intervalEnd => Sys2Proof.Machine.execIntervalEnd s
  | .recordWrite poisoned => Sys2Proof.Machine.execRecordWrite poisoned s
  | .dmSelWrite seq seen => Sys2Proof.Machine.execDmSelWrite seq seen s
  | .recordCopyDone => Sys2Proof.Machine.execRecordCopyDone s
  | .tamperNConfirm => Sys2Proof.Machine.execTamperNConfirm s
  | .eavesSupplyGlitch => Sys2Proof.Machine.execEavesSupplyGlitch s
  | .dieTemperatureSample tier temp => Sys2Proof.Machine.execDieTemperatureSample tier temp s
  | .tamperEfuseProgram => Sys2Proof.Machine.execTamperEfuseProgram s
  | .clMeasure kind target nowait apply rept param => Sys2Proof.Machine.execClMeasure kind target nowait apply rept param s
  | .clRead kind target param => Sys2Proof.Machine.execClRead kind target param s
  | .clWrite kind target param => Sys2Proof.Machine.execClWrite kind target param s
  | .clCancel => Sys2Proof.Machine.execClCancel s
  | .calSliceGrant => Sys2Proof.Machine.execCalSliceGrant s
  | .calRunComplete run => Sys2Proof.Machine.execCalRunComplete run s
  | .mbistStart => Sys2Proof.Machine.execMbistStart s
  | .mbistStop => Sys2Proof.Machine.execMbistStop s
  | .mbistBlockStart => Sys2Proof.Machine.execMbistBlockStart s
  | .mbistBlockDone yielded fails => Sys2Proof.Machine.execMbistBlockDone yielded fails s
  | .repairApply bank column index => Sys2Proof.Machine.execRepairApply bank column index s
  | .repairClear bank => Sys2Proof.Machine.execRepairClear bank s
  | .repairComplete => Sys2Proof.Machine.execRepairComplete s
  | .lbistStart region npat => Sys2Proof.Machine.execLbistStart region npat s
  | .lbistStop => Sys2Proof.Machine.execLbistStop s
  | .lbistEnd sig count => Sys2Proof.Machine.execLbistEnd sig count s
  | .lbistWatchdog sig count => Sys2Proof.Machine.execLbistWatchdog sig count s
  | .laneTestStart tp side data => Sys2Proof.Machine.execLaneTestStart tp side data s
  | .laneTestStop tp side => Sys2Proof.Machine.execLaneTestStop tp side s
  | .snapInEdge rising => Sys2Proof.Machine.execSnapInEdge rising s
  | .snFire => Sys2Proof.Machine.execSnFire s
  | .timeMatch => Sys2Proof.Machine.execTimeMatch s
  | .snapOutPulseEnd => Sys2Proof.Machine.execSnapOutPulseEnd s
  | .reqActive => Sys2Proof.Machine.execReqActive s
  | .reqNap => Sys2Proof.Machine.execReqNap s
  | .reqRest => Sys2Proof.Machine.execReqRest s
  | .reqRestWithTimekeeping => Sys2Proof.Machine.execReqRestWithTimekeeping s
  | .reqOff => Sys2Proof.Machine.execReqOff s
  | .hostVoteWrite j data => Sys2Proof.Machine.execHostVoteWrite j data s
  | .domainEntryComplete row => Sys2Proof.Machine.execDomainEntryComplete row s
  | .domainExitComplete row loadOk => Sys2Proof.Machine.execDomainExitComplete row loadOk s
  | .regionQuiet region => Sys2Proof.Machine.execRegionQuiet region s
  | .holdrepExpiry => Sys2Proof.Machine.execHoldrepExpiry s
  | .wakeNLow => Sys2Proof.Machine.execWakeNLow s
  | .eavesTimerExpiry k => Sys2Proof.Machine.execEavesTimerExpiry k s
  | .padRelease groups => Sys2Proof.Machine.execPadRelease groups s
  | .flashIoTimeout flashByte => Sys2Proof.Machine.execFlashIoTimeout flashByte s
  | .yealmRead header yealm => Sys2Proof.Machine.execYealmRead header yealm s
  | .imageLastByte sig => Sys2Proof.Machine.execImageLastByte sig s
  | .handoverDeadline => Sys2Proof.Machine.execHandoverDeadline s
  | .reload flash => Sys2Proof.Machine.execReload flash s
  | .recover => Sys2Proof.Machine.execRecover s
  | .keyprog slot => Sys2Proof.Machine.execKeyprog slot s
  | .keyrevoke slot => Sys2Proof.Machine.execKeyrevoke slot s
  | .rcvabort => Sys2Proof.Machine.execRcvabort s
  | .recoveryDataWrite data => Sys2Proof.Machine.execRecoveryDataWrite data s
  | .privateWrite i3c bytes full flash seen => Sys2Proof.Machine.execPrivateWrite i3c bytes full flash seen s
  | .privateRead i3c words ready coincident seen => Sys2Proof.Machine.execPrivateRead i3c words ready coincident seen s
  | .enec direct enint => Sys2Proof.Machine.execEnec direct enint s
  | .disec direct enint => Sys2Proof.Machine.execDisec direct enint s
  | .rstdaa => Sys2Proof.Machine.execRstdaa s
  | .entdaa da => Sys2Proof.Machine.execEntdaa da s
  | .setmwl direct len => Sys2Proof.Machine.execSetmwl direct len s
  | .setdasa static da => Sys2Proof.Machine.execSetdasa static da s
  | .getmwl => Sys2Proof.Machine.execGetmwl s
  | .getpid => Sys2Proof.Machine.execGetpid s
  | .getbcr => Sys2Proof.Machine.execGetbcr s
  | .getdcr => Sys2Proof.Machine.execGetdcr s
  | .getstatus => Sys2Proof.Machine.execGetstatus s
  | .rstact direct action => Sys2Proof.Machine.execRstact direct action s
  | .targetResetPattern => Sys2Proof.Machine.execTargetResetPattern s
  | .ibiRequest acked => Sys2Proof.Machine.execIbiRequest acked s
  | .challenge => Sys2Proof.Machine.execChallenge s
  | .verify => Sys2Proof.Machine.execVerify s
  | .relock => Sys2Proof.Machine.execRelock s
  | .gkeyprog => Sys2Proof.Machine.execGkeyprog s
  | .unlockExpiry => Sys2Proof.Machine.execUnlockExpiry s
  | .challengeExpiry => Sys2Proof.Machine.execChallengeExpiry s
  | .extest => Sys2Proof.Machine.execExtest s
  | .idcode => Sys2Proof.Machine.execIdcode s
  | .samplePreload sampled preload => Sys2Proof.Machine.execSamplePreload sampled preload s
  | .extestPulse => Sys2Proof.Machine.execExtestPulse s
  | .extestTrain => Sys2Proof.Machine.execExtestTrain s
  | .clamp => Sys2Proof.Machine.execClamp s
  | .highz => Sys2Proof.Machine.execHighz s
  | .bypass code => Sys2Proof.Machine.execBypass code s
  | .laneAcquireLock tp side => Sys2Proof.Machine.execLaneAcquireLock tp side s
  | .alignmentMarkerLock course side skewNs last => Sys2Proof.Machine.execAlignmentMarkerLock course side skewNs last s
  | .partnerTrainingEnd course side => Sys2Proof.Machine.execPartnerTrainingEnd course side s
  | .partnerReceiverDetection course side => Sys2Proof.Machine.execPartnerReceiverDetection course side s
  | .patternCheckerLock tp side ev => Sys2Proof.Machine.execPatternCheckerLock tp side ev s
  | .keyProgrammingDone => Sys2Proof.Machine.execKeyProgrammingDone s

end Sys2Proof.Machine
end

