-- ==== Sys2Proof/Machine/Tick.lean ====
section
/-! DEFINITION. What 1 ns without a command brings: the counters of the specification that count time.  The queue's order stands
for time everywhere else. -/
namespace Sys2Proof.Machine

/-- Domain AT's counter adds 1 ns × (1 + TB_ADJ.RATE × 2^−16 × 10^−9) (R143 of spec/06_timebase.md), and the next command of TB_CMD that
waits takes effect (R148). -/
def Dev.tickTime (d : Dev) : Dev :=
  if d.domOn rowAT then { d with tb := { d.tb with acc := (((d.tb.acc + accNs : Nat) : Int) + d.rate).toNat } }.tbNext else d

/-- An Eaves timer counts in 1 ms (Table 14.22). -/
def Dev.tickTimer (d : Dev) (k : Nat) : Dev :=
  if ! d.on F.PW_ETIM_CTL_EN k || ! d.on F.PW_ETIM_CNT_CNT k then d
  else
    let ns := d.pw.etim.at k 0 + 1
    if ns < 1000000 then d.modPw (fun p => { p with etim := p.etim.put k ns })
    else if d.rd F.PW_ETIM_CNT_CNT k = 1 then d.etimFire k
    else (d.wr F.PW_ETIM_CNT_CNT k (d.rd F.PW_ETIM_CNT_CNT k - 1)).modPw (fun p => { p with etim := p.etim.put k 0 })

/-- The wait of R380, and TG_UL_LEFT of a timed unlock, at whose 0 the Gate relocks (R381 of
spec/17_management_registers.md). -/
def Dev.tickUnlock (d : Dev) : Dev :=
  let d1 := d.modMg (fun m => { m with ulWait := m.ulWait - 1 })
  if d1.ulState ≠ 2 ∨ ! d1.mg.ulTimed then d1
  else if d1.mg.ulNs + 1 < 1000000000 then d1.modMg (fun m => { m with ulNs := m.ulNs + 1 })
  else
    let d2 := (d1.wr0 F.TG_UL_LEFT_LEFT (d1.rd F.TG_UL_LEFT_LEFT - 1)).modMg (fun m => { m with ulNs := 0 })
    if d2.on F.TG_UL_LEFT_LEFT then d2 else d2.gateRelock

/-- TS_HOLD_T counts whole seconds in a holdover state (R172 of spec/07_holdover_services.md). -/
def Dev.tickHold (d : Dev) : Dev :=
  if ! d.domOn rowAT || decide (d.engState < 3) then d
  else if d.eng.holdNs + 1 < 1000000000 then d.modEng (fun e => { e with holdNs := e.holdNs + 1 })
  else ((d.bump F.TS_HOLD_T_HOLD_T).modEng (fun e => { e with holdNs := 0 })).engEval

/-- The loader takes a word from the receive buffer of a bus load (R356 of spec/15_boot_configuration.md). -/
def Dev.tickLoad (d : Dev) : Dev :=
  if d.on F.CF_RCV_STS_ACTIVE then d.modBoot (fun b => { b with rcv := b.rcv.drop 1, stream := b.stream ++ (b.rcv.take 1).flatMap (fun w => bytesLE w 4) }) else d

/-- RS-FEC symbols corrected by the lanes of the courses in service that carry RS-FEC (R56): free values, which no command brings. -/
def Dev.tickFec (d : Dev) : Dev :=
  let ns := (d.listed F.CS_RATE_FEC).filter (fun n => d.inService n && decide (d.rd F.CS_RATE_FEC n ≠ 3))
  d.each (ns.flatMap d.courseLanes) (fun l d => d.bumpBy F.LN_CNT_FECSYM_COUNT l (Config.fecSymbols d.now l))

/-- The engine's tick: its line slots, its clock outputs and the event PDUs follow what has changed. -/
def Dev.tickEngine (d : Dev) : Dev := if d.domOn rowAT then d.slotsFollow.tickClkout.esmcEvents else d

/-- A region that withdrew under a quiesce request, and that the wake finds On, votes again, and its requests are acknowledged (R325). -/
def Dev.regionsBack (d : Dev) : Dev :=
  let back := if d.on F.PW_STS_QREQ then [] else (d.fb.filter (fun p => p.2.quiet && d.domOn (rowL p.1))).map (fun p => p.1)
  d.each back (fun r d => ((d.modFb r (fun x => { x with quiet := false })).regionVotes r).admitWaiting)

/-- One nanosecond passes. -/
def Dev.tick (d : Dev) : Dev :=
  let d1 := { d with now := d.now + 1 }
  if ! d1.pw.good then d1
  else
    let d2 := d1.tickTime.tickEngine.tickUnlock.tickHold.tickLoad.tickFec.tickGutters
    (d2.each [0, 1, 2, 3] (fun k d => d.tickTimer k)).matchCheck.regionsBack

/-- One nanosecond passes, and the queue requests that may then be acknowledged are served. -/
def State.tick (s : State) : State :=
  let s1 := s.on Dev.tick
  if s1.dev.pu.waits.isEmpty then s1 else s1.serveWaits

end Sys2Proof.Machine
end

