-- ==== Sys2Proof/Safety.lean ====
section
/-! DEFINITION. What counts as a safe run: no step ends in a fault or a refusal, and Tier M keeps its canonical form. -/
namespace Sys2Proof.Machine

/-- A step from here answers a next state. -/
def Steps (s : State) : Prop := ∃ t, step s = .next t

/-- The part keeps Tier M in canonical form. -/
def State.wf (s : State) : Prop := Memory.wf s.mem = true

/-- `k` steps from here all answer, and end in a state in canonical form. -/
def SafeFor (k : Nat) (s : State) : Prop := ∃ t, Sys2Proof.core.run k s = .next t ∧ State.wf t

/-! ## The blocks of the register map -/

/-- The blocks of the register map by register name, and apart from them the registers that only accesses from the
    management bus write. -/
inductive Blk where
  | HOST | MG | PW | PWV | PWS | CF | TG | SN | ST | CL | UD | LN | LNF | LNP | LNT | CS | TB | TSU | TS | FB | MT |
    PU | DM
  deriving DecidableEq, Repr

/-- The block of a register. -/
def blk (r : Reg) (lo : Nat) : Blk :=
  match r with
  | .PW_DOM => if lo = 0 then .PWS else .PWV
  | .MG_ID | .MG_MFR | .MG_SCRATCH | .MG_ALERTEN | .MG_BUS | .PW_HOLDREP | .PW_WAKEEN | .PW_NAPSET | .PW_ACTSET |
    .PW_HVOTE | .CF_KEYH | .TG_UL_REQ | .TG_UL_RESP | .TG_UL_GKEY | .TG_ADDR | .TG_DATA | .TG_MASK | .SN_SRCEN |
    .SN_MATCH_S_LO | .SN_MATCH_S_HI | .SN_MATCH_NS | .SN_LOLMASK | .SN_SEL | .CL_PDT_SEL => .HOST
  | .MG_SERIAL_LO | .MG_SERIAL_HI | .MG_ALERT | .MG_FAULT_ID | .MG_BUSSTS | .MG_CNT_NOTRDY | .MG_TEMP => .MG
  | .PW_CTL | .PW_STS | .PW_HELD | .PW_HELD_CLO | .PW_HELD_CHI | .PW_LASTWAKE | .PW_PADREL | .PW_ETIM_CTL |
    .PW_ETIM_CNT => .PW
  | .PW_VB_LO | .PW_VB_HI => .PWV
  | .CF_STATUS | .CF_STS | .CF_RES | .CF_ITEM | .CF_FLASH | .CF_BUILD_LO | .CF_BUILD_HI | .CF_VERSION | .CF_TBARE |
    .CF_TFULL | .CF_CMD | .CF_CMDSTS | .CF_KEYSTS | .CF_RCV_STS | .CF_RCV_CNT | .CF_RCV_DATA => .CF
  | .TG_UL_CMD | .TG_UL_STS | .TG_UL_LEFT | .TG_UL_CHAL | .TG_CMD | .TG_RES | .TG_CNT_COMMIT | .TG_CNT_ABORT |
    .TG_SLOT_STS | .TG_SLOT_CONF => .TG
  | .SN_CTL | .SN_FIRE | .SN_LAST | .SN_TAG_S_LO | .SN_TAG_S_HI | .SN_TAG_NS | .SN_TAG_FRAC | .SN_CNT_EVT |
    .SN_CNT_MERGED | .SN_ARMALL | .SN_BSLOT | .SN_DATA => .SN
  | .ST_MCMD | .ST_MSTART | .ST_MEND | .ST_MSTS | .ST_MPROG | .ST_MSKIP | .ST_MFAIL_ADDR | .ST_MFAIL_BIT |
    .ST_MFAIL_CNT | .ST_MREP_CMD | .ST_MREP_STS | .ST_LCMD | .ST_LSTS | .ST_LSIG | .ST_LEXP | .ST_LCNT => .ST
  | .CL_CMD | .CL_STS | .CL_RES | .CL_SPREAD | .CL_VCAL | .CL_CALREF | .CL_PDT_DATA => .CL
  | .UD_IDENT | .UD_STATE | .UD_LINKS | .UD_VOTE | .UD_FAULT | .UD_SNAP | .UD_EVENTS | .UD_INDEX => .UD
  | .LN_IDLE_TQ | .LN_STS | .LN_CTL | .LN_TX_FFE | .LN_RX_EQ | .LN_RX_DFE | .LN_RX_FFE_SEL | .LN_RX_FFE_DATA |
    .LN_CNT_DISP | .LN_CNT_INV | .LN_CNT_SHDR | .LN_CNT_FECSYM | .LN_CNT_LOL | .LN_CNT_RESCUE | .LN_CNT_IDLE => .LN
  | .LN_FS_STS => .LNF
  | .LN_PLL_CTL | .LN_PLL_STS => .LNP
  | .LN_PT_CTL | .LN_PT_STS | .LN_PT_ERR | .LN_PT_BITS_LO | .LN_PT_BITS_HI => .LNT
  | .CS_CTL | .CS_RATE | .CS_LANES | .CS_CTX | .CS_STS | .CS_LAT | .CS_SKEW | .CS_TCHG_S | .CS_TCHG_NS | .CS_CNT_DEG
    | .CS_CNT_TRAIN | .CS_SEL | .CS_ETH_CFG | .CS_ETH_PG_LO | .CS_ETH_PG_HI | .CS_ETH_RES | .CS_ETH_TR |
    .CS_ETH_CNT_AN | .CS_CPRI_CFG | .CS_CPRI_STS | .CS_CPRI_CNT_RATE | .CS_PCI_CFG | .CS_PCI_STS | .CS_PCI_MRG |
    .CS_PCI_CNT_REC | .CS_PCI_CNT_SPD | .CS_PCI_CNT_NAK => .CS
  | .TB_CTL | .TB_STS | .TB_CMD | .TB_ADJ | .TB_SET_S_LO | .TB_SET_S_HI | .TB_SET_NS | .TB_STEP_NS | .TB_STEP_FRAC |
    .TB_CAP_S_LO | .TB_CAP_S_HI | .TB_CAP_NS | .TB_CAP_FRAC | .TB_CAP_FREE_LO | .TB_CAP_FREE_HI => .TB
  | .TSU_CTL | .TSU_STS | .TSU_INGD | .TSU_EGRD | .TSU_LAST_RES | .TSU_LAST_INFO | .TSU_CNT_CORR | .TSU_CNT_UNCORR |
    .TSU_CNT_SAT => .TSU
  | .TS_CTL | .TS_STS | .TS_TE | .TS_HOLD_T | .TS_SERVO | .TS_HOLD_CFG | .TS_PPS_IN | .TS_OUT_CTL | .TS_PPS_OFS |
    .TS_CLKOUT_CTL | .TS_CLKOUT_FREQ | .TS_LREF_CTL | .TS_LREF_STS | .TS_LREF_FOFS | .TS_LREF_STAB | .TS_SVC_STS |
    .TS_CLS_BASE | .TS_CLS_CMD | .TS_CLS_STS | .TS_CLS_KEY | .TS_CLS_ACT | .TS_IE_CTL | .TS_IE_STS | .TS_IE_CNT_EXT
    | .TS_IE_CNT_INS | .TS_IE_CNT_DROP | .TS_IE_CNT_LATE => .TS
  | .FB_CFG | .FB_STS | .FB_CTXSEL | .FB_PACE | .FB_PACE_STS | .FB_SLOT | .FB_PGCMD | .FB_PGSTS | .FB_GUTMAP |
    .FB_WIN_BASE | .FB_WIN_LIM | .FB_CNT_SW | .FB_CNT_PGIN | .FB_CNT_LATE | .FB_CNT_GOVF | .FB_CNT_GUNF |
    .FB_CNT_DENY => .FB
  | .MT_CTL | .MT_STS | .MT_INFLT | .MT_INFLT_MAX | .MT_WINBASE | .MT_WINSTS | .MT_ECCLOG_ADDR | .MT_ECCLOG_INFO |
    .MT_COLLIDE | .MT_COLLIDE_ADDR | .MT_POISON | .MT_POISON_ADDR | .MT_CNT_CE | .MT_CNT_UE | .MT_CNT_RESEND |
    .MT_CNT_POISON | .MT_CNT_DENY | .MT_CONF => .MT
  | .PU_STS | .PU_POOL | .PU_PTSEL | .PU_PTE_LO | .PU_PTE_HI | .PU_CNT_DROPCAP | .PU_CNT_DROPPOOL | .PU_CNT_PTCE |
    .PU_CNT_PTUE | .PU_GCFG | .PU_GMIN | .PU_GMAX | .PU_GUSED | .PU_QCFG | .PU_QLIM | .PU_QHEAD | .PU_QTAIL |
    .PU_QPAGES | .PU_QDEPTH | .PU_QSTS | .PU_QDROP => .PU
  | .DM_STS | .DM_SEALCNT | .DM_CFG | .DM_RING_ID_LO | .DM_RING_ID_HI | .DM_SEQ_OLD | .DM_SEQ_NEW | .DM_TAMPER |
    .DM_SEL | .DM_RSTS | .DM_MLIST | .DM_REC => .DM

/-! ## What a command leaves alone -/

/-- eFuse and the test port are untouched, and every field of every register outside the blocks `bs` reads as before. -/
def Dev.SameBut (bs : List Blk) (d e : Dev) : Prop :=
  e.fuse = d.fuse ∧ e.jtag = d.jtag ∧ ∀ (f : Fld) (i : Nat), blk f.reg f.lo ∉ bs → e.rd f i = d.rd f i

/-- eFuse, the test port and every register that only accesses from the management bus write are untouched. -/
def Dev.HostKept (d e : Dev) : Prop :=
  e.fuse = d.fuse ∧ e.jtag = d.jtag ∧ ∀ (f : Fld) (i : Nat), blk f.reg f.lo = .HOST → e.rd f i = d.rd f i

/-- The place of a field in the register file. -/
abbrev Fld.key (f : Fld) (i : Nat) : Key := ⟨f.reg, f.lo, i⟩

/-- eFuse and the test port are untouched, and every field but those listed reads as before. -/
def Dev.SameFields (ks : List Key) (d e : Dev) : Prop :=
  e.fuse = d.fuse ∧ e.jtag = d.jtag ∧ ∀ (f : Fld) (i : Nat), f.key i ∉ ks → e.rd f i = d.rd f i

/-- The command answers a next state with Tier M's bytes and the queue untouched, in which `P` holds of the part; of the registers
only those of the blocks `bs` may change. -/
def Runs (c : Instr) (s : State) (bs : List Blk) (P : Dev → Prop) : Prop :=
  ∃ t, exec c s = .next t ∧ t.mem = s.mem ∧ t.pending = s.pending ∧ Dev.SameBut bs s.dev t.dev ∧ P t.dev

/-- The same, where only the listed fields may change. -/
def RunsOn (c : Instr) (s : State) (ks : List Key) (P : Dev → Prop) : Prop :=
  ∃ t, exec c s = .next t ∧ t.mem = s.mem ∧ t.pending = s.pending ∧ Dev.SameFields ks s.dev t.dev ∧ P t.dev

/-- The command answers a next state with the queue untouched and eFuse, the test port and the host's registers as before,
in which `P` holds. -/
def RunsWide (c : Instr) (s : State) (P : State → Prop) : Prop :=
  ∃ t, exec c s = .next t ∧ t.pending = s.pending ∧ Dev.HostKept s.dev t.dev ∧ P t

/-- The command answers the state it met. -/
def Nothing (c : Instr) (s : State) : Prop := exec c s = .next s

/-! ## Device states -/

/-- The blocks that a device transition may change. -/
abbrev transitionBlks : List Blk := [.PW, .PWV, .MG, .UD, .TG, .SN, .DM, .CF]

/-- The transition to `t` runs, or has ended. -/
def Dev.goingTo (e : Dev) (t : Nat) : Prop :=
  (e.on F.PW_STS_BUSY = true ∧ e.rd F.PW_STS_TARGET = t) ∨ (e.on F.PW_STS_BUSY = false ∧ e.rd F.PW_STS_DEV = t)

/-- Power is good, and neither a transition nor a load runs, nor does a request or a wake wait. -/
def Dev.restful (d : Dev) : Prop :=
  d.pw.good = true ∧ d.on F.PW_STS_BUSY = false ∧ d.on F.CF_STS_LOADING = false ∧ d.rd F.PW_STS_PEND = 0 ∧ d.pw.wakeAt ≠ some d.now

/-- An address match on the management bus is no wake event here: it is no wake source, or the part rests in Active. -/
def Dev.awake (d : Dev) : Bool :=
  ! d.on F.PW_WAKEEN_ADDR || (decide (d.rd F.PW_STS_DEV = 1) && ! d.on F.PW_STS_BUSY)

/-! ## Courses -/

/-- The blocks that an evaluation of Table 3.7 may change. -/
abbrev courseBlks : List Blk := [.CL, .CS, .LN, .LNF, .LNP, .LNT, .MG, .PWV, .TSU, .UD]

/-- A course that is enabled, not held by a Span course, outside Disabled, and whose policy result is not Fault. -/
def Dev.courseUp (d : Dev) (n : Nat) : Bool :=
  d.on F.CS_CTL_ENABLE n && decide (d.rd F.CS_CTL_MODE n ≠ 0) && ! d.held n && decide (d.rd F.CS_STS_KSTATE n ≠ 0) && decide (d.coursePolicy n ≠ 4)

/-- A row of Table 3.7 applies, and does what `P` says. -/
def Dev.Row (d : Dev) (n : Nat) (e : CourseEv) (P : Dev → Prop) : Prop := ∃ d' e', d.courseRow n e = some (d', e') ∧ P d'

end Sys2Proof.Machine
end

