-- ==== Sys2Proof/Certificates/Slice0/Obligations.lean ====
section
/-! DEFINITION. The statements for the provers. -/
open Sys2Proof Sys2Proof.Machine

/-- One step takes the command at the front of the queue and runs it with the queue's rest. -/
def Obligations.StepRunsFront : Prop :=
  ∀ (c : Instr) (rest : List Instr) (s : State), step { s with pending := c :: rest } = exec c { s with pending := rest }

/-- The model's choice (log entry 2): an empty queue stands for 1 ns without a command; the timebase gains 1 ns × (1 + RATE). -/
def Obligations.IdleStepLetsTimePass : Prop :=
  ∀ s : State, s.pending = [] →
    ∃ t, step s = .next t ∧ t.pending = [] ∧ t.dev.fuse = s.dev.fuse ∧ t.dev.jtag = s.dev.jtag ∧ t.dev.now = s.dev.now + 1 ∧
      (s.dev.pu.waits = [] → t.mem = s.mem) ∧
      (s.dev.pw.good = false → s.dev.pu.waits = [] → t = { s with dev := { s.dev with now := s.dev.now + 1 } }) ∧
      (s.dev.pw.good = true → s.dev.domOn rowAT = true → s.dev.tb.waits = [] → s.dev.pu.waits = [] → s.dev.ulState ≠ 2 → s.dev.on F.SN_CTL_MATCH_EN = false →
        (∀ k : Nat, k < 4 → s.dev.on F.PW_ETIM_CTL_EN k = false) →
        t.dev.tb.acc = (((s.dev.tb.acc + accNs : Nat) : Int) + s.dev.rate).toNat)

/-- No command stops the part, and none adds, drops or reorders a waiting command. -/
def Obligations.QueueIsLeftAlone : Prop :=
  ∀ (c : Instr) (s : State), ∃ t, exec c s = .next t ∧ t.pending = s.pending

/-- An invariant of every step from every state: equal contents of Tier M are equal data. -/
def Obligations.TierMKeepsItsForm : Prop :=
  ∀ s t : State, State.wf s → step s = .next t → State.wf t

/-- Reset values that the field tables give, read in the state after reset. -/
def Obligations.ResetState : Prop :=
  State.wf State.reset ∧ State.reset.pending = [] ∧ State.reset.mem = [] ∧ State.reset.dev.pw.good = false ∧
  State.reset.dev.rd F.MG_ALERT_ALERT = 0 ∧ State.reset.dev.rd F.PW_STS_DEV = 1 ∧ State.reset.dev.rd F.PW_STS_BUSY = 0 ∧
  (∀ row : Nat, State.reset.dev.voteMask row = 0) ∧
  (∀ row : Nat, 0 < row → row < 77 → State.reset.dev.rd F.PW_DOM_STATE row = 0) ∧ State.reset.dev.rd F.PW_DOM_STATE 0 = 2 ∧
  State.reset.dev.rd F.TB_STS_MODE = 0 ∧ State.reset.dev.rd F.TB_STS_LOCK = 0 ∧
  (∀ n : Nat, n < 512 → State.reset.dev.rd F.CS_STS_KSTATE n = 0) ∧ (∀ l : Nat, l < 128 → State.reset.dev.rd F.LN_STS_KSTATE l = 0)

/-- Tables 14.6 and 15.2: each step answers a next state with its domains On. Where the sequence stands is the model's own state. -/
def Obligations.PowerUpSequence : Prop :=
  (∀ (bs : Fin 4) (pr ad : Fin 8) (s : State), s.dev.pw.good = false →
    Runs (.powerGood bs pr ad) s [.HOST, .PW, .PWV, .CF, .UD] (fun e => e.pw.good = true ∧ e.pw.seq = some 1 ∧
      e.rd F.CF_STS_BOOT_SEL = bs.val ∧ e.rd F.CF_STS_PROFILE = pr.val ∧ e.rd F.CF_STS_ADDR_SEL = ad.val ∧
      e.rd F.MG_BUS_SA = 0x58 + ad.val ∧ (bs.val = 3 → e.rd F.CF_STATUS_CODE = 0x0C))) ∧
  (∀ s : State, s.dev.pw.seq = some 1 →
    ∃ t, exec .regRdy s = .next t ∧ t.pending = s.pending ∧ t.dev.fuse = s.dev.fuse ∧ t.dev.jtag = s.dev.jtag ∧
      (s.dev.on F.PW_STS_BUSY = false → t.dev.rd F.PW_STS_STEP = 1 ∧ t.dev.pw.seq = some 2) ∧
      ∀ row : Nat, 1 ≤ row → row ≤ 8 → (s.dev.dom row).phase = .exiting → t.dev.rd F.PW_DOM_STATE row = 2) ∧
  (∀ s : State, s.dev.pw.seq = some 2 → s.dev.on F.PW_STS_BUSY = false → s.dev.pw.core = true →
    Runs .pllRdy s [.PW, .PWV] (fun e => e.rd F.PW_STS_STEP = 2 ∧ e.pw.seq = some 3)) ∧
  (∀ (flash : Option FlashFound) (s : State), s.dev.pw.seq = some 3 → s.dev.pw.core = true →
    ∃ t, exec (.memRdy flash) s = .next t ∧ t.pending = s.pending ∧ t.dev.fuse = s.dev.fuse ∧ t.dev.jtag = s.dev.jtag ∧
      (s.dev.on F.PW_STS_BUSY = false → t.dev.rd F.PW_STS_STEP = 3 ∧ t.dev.pw.seq = some 4) ∧
      ∀ row : Nat, row = rowM ∨ row = rowC → (s.dev.dom row).phase = .exiting → t.dev.rd F.PW_DOM_STATE row = 2) ∧
  (∀ (failed : List (Fin 64)) (s : State), s.dev.pw.seq = some 4 →
    ∃ t, exec (.logicRdy failed) s = .next t ∧ t.pending = s.pending ∧ t.dev.fuse = s.dev.fuse ∧ t.dev.jtag = s.dev.jtag ∧
      (s.dev.on F.PW_STS_BUSY = false → t.dev.rd F.PW_STS_STEP = 4 ∧ t.dev.pw.seq = none) ∧
      ∀ row : Nat, row = rowD ∨ (10 ≤ row ∧ row ≤ 73) → (s.dev.dom row).phase = .exiting → t.dev.rd F.PW_DOM_STATE row = 2) ∧
  (∀ s : State, 1 ≤ (s.dev.ref 0).id → (s.dev.ref 0).id ≤ 4 → RunsOn .synthesiserLock s [] (fun e => e.eaves.onRef = true))

/-- Tables 14.1, 14.7 and 14.8, and R389. -/
def Obligations.DomainsReachTheirStates : Prop :=
  (∀ (row : Fin 77) (loadOk : Bool) (s : State), (s.dev.dom row.val).phase = .exiting →
    ∃ t, exec (.domainExitComplete row loadOk) s = .next t ∧ t.pending = s.pending ∧ Dev.HostKept s.dev t.dev ∧ (row.val ≤ 8 → t.mem = s.mem) ∧
      ∀ r : Nat, t.dev.rd F.PW_DOM_STATE r = if r = row.val then 2 else s.dev.rd F.PW_DOM_STATE r) ∧
  (∀ (row : Fin 77) (s : State), row.val ≠ 0 → (s.dev.dom row.val).phase = .entering →
    ∃ t, exec (.domainEntryComplete row) s = .next t ∧ t.pending = s.pending ∧ Dev.HostKept s.dev t.dev ∧
      t.mem = (if row.val = rowM ∧ (s.dev.dom row.val).toOff then [] else s.mem) ∧
      ∀ r : Nat, t.dev.rd F.PW_DOM_STATE r =
        if r = row.val then (if (s.dev.dom row.val).toOff then 0 else 1) else s.dev.rd F.PW_DOM_STATE r) ∧
  (∀ (row : Fin 77) (s : State), (s.dev.dom row.val).phase = .exiting → s.dev.on F.PW_STS_BUSY = false → s.dev.pw.seq = none →
    Runs (.seqTimeout row) s [.MG, .UD, .PW, .PWV, .PWS] (fun e =>
      e.rd F.PW_DOM_STATE row.val = 3 ∧ bit (e.rd F.MG_ALERT_ALERT) 0 = true)) ∧
  (∀ s : State, ∃ t, exec .vddCoreFail s = .next t ∧ t.pending = s.pending ∧ Dev.HostKept s.dev t.dev ∧
    (s.dev.on F.PW_STS_BUSY = false → s.dev.on F.CF_STS_LOADING = false → t.dev.rd F.CF_STS_FULL = 0) ∧
    (s.dev.rd F.PW_DOM_STATE rowM ≠ 0 → t.mem = []) ∧
    ∀ r : Nat, t.dev.rd F.PW_DOM_STATE r = if 10 ≤ r ∧ r ≤ 76 then 0 else s.dev.rd F.PW_DOM_STATE r)

/-- Tables 14.4, 14.5 and 14.9. -/
def Obligations.DeviceStateRequests : Prop :=
  (∀ s : State, s.dev.restful → s.dev.rd F.PW_STS_DEV = 1 →
    Runs .reqNap s transitionBlks (fun e => e.goingTo 2 ∧ e.on F.PW_STS_QREQ = true)) ∧
  (∀ s : State, s.dev.restful → s.dev.rd F.PW_STS_DEV = 1 ∨ s.dev.rd F.PW_STS_DEV = 2 →
    Runs .reqRest s transitionBlks (fun e => e.goingTo 3 ∧ e.on F.PW_STS_QREQ = true ∧ e.rd F.PW_PADREL_HELD = 0xF)) ∧
  (∀ s : State, s.dev.restful → s.dev.rd F.PW_STS_DEV = 1 ∨ s.dev.rd F.PW_STS_DEV = 2 →
    Runs .reqRestWithTimekeeping s transitionBlks (fun e => e.goingTo 4 ∧ e.on F.PW_STS_QREQ = true ∧
      e.rd F.PW_PADREL_HELD = s.dev.rd F.PW_PADREL_HELD ||| 0x7)) ∧
  (∀ s : State, s.dev.restful → 1 ≤ s.dev.rd F.PW_STS_DEV → s.dev.rd F.PW_STS_DEV ≤ 4 →
    Runs .reqOff s transitionBlks (fun e => e.goingTo 5 ∧ e.on F.PW_STS_QREQ = true ∧ e.rd F.PW_PADREL_HELD = 0xF)) ∧
  (∀ s : State, s.dev.restful → 2 ≤ s.dev.rd F.PW_STS_DEV → s.dev.rd F.PW_STS_DEV ≤ 5 →
    Runs .reqActive s transitionBlks (fun e => e.goingTo 1 ∧ e.rd F.PW_LASTWAKE_SRC = 7 ∧ e.rd F.PW_LASTWAKE_FROM = s.dev.rd F.PW_STS_DEV)) ∧
  (∀ s : State, s.dev.restful → s.dev.on F.PW_WAKEEN_WAKEN = true → 2 ≤ s.dev.rd F.PW_STS_DEV → s.dev.rd F.PW_STS_DEV ≤ 5 →
    Runs .wakeNLow s transitionBlks (fun e => e.goingTo 1 ∧ e.rd F.PW_LASTWAKE_SRC = 2 ∧ e.rd F.PW_LASTWAKE_FROM = s.dev.rd F.PW_STS_DEV))

/-- Tables 14.3, 14.20, 14.21, 14.22, R325, R328, R334, R337. -/
def Obligations.VotesVoltagesTimersPads : Prop :=
  (∀ (j : Fin 4) (data : BitVec 32) (s : State), s.dev.pw.good = true → s.dev.on F.PW_STS_BUSY = false →
    Runs (.hostVoteWrite j data) s [.HOST, .PW, .PWV] (fun e => e.rd F.PW_HVOTE_ROWS j.val = data.toNat ∧
      (∀ b : Nat, b < 32 → 32 * j.val + b < 127 → bit (e.voteMask (32 * j.val + b)) 1 = data.getLsbD b) ∧
      ∀ r c : Nat, c ≠ 1 → bit (e.voteMask r) c = bit (s.dev.voteMask r) c)) ∧
  (∀ (r : Fin 64) (col : Nat) (s : State), s.dev.pw.good = true → s.dev.on F.PW_STS_BUSY = false → s.dev.isQuiet r.val = true → col < 64 →
    (s.dev.img.rows.at r.val []).any (fun row => bit s.dev.pw.quiesce row) = true → s.dev.img.column = [(r.val, col)] →
    Runs (.regionQuiet r) s [.PW, .PWV] (fun e => ∀ row ∈ s.dev.img.rows.at r.val [], row < 127 → bit (e.voteMask row) col = false)) ∧
  (∀ (row : Fin 127) (data : BitVec 32) (s : State), row.val ≠ 0 →
    Runs (.pwDomWrite row data) s [.PWV, .FB] (fun e => e.rd F.PW_DOM_IDLE row.val = bits data.toNat 3 1 ∧
      e.rd F.PW_DOM_VSET row.val = if vsetOk row.val (bits data.toNat 16 8) then bits data.toNat 16 8 else s.dev.rd F.PW_DOM_VSET row.val)) ∧
  (∀ (data : BitVec 32) (s : State), Nothing (.pwDomWrite 0 data) s) ∧
  (∀ (row : Fin 77) (t : Nat) (s : State), 10 ≤ row.val → s.dev.pw.vtarget.find? row.val = some t → t < 256 →
    Runs (.voltageSettled row) s [.PWV, .FB] (fun e => e.rd F.PW_DOM_VNOW row.val = t)) ∧
  (∀ (k : Fin 4) (s : State), s.dev.on F.PW_ETIM_CTL_EN k.val = true → s.dev.rd F.PW_ETIM_CNT_CNT k.val ≠ 0 →
    s.dev.on F.PW_ETIM_CTL_WAKE k.val = false →
    RunsOn (.eavesTimerExpiry k) s [F.PW_ETIM_CNT_CNT.key k.val, F.PW_ETIM_CTL_FIRED.key k.val] (fun e =>
      e.rd F.PW_ETIM_CNT_CNT k.val = 0 ∧ e.rd F.PW_ETIM_CTL_FIRED k.val = 1)) ∧
  (∀ (groups : BitVec 4) (s : State), RunsOn (.padRelease groups) s [F.PW_PADREL_HELD.key 0] (fun e =>
    ∀ g : Nat, g < 4 → bit (e.rd F.PW_PADREL_HELD) g = (bit (s.dev.rd F.PW_PADREL_HELD) g && ! groups.getLsbD g))) ∧
  (∀ s : State, s.dev.pw.holdrep = true → s.dev.on F.PW_STS_BUSY = true → s.dev.pw.up = false → s.dev.rd F.PW_STS_PEND = 0 →
    s.dev.rd F.PW_STS_DEV ≠ 5 → s.dev.heldRows ≠ [] → (∀ r ∈ s.dev.heldRows, s.dev.effMask r ≠ 0) →
    Runs .holdrepExpiry s [.PW, .MG] (fun e => e.on F.PW_STS_BUSY = false ∧ e.rd F.PW_STS_DEV = s.dev.rd F.PW_STS_TARGET ∧
      e.on F.PW_STS_PARTIAL = true))

/-- R146, R147, R148, R156. The time and FREE are in 1/65,536 ns and 1/1,024 ns. -/
def Obligations.TimebaseCommands : Prop :=
  (∀ s : State, s.dev.domOn rowAT = true → s.dev.tb.waits = [] → s.dev.on F.TB_CTL_OWNER = true → s.dev.on F.SN_CTL_MATCH_EN = false →
    s.dev.rd F.TB_SET_NS_V ≤ 999999999 →
    RunsOn .tbLoad s [F.TB_STS_STEPPED.key 0] (fun e => e.free = s.dev.free ∧ e.rd F.TB_STS_STEPPED = 1 ∧
      e.time = ((s.dev.rd F.TB_SET_S_HI_V * 2 ^ 32 + s.dev.rd F.TB_SET_S_LO_V) * 1000000000 + s.dev.rd F.TB_SET_NS_V) * 65536)) ∧
  (∀ s : State, s.dev.domOn rowAT = true → s.dev.tb.waits = [] → s.dev.on F.TB_CTL_OWNER = true → s.dev.on F.SN_CTL_MATCH_EN = false →
    (signed 32 (s.dev.rd F.TB_STEP_NS_V)).natAbs ≤ 999999999 →
    0 ≤ (s.dev.time : Int) + signed 32 (s.dev.rd F.TB_STEP_NS_V) * 65536 + (s.dev.rd F.TB_STEP_FRAC_V : Int) →
    (s.dev.time : Int) + signed 32 (s.dev.rd F.TB_STEP_NS_V) * 65536 + (s.dev.rd F.TB_STEP_FRAC_V : Int) < timeWrap →
    RunsOn .tbStep s [F.TB_STS_STEPPED.key 0] (fun e => e.free = s.dev.free ∧ e.rd F.TB_STS_STEPPED = 1 ∧
      (e.time : Int) = (s.dev.time : Int) + signed 32 (s.dev.rd F.TB_STEP_NS_V) * 65536 + (s.dev.rd F.TB_STEP_FRAC_V : Int))) ∧
  (∀ s : State, s.dev.domOn rowAT = true → s.dev.tb.waits = [] → RunsOn .tbCapture s
    [F.TB_CAP_S_LO_V.key 0, F.TB_CAP_S_HI_V.key 0, F.TB_CAP_NS_V.key 0, F.TB_CAP_FRAC_V.key 0, F.TB_CAP_FREE_LO_V.key 0, F.TB_CAP_FREE_HI_V.key 0]
    (fun e => e.time = s.dev.time ∧ e.free = s.dev.free ∧
      ((e.rd F.TB_CAP_S_HI_V * 2 ^ 32 + e.rd F.TB_CAP_S_LO_V) * 1000000000 + e.rd F.TB_CAP_NS_V) * 65536 + e.rd F.TB_CAP_FRAC_V = s.dev.time ∧
      e.rd F.TB_CAP_FREE_HI_V * 2 ^ 32 + e.rd F.TB_CAP_FREE_LO_V = s.dev.free)) ∧
  (∀ (r : TbReg) (data : BitVec 32) (s : State), s.dev.domOn rowAT = true → s.dev.on F.TB_CTL_OWNER = true →
    RunsOn (.timebaseWrite r data) s [(tbField r).key 0] (fun e => e.rd (tbField r) = data.toNat % 2 ^ (tbField r).w)) ∧
  (∀ (c : Instr) (s : State), c = .tbLoad ∨ c = .tbStep ∨ (∃ r data, c = .timebaseWrite r data) → s.dev.domOn rowAT = true → s.dev.tb.waits = [] →
    s.dev.on F.TB_CTL_OWNER = false → RunsOn c s [F.TB_STS_WREJ.key 0] (fun e => e.rd F.TB_STS_WREJ = 1 ∧ e.time = s.dev.time)) ∧
  (∀ (c : Instr) (s : State), c = .tbLoad ∨ c = .tbStep ∨ c = .tbCapture ∨ (∃ r data, c = .timebaseWrite r data) →
    s.dev.domOn rowAT = false → RunsOn c s [F.PW_STS_OFFACC.key 0] (fun e => e.rd F.PW_STS_OFFACC = 1 ∧ e.time = s.dev.time)) ∧
  (∀ (c : Instr) (k : Nat) (s : State), (c = .tbLoad ∧ k = 1) ∨ (c = .tbStep ∧ k = 2) ∨ (c = .tbCapture ∧ k = 3) → s.dev.domOn rowAT = true →
    s.dev.tb.waits ≠ [] → RunsOn c s [] (fun e => e.tb.waits = s.dev.tb.waits ++ [k] ∧ e.time = s.dev.time)) ∧
  (∀ s : State, s.dev.tbRefOk = true → (s.dev.dom rowAT).phase = .settled → s.dev.domOn rowAT = true →
    RunsOn .tbPllLock s [F.TB_STS_LOCK.key 0] (fun e => e.rd F.TB_STS_LOCK = 1)) ∧
  (∀ s : State, s.dev.tb.holding = true →
    RunsOn .tbPllHoldExpiry s [F.TB_STS_LOCK.key 0, F.TB_STS_LOL.key 0] (fun e => e.rd F.TB_STS_LOCK = 0 ∧ e.rd F.TB_STS_LOL = 1 ∧ e.time = s.dev.time)) ∧
  (∀ (n : Fin 512) (ab ba : BitVec 24) (s : State), s.dev.on F.TB_STS_MODE = true → s.dev.inService n.val = true → s.dev.latencyLocked n.val = true →
    RunsOn (.latencyRemeasure n ab ba) s
      [F.CS_LAT_LAT.key (2 * n.val), F.CS_LAT_VALID.key (2 * n.val), F.CS_LAT_LAT.key (2 * n.val + 1), F.CS_LAT_VALID.key (2 * n.val + 1)]
      (fun e => e.rd F.CS_LAT_LAT (2 * n.val) = ab.toNat ∧ e.rd F.CS_LAT_LAT (2 * n.val + 1) = ba.toNat ∧
        e.rd F.CS_LAT_VALID (2 * n.val) = 1 ∧ e.rd F.CS_LAT_VALID (2 * n.val + 1) = 1))

/-- Table 3.11 with R64, R87, R88. -/
def Obligations.LossSequence : Prop :=
  (∀ (tp : Fin 64) (side : Side) (cause : LossCause) (s : State),
    s.dev.ks (laneIx tp side) = 1 ∨ s.dev.ks (laneIx tp side) = 2 ∨ s.dev.ks (laneIx tp side) = 3 ∨ s.dev.ks (laneIx tp side) = 7 →
    s.dev.cal.phase ≠ .takeover ∨ (s.dev.lane (laneIx tp side)).tShadow = false →
    RunsOn (.lossIndication tp side cause) s [F.LN_STS_LOCK.key (laneIx tp side)] (fun e =>
      (∀ c, c ∈ (e.lane (laneIx tp side)).loss ↔ c ∈ (s.dev.lane (laneIx tp side)).loss ∨ c = cause) ∧
      (cause = .cdr ∨ cause = .codeGroup ∨ cause = .blockLock → e.rd F.LN_STS_LOCK (laneIx tp side) = 0))) ∧
  (∀ (tp : Fin 64) (side : Side) (cause : LossCause) (s : State), s.dev.ks (laneIx tp side) = 2 ∨ s.dev.ks (laneIx tp side) = 3 →
    s.dev.cal.phase = .takeover → s.dev.calHolds (laneIx tp side) = true → (s.dev.lane (laneIx tp side)).tShadow = true →
    Runs (.lossIndication tp side cause) s [.LN, .LNF, .CL, .MG, .PWV] (fun e => e.fsOwner (laneFs (laneIx tp side)) = 0 ∧
      e.rd F.CL_STS_CODE = 6 ∧ e.rd F.CL_STS_STATE = 0 ∧ e.rd F.CL_STS_DONE = 1)) ∧
  (∀ (tp : Fin 64) (side : Side) (s : State), (s.dev.lane (laneIx tp side)).loss ≠ [] → s.dev.laneCourse tp.val = none →
    bit (s.dev.rd F.SN_LOLMASK_MASK (tp.val / 32)) (tp.val % 32) = false →
    RunsOn (.lossConfirmed tp side) s [F.LN_CNT_LOL_COUNT.key (laneIx tp side)] (fun e => (e.lane (laneIx tp side)).loss = [] ∧
      e.rd F.LN_CNT_LOL_COUNT (laneIx tp side) = min (s.dev.rd F.LN_CNT_LOL_COUNT (laneIx tp side) + 1) (2 ^ F.LN_CNT_LOL_COUNT.w - 1))) ∧
  (∀ (tp : Fin 64) (side : Side) (n : Nat) (s : State), (s.dev.lane (laneIx tp side)).loss ≠ [] → s.dev.laneCourse tp.val = some n →
    s.dev.inService n = true → s.dev.cal.phase = .idle → bit (s.dev.rd F.SN_LOLMASK_MASK (tp.val / 32)) (tp.val % 32) = false →
    Runs (.lossConfirmed tp side) s [.LN, .LNF, .TSU, .CS, .UD, .CL, .MG, .PWV] (fun e =>
      e.rd F.LN_STS_KSTATE (laneIx tp side) = (if s.dev.on F.LN_STS_SIGDET (laneIx tp side) then 4 else 6) ∧
      e.rd F.LN_STS_LOCK (laneIx tp side) = 0 ∧
      e.rd F.LN_CNT_LOL_COUNT (laneIx tp side) = min (s.dev.rd F.LN_CNT_LOL_COUNT (laneIx tp side) + 1) (2 ^ F.LN_CNT_LOL_COUNT.w - 1))) ∧
  (∀ (tp : Fin 64) (side : Side) (s : State), (s.dev.lane (laneIx tp side)).tReacq = true →
    Runs (.reacquireLock tp side) s [.LN, .CS, .UD] (fun e => e.rd F.LN_STS_LOCK (laneIx tp side) = 1 ∧
      e.rd F.LN_STS_KSTATE (laneIx tp side) = if s.dev.on F.LN_STS_ON_FS (laneIx tp side) then 3 else 2)) ∧
  (∀ (tp : Fin 64) (side : Side) (s : State), (s.dev.lane (laneIx tp side)).tReacq = true →
    s.dev.on F.LN_STS_ON_FS (laneIx tp side) = false → s.dev.on F.LN_FS_STS_FAULT (laneFs (laneIx tp side)) = false →
    s.dev.fsOwner (laneFs (laneIx tp side)) = 0 → s.dev.standInNext (laneFs (laneIx tp side)) = none →
    Runs (.tReacqExpiry tp side) s [.LN, .LNF, .CS, .UD, .CL, .MG, .PWV] (fun e => e.rd F.LN_STS_KSTATE (laneIx tp side) = 5 ∧
      e.fsOwner (laneFs (laneIx tp side)) = 1 ∧ e.rd F.LN_FS_STS_PAD (laneFs (laneIx tp side)) = lanePad (laneIx tp side))) ∧
  (∀ (tp : Fin 64) (side : Side) (s : State), (s.dev.lane (laneIx tp side)).tReacq = true →
    s.dev.on F.LN_STS_ON_FS (laneIx tp side) = false →
    s.dev.on F.LN_FS_STS_FAULT (laneFs (laneIx tp side)) = true ∨ s.dev.fsOwner (laneFs (laneIx tp side)) = 1 →
    Runs (.tReacqExpiry tp side) s [.LN, .LNF, .TSU, .CS, .UD, .CL, .MG, .PWV] (fun e => e.rd F.LN_STS_KSTATE (laneIx tp side) = 6)) ∧
  (∀ (tp : Fin 64) (side : Side) (s : State), (s.dev.lane (laneIx tp side)).tRescue = true → (s.dev.lane (laneIx tp side)).byPrimary = false →
    Runs (.rescueLock tp side) s [.LN, .LNF, .TSU, .CS, .UD] (fun e => e.rd F.LN_STS_KSTATE (laneIx tp side) = 3 ∧
      e.rd F.LN_STS_ON_FS (laneIx tp side) = 1 ∧ e.rd F.LN_STS_LOCK (laneIx tp side) = 1 ∧ e.rd F.LN_FS_STS_CARRY (laneFs (laneIx tp side)) = 1 ∧
      e.rd F.LN_CNT_RESCUE_COUNT (laneIx tp side) = min (s.dev.rd F.LN_CNT_RESCUE_COUNT (laneIx tp side) + 1) (2 ^ F.LN_CNT_RESCUE_COUNT.w - 1))) ∧
  (∀ (tp : Fin 64) (side : Side) (s : State), (s.dev.lane (laneIx tp side)).tRescue = true →
    Runs (.tRescueExpiry tp side) s [.LN, .LNF, .TSU, .CS, .UD, .CL, .MG, .PWV] (fun e => e.rd F.LN_STS_KSTATE (laneIx tp side) = 6)) ∧
  (∀ (tp : Fin 64) (side : Side) (s : State), s.dev.ks (laneIx tp side) = 6 → s.dev.on F.LN_STS_SIGDET (laneIx tp side) = true →
    (s.dev.lane (laneIx tp side)).sliceFailed = false → (s.dev.lane (laneIx tp side)).standIn = false →
    Runs (.squelchedLaneLock tp side) s [.LN, .CS, .UD] (fun e => e.rd F.LN_STS_KSTATE (laneIx tp side) = 2 ∧
      e.rd F.LN_STS_LOCK (laneIx tp side) = 1))

/-- R38 to R42 and Table 2.17. -/
def Obligations.PllsAndReferences : Prop :=
  (∀ (bay : Fin 8) (n : Fin 2) (s : State), s.dev.on F.LN_PLL_STS_LOCK (pllIx bay n) = true →
    Runs (.pllLossOfLock bay n) s [.LNP, .LN, .LNF, .CL, .CS, .MG, .PWV, .TSU, .UD] (fun e => e.rd F.LN_PLL_STS_LOCK (pllIx bay n) = 0 ∧
      e.rd F.LN_PLL_STS_LOL (pllIx bay n) = 1 ∧
      ∀ l : Nat, e.rd F.LN_STS_KSTATE l = if l ∈ s.dev.pllLanes (pllIx bay n) then 9 else s.dev.rd F.LN_STS_KSTATE l)) ∧
  (∀ (bay : Fin 8) (n : Fin 2) (s : State), s.dev.on F.LN_PLL_STS_LOCK (pllIx bay n) = false → s.dev.pllAccepts (pllIx bay n) = true →
    bit s.dev.boot.barePending bay.val = false → s.dev.on F.CF_STS_BARE = true →
    Runs (.pllLock bay n) s [.LNP, .LN, .CS, .UD] (fun e => e.rd F.LN_PLL_STS_LOCK (pllIx bay n) = 1 ∧
      ∀ l : Nat, e.rd F.LN_STS_KSTATE l =
        if l ∈ s.dev.pllLanes (pllIx bay n) ∧ s.dev.ks l = 9 ∧ ((s.dev.lane l).sliceFailed = false ∨ (s.dev.lane l).standIn = true)
        then s.dev.ksAfterPll l else s.dev.rd F.LN_STS_KSTATE l)) ∧
  (∀ (r : RefIn) (s : State), (s.dev.ref (refIx r)).edges = false →
    RunsOn (.refEdgesAppear r) s [] (fun e => (e.ref (refIx r)).edges = true ∧ (e.ref (refIx r)).id = 0)) ∧
  (∀ (r : RefIn) (id : Fin 6) (hz : Nat) (s : State), (s.dev.ref (refIx r)).edges = true → (s.dev.ref (refIx r)).id = 0 → id.val ≠ 0 →
    Runs (.refIdentified r id hz) s [.LNP, .TB, .MG, .UD] (fun e => (e.ref (refIx r)).id = id.val ∧ (e.ref (refIx r)).hz = hz ∧
      ∀ p : Nat, p < 16 → s.dev.rd F.LN_PLL_CTL_REFSEL p = refIx r → e.rd F.LN_PLL_STS_REFID p = id.val)) ∧
  (∀ (r : RefIn) (s : State), (s.dev.ref (refIx r)).edges = true →
    Runs (.refAbsent r) s [.LNP, .LN, .LNF, .CL, .CS, .MG, .PWV, .TSU, .UD, .TB] (fun e =>
      ∀ p : Nat, p < 16 → s.dev.rd F.LN_PLL_CTL_FAMILY p ≠ 0 → s.dev.rd F.LN_PLL_CTL_REFSEL p = refIx r → e.rd F.LN_PLL_STS_LOCK p = 0)) ∧
  (∀ (r : RefIn) (s : State), (s.dev.ref (refIx r)).edges = true →
    Runs (.refFrequencyChange r) s [.LNP, .LN, .LNF, .CL, .CS, .MG, .PWV, .TSU, .UD, .TB] (fun e =>
      ∀ p : Nat, p < 16 → s.dev.rd F.LN_PLL_CTL_FAMILY p ≠ 0 → s.dev.rd F.LN_PLL_CTL_REFSEL p = refIx r → e.rd F.LN_PLL_STS_LOCK p = 0)) ∧
  (∀ (r : RefIn) (ppm : Nat) (above : Int) (s : State),
    Runs (.refSpreadChange r ppm above) s (.TB :: courseBlks) (fun e => (e.ref (refIx r)).spread = decide (300 ≤ ppm) ∧
      ∀ p : Nat, p < 16 → s.dev.rd F.LN_PLL_CTL_REFSEL p = refIx r → e.rd F.LN_PLL_CTL_REFSEL p = refIx r → e.rd F.LN_PLL_STS_SPREAD p = b2n (decide (300 ≤ ppm))))

/-- R58 to R64, R89 and Tables 2.10 to 2.12. On side A of a Straight-through course a handover or Lane Idle entry may also be the
course boundary; those are left out here. -/
def Obligations.SlicesHandoversAndLaneIdle : Prop :=
  (∀ (tp : Fin 64) (side : Side) (s : State), (s.dev.lane (laneIx tp side)).sliceFailed = false → s.dev.cal.phase = .idle →
    s.dev.on F.LN_STS_ON_FS (laneIx tp side) = false →
    Runs (.sliceFault tp side) s [.LN, .LNF, .TSU, .CS, .UD, .MG] (fun e => e.rd F.LN_STS_KSTATE (laneIx tp side) = 9 ∧ e.rd F.LN_STS_LOCK (laneIx tp side) = 0 ∧
      e.rd F.UD_FAULT_FCODE (laneUnit tp) = 5 ∧ (e.lane (laneIx tp side)).sliceFailed = true ∧ e.standQ = s.dev.standQ ++ [laneIx tp side])) ∧
  (∀ (bay : Fin 8) (side : Side) (l : Nat) (s : State), s.dev.standInNext (bay.val + 8 * sideN side) = some l → laneFs l = bay.val + 8 * sideN side →
    s.dev.on F.LN_FS_STS_FAULT (laneFs l) = false → s.dev.fsOwner (laneFs l) = 0 → s.dev.calOnSlice (laneFs l) = false →
    RunsOn (.standInGrant bay side) s [F.LN_FS_STS_OWNER.key (laneFs l), F.LN_FS_STS_SHADOW.key (laneFs l), F.LN_FS_STS_CARRY.key (laneFs l), F.LN_FS_STS_PAD.key (laneFs l)]
      (fun e => e.fsOwner (laneFs l) = 1 ∧ e.rd F.LN_FS_STS_PAD (laneFs l) = lanePad l ∧ (e.lane l).standInAcq = true ∧ l ∉ e.standQ)) ∧
  (∀ (bay : Fin 8) (side : Side) (l : Nat) (s : State), fsLane (bay.val + 8 * sideN side) (s.dev.rd F.LN_FS_STS_PAD (bay.val + 8 * sideN side)) = l →
    (s.dev.lane l).standInAcq = true → s.dev.ks l = 9 →
    Runs (.standInLock bay side) s [.LN, .LNF, .TSU, .CS, .UD] (fun e => e.rd F.LN_STS_KSTATE l = 3 ∧ e.rd F.LN_STS_ON_FS l = 1 ∧ e.rd F.LN_STS_LOCK l = 1)) ∧
  (∀ (tp : Fin 64) (side : Side) (off : Int) (s : State), (s.dev.lane (laneIx tp side)).returning = true → s.dev.on F.LN_STS_ON_FS (laneIx tp side) = true →
    s.dev.ks (laneIx tp side) = 3 → (s.dev.lane (laneIx tp side)).loss = [] → off.natAbs ≤ 4 → s.dev.cal.phase = .idle →
    (side = .b ∨ ∀ n, s.dev.laneCourse tp.val = some n → s.dev.rd F.CS_CTL_MODE n ≠ 1) →
    Runs (.handoverSwitch tp side off) s [.LN, .LNF, .TSU, .CS, .UD] (fun e => e.rd F.LN_STS_KSTATE (laneIx tp side) = 2 ∧
      e.rd F.LN_STS_ON_FS (laneIx tp side) = 0 ∧ e.fsOwner (laneFs (laneIx tp side)) = 0)) ∧
  (∀ (tp : Fin 64) (side : Side) (s : State), s.dev.cal.phase = .takeover → s.dev.calHolds (laneIx tp side) = true →
    (s.dev.lane (laneIx tp side)).tShadow = true →
    Runs (.tShadowExpiry tp side) s [.LNF, .CL, .MG, .PWV] (fun e => e.fsOwner (laneFs (laneIx tp side)) = 0 ∧ e.rd F.CL_STS_CODE = 6 ∧
      e.rd F.CL_STS_STATE = 0 ∧ e.rd F.CL_STS_DONE = 1)) ∧
  (∀ (tp : Fin 64) (side : Side) (s : State), s.dev.jtag.out = false → s.dev.on F.LN_STS_SIGDET (laneIx tp side) = false →
    s.dev.ks (laneIx tp side) ≠ 7 → s.dev.on F.PW_WAKEEN_SIGDET = false → s.dev.laneCourse tp.val = none →
    RunsOn (.signalDetectAssert tp side) s [F.LN_STS_SIGDET.key (laneIx tp side)] (fun e => e.rd F.LN_STS_SIGDET (laneIx tp side) = 1)) ∧
  (∀ (tp : Fin 64) (side : Side) (lpi : Bool) (s : State), s.dev.on F.LN_STS_SIGDET (laneIx tp side) = true → s.dev.laneCourse tp.val = none →
    RunsOn (.signalDetectDeassert tp side lpi) s [F.LN_STS_SIGDET.key (laneIx tp side)] (fun e => e.rd F.LN_STS_SIGDET (laneIx tp side) = 0)) ∧
  (∀ (tp : Fin 64) (side : Side) (lpi : Bool) (n : Nat) (s : State), s.dev.on F.LN_STS_SIGDET (laneIx tp side) = true → s.dev.laneCourse tp.val = some n →
    s.dev.ks (laneIx tp side) = 2 → s.dev.idlePermitted (laneIx tp side) n lpi = true → s.dev.cal.phase = .idle →
    (side = .b ∨ s.dev.rd F.CS_CTL_MODE n ≠ 1) →
    Runs (.signalDetectDeassert tp side lpi) s [.LN, .CS, .UD] (fun e => e.rd F.LN_STS_KSTATE (laneIx tp side) = 7 ∧ e.rd F.LN_STS_SIGDET (laneIx tp side) = 0 ∧
      e.rd F.LN_CNT_IDLE_COUNT (laneIx tp side) = min (s.dev.rd F.LN_CNT_IDLE_COUNT (laneIx tp side) + 1) (2 ^ F.LN_CNT_IDLE_COUNT.w - 1))) ∧
  (∀ (tp : Fin 64) (side : Side) (lpi : Bool) (n : Nat) (s : State), s.dev.on F.LN_STS_SIGDET (laneIx tp side) = true → s.dev.laneCourse tp.val = some n →
    s.dev.ks (laneIx tp side) = 4 ∨ s.dev.ks (laneIx tp side) = 5 → s.dev.proto n ≠ .pcie ∨ tp.val ∈ s.dev.policyTps n →
    Runs (.signalDetectDeassert tp side lpi) s [.LN, .LNF, .TSU, .CS, .UD, .CL, .MG, .PWV] (fun e => e.rd F.LN_STS_KSTATE (laneIx tp side) = 6)) ∧
  (∀ (tp : Fin 64) (side : Side) (s : State), s.dev.ks (laneIx tp side) = 7 → (s.dev.lane (laneIx tp side)).idleExit = true →
    Runs (.laneIdleExitLock tp side) s [.LN, .CS, .UD] (fun e => e.rd F.LN_STS_LOCK (laneIx tp side) = 1 ∧
      e.rd F.LN_STS_KSTATE (laneIx tp side) = if s.dev.on F.LN_STS_ON_FS (laneIx tp side) then 3 else 2)) ∧
  (∀ (tp : Fin 64) (side : Side) (s : State), s.dev.ks (laneIx tp side) = 7 → (s.dev.lane (laneIx tp side)).idleExit = true →
    Runs (.laneIdleExitFailure tp side) s [.UD, .MG] (fun e => e.rd F.UD_FAULT_FCODE (laneUnit tp) = 7 ∧
      .idleExit ∈ (e.lane (laneIx tp side)).loss ∧ (e.lane (laneIx tp side)).idleExit = false)) ∧
  (∀ (tp : Fin 64) (side : Side) (n : Nat) (s : State), s.dev.ks (laneIx tp side) = 7 → (s.dev.lane (laneIx tp side)).idleExit = false →
    s.dev.laneCourse tp.val = some n → s.dev.proto n = .eth → s.dev.on F.LN_IDLE_TQ_TQ (laneBay (laneIx tp side)) = true →
    Runs (.laneIdleQuietLimit tp side) s [.LN, .CS, .UD, .MG] (fun e => e.rd F.UD_FAULT_FCODE (laneUnit tp) = 7 ∧ .signal ∈ (e.lane (laneIx tp side)).loss ∧
      e.rd F.LN_STS_KSTATE (laneIx tp side) = if s.dev.inService n = false then 1 else if s.dev.on F.LN_STS_ON_FS (laneIx tp side) then 3 else 2)) ∧
  (∀ (tp : Fin 64) (side : Side) (s : State), s.dev.ks (laneIx tp side) = 1 ∨ s.dev.ks (laneIx tp side) = 2 ∨ s.dev.ks (laneIx tp side) = 3 →
    s.dev.on F.LN_STS_SIGDET (laneIx tp side) = true → s.dev.lanePllLocked (laneIx tp side) = true → s.dev.laneCourse tp.val = none →
    RunsOn (.laneAcquireLock tp side) s [F.LN_STS_LOCK.key (laneIx tp side)] (fun e => e.rd F.LN_STS_LOCK (laneIx tp side) = 1 ∧
      .cdr ∉ (e.lane (laneIx tp side)).loss))

/-- R48, R49, R50 to R52, R55 and R322. -/
def Obligations.LaneSettingsAndCodes : Prop :=
  (∀ (tp : Fin 64) (side : Side) (w : BitVec 32) (s : State), s.dev.domOn (rowA (tp / 8)) = true →
    bit w.toNat 8 = true → s.dev.on F.LN_CTL_MANUAL (laneIx tp side) = true ∨ s.dev.laneTraining (laneIx tp side) = false →
    10 ≤ bits w.toNat 0 7 → bits w.toNat 0 7 ≤ 120 → s.dev.txInLaneIdle (laneIx tp side) = false →
    RunsOn (.lnCtlWrite tp side w) s [F.LN_CTL_MANUAL.key (laneIx tp side), F.LN_CTL_FORCE_SQ.key (laneIx tp side),
        F.LN_CTL_SWING.key (laneIx tp side), F.LN_CTL_TX_INV.key (laneIx tp side), F.LN_CTL_RX_INV.key (laneIx tp side)]
      (fun e => e.rd F.LN_CTL_MANUAL (laneIx tp side) = 1 ∧ e.rd F.LN_CTL_SWING (laneIx tp side) = bits w.toNat 0 7 ∧
        e.rd F.LN_CTL_TX_INV (laneIx tp side) = bits w.toNat 9 1 ∧ e.rd F.LN_CTL_RX_INV (laneIx tp side) = bits w.toNat 10 1 ∧
        e.rd F.LN_CTL_FORCE_SQ (laneIx tp side) = bits w.toNat 11 1)) ∧
  (∀ (tp : Fin 64) (side : Side) (w : BitVec 32) (s : State), s.dev.domOn (rowA (tp / 8)) = true → bit w.toNat 8 = false →
    bits w.toNat 0 7 ≠ s.dev.rd F.LN_CTL_SWING (laneIx tp side) ∨ bits w.toNat 9 1 ≠ s.dev.rd F.LN_CTL_TX_INV (laneIx tp side) ∨
      bits w.toNat 10 1 ≠ s.dev.rd F.LN_CTL_RX_INV (laneIx tp side) →
    RunsOn (.lnCtlWrite tp side w) s [F.LN_CTL_MANUAL.key (laneIx tp side), F.LN_CTL_FORCE_SQ.key (laneIx tp side), F.LN_STS_WREJ.key (laneIx tp side)]
      (fun e => e.rd F.LN_CTL_MANUAL (laneIx tp side) = 0 ∧ e.rd F.LN_STS_WREJ (laneIx tp side) = 1 ∧
        e.rd F.LN_CTL_FORCE_SQ (laneIx tp side) = bits w.toNat 11 1)) ∧
  (∀ (tp : Fin 64) (side : Side) (w : BitVec 32) (s : State), s.dev.domOn (rowA (tp / 8)) = true →
    s.dev.on F.LN_CTL_MANUAL (laneIx tp side) = true → s.dev.tapsOk (laneIx tp side) (tapsOfWord (w.toNat % 2 ^ 28)) = true → s.dev.txInLaneIdle (laneIx tp side) = false →
    RunsOn (.lnTxFfeWrite tp side w) s [F.LN_TX_FFE_CM3.key (laneIx tp side), F.LN_TX_FFE_CM2.key (laneIx tp side),
        F.LN_TX_FFE_CM1.key (laneIx tp side), F.LN_TX_FFE_C0.key (laneIx tp side), F.LN_TX_FFE_CP1.key (laneIx tp side)]
      (fun e => e.word .LN_TX_FFE (laneIx tp side) = w.toNat % 2 ^ 28)) ∧
  (∀ (tp : Fin 64) (side : Side) (w : BitVec 32) (s : State), s.dev.domOn (rowA (tp / 8)) = true →
    w.toNat % 2 ^ 28 ≠ s.dev.word .LN_TX_FFE (laneIx tp side) →
    s.dev.on F.LN_CTL_MANUAL (laneIx tp side) = false ∨ s.dev.tapsOk (laneIx tp side) (tapsOfWord (w.toNat % 2 ^ 28)) = false →
    RunsOn (.lnTxFfeWrite tp side w) s [F.LN_STS_WREJ.key (laneIx tp side)] (fun e => e.rd F.LN_STS_WREJ (laneIx tp side) = 1)) ∧
  (∀ (tp : Fin 64) (side : Side) (w : BitVec 32) (s : State), s.dev.domOn (rowA (tp / 8)) = true →
    s.dev.rd F.LN_RX_EQ_ADAPT (laneIx tp side) = 2 → bits w.toNat 0 6 ≤ 32 →
    RunsOn (.lnRxEqWrite tp side w) s [F.LN_RX_EQ_ADAPT.key (laneIx tp side), F.LN_RX_EQ_CTLE.key (laneIx tp side)]
      (fun e => e.rd F.LN_RX_EQ_ADAPT (laneIx tp side) = bits w.toNat 6 2 ∧ e.rd F.LN_RX_EQ_CTLE (laneIx tp side) = bits w.toNat 0 6)) ∧
  (∀ (tp : Fin 64) (side : Side) (j : Fin 3) (w : BitVec 32) (s : State), s.dev.domOn (rowA (tp / 8)) = true →
    s.dev.rd F.LN_RX_EQ_ADAPT (laneIx tp side) = 2 →
    (∀ m : Fin 4, (signed 8 (bits w.toNat (8 * m) 8)).natAbs ≤ dfeLimit (4 * j + m + 1)) →
    RunsOn (.lnRxDfeWrite tp side j w) s [F.LN_RX_DFE_TAPA.key (3 * laneIx tp side + j), F.LN_RX_DFE_TAPB.key (3 * laneIx tp side + j),
        F.LN_RX_DFE_TAPC.key (3 * laneIx tp side + j), F.LN_RX_DFE_TAPD.key (3 * laneIx tp side + j)]
      (fun e => e.word .LN_RX_DFE (3 * laneIx tp side + j) = w.toNat)) ∧
  (∀ (tp : Fin 64) (side : Side) (w : BitVec 32) (s : State), s.dev.domOn (rowA (tp / 8)) = true →
    s.dev.rd F.LN_RX_EQ_ADAPT (laneIx tp side) = 2 → s.dev.rd F.LN_RX_FFE_SEL_TAP (laneIx tp side) ≠ 8 → (signed 10 (bits w.toNat 0 10)).natAbs ≤ 128 →
    RunsOn (.lnRxFfeDataWrite tp side w) s []
      (fun e => (e.lane (laneIx tp side)).ffe.find? (s.dev.rd F.LN_RX_FFE_SEL_TAP (laneIx tp side)) = some (bits w.toNat 0 10))) ∧
  (∀ (tp : Fin 64) (side : Side) (j : Fin 3) (w : BitVec 32) (s : State) (c : Instr), s.dev.domOn (rowA (tp / 8)) = false →
    c ∈ [Instr.lnCtlWrite tp side w, .lnTxFfeWrite tp side w, .lnRxEqWrite tp side w, .lnRxDfeWrite tp side j w, .lnRxFfeDataWrite tp side w] →
    RunsOn c s [F.PW_STS_OFFACC.key 0] (fun e => e.on F.PW_STS_OFFACC = true)) ∧
  (∀ (tp : Fin 64) (side : Side) (g : BitVec 10) (phase : Fin 10) (pos : Bool) (s : State),
    (s.dev.lane (laneIx tp side)).aligned = true → (s.dev.lane (laneIx tp side)).rd = some pos → (decodeIn g.toNat pos).isSome = true →
    Runs (.codeGroupReceived tp side g phase) s [.LN, .LNF, .CL, .MG, .PWV] (fun e => e.rd F.LN_CNT_INV_COUNT (laneIx tp side) = s.dev.rd F.LN_CNT_INV_COUNT (laneIx tp side) ∧
      e.rd F.LN_CNT_DISP_COUNT (laneIx tp side) = s.dev.rd F.LN_CNT_DISP_COUNT (laneIx tp side) ∧
      (e.lane (laneIx tp side)).rd = some (rdOfGroup g.toNat pos))) ∧
  (∀ (tp : Fin 64) (side : Side) (g : BitVec 10) (phase : Fin 10) (pos : Bool) (s : State),
    (s.dev.lane (laneIx tp side)).aligned = true → (s.dev.lane (laneIx tp side)).rd = some pos → (decodeIn g.toNat pos).isNone = true →
    Runs (.codeGroupReceived tp side g phase) s [.LN, .LNF, .CL, .MG, .PWV] (fun e =>
      if (decodeIn g.toNat (! pos)).isSome then
        e.rd F.LN_CNT_DISP_COUNT (laneIx tp side) = min (s.dev.rd F.LN_CNT_DISP_COUNT (laneIx tp side) + 1) (2 ^ 32 - 1) ∧
        e.rd F.LN_CNT_INV_COUNT (laneIx tp side) = s.dev.rd F.LN_CNT_INV_COUNT (laneIx tp side) ∧
        (e.lane (laneIx tp side)).rd = some (rdOfGroup g.toNat pos)
      else
        e.rd F.LN_CNT_INV_COUNT (laneIx tp side) = min (s.dev.rd F.LN_CNT_INV_COUNT (laneIx tp side) + 1) (2 ^ 32 - 1) ∧
        e.rd F.LN_CNT_DISP_COUNT (laneIx tp side) = s.dev.rd F.LN_CNT_DISP_COUNT (laneIx tp side) ∧
        (e.lane (laneIx tp side)).rd = some pos)) ∧
  (∀ (tp : Fin 64) (side : Side) (g : BitVec 10) (phase : Fin 10) (s : State),
    (s.dev.lane (laneIx tp side)).aligned = false → isComma g.toNat = true →
    (s.dev.lane (laneIx tp side)).rd = none ∨ (s.dev.lane (laneIx tp side)).comma ≠ some phase.val →
    RunsOn (.codeGroupReceived tp side g phase) s [F.LN_STS_LOCK.key (laneIx tp side)] (fun e => (e.lane (laneIx tp side)).comma = some phase.val ∧
      (e.lane (laneIx tp side)).aligned = decide ((s.dev.lane (laneIx tp side)).comma = some phase.val))) ∧
  (∀ (tp : Fin 64) (side : Side) (h : BitVec 2) (s : State), h = 0 ∨ h = 3 →
    Runs (.syncHeaderReceived tp side h) s [.LN, .LNF, .CL, .MG, .PWV] (fun e =>
      e.rd F.LN_CNT_SHDR_COUNT (laneIx tp side) = min (s.dev.rd F.LN_CNT_SHDR_COUNT (laneIx tp side) + 1) (2 ^ 32 - 1))) ∧
  (∀ (tp : Fin 64) (side : Side) (h : BitVec 2) (s : State), h = 1 ∨ h = 2 → (s.dev.lane (laneIx tp side)).blockLock = false →
    ((rateRow (s.dev.lane (laneIx tp side)).rxRate).elim true (fun r => decide (r.code ≠ .c128b130))) = true →
    RunsOn (.syncHeaderReceived tp side h) s [F.LN_STS_LOCK.key (laneIx tp side)] (fun e =>
      (e.lane (laneIx tp side)).blockLock = decide ((s.dev.lane (laneIx tp side)).hdrRun + 1 = 64)))

/-- R102 to R105, Tables 4.3 and 4.4, R132 to R137. The numbers of the answers are the model's (log entry 9). -/
def Obligations.TransmitterRequestsAndMargining : Prop :=
  (∀ (tp : Fin 64) (side : Side) (s : State), s.dev.requestClause (laneIx tp side) ≠ 0 →
    RunsOn (.coefficientHold tp side) s [] (fun e => (e.lane (laneIx tp side)).answer = ansNotUpdated)) ∧
  (∀ (tp : Fin 64) (side : Side) (tap : Tap) (inc : Bool) (s : State), s.dev.requestClause (laneIx tp side) ≠ 0 →
    s.dev.on F.LN_CTL_MANUAL (laneIx tp side) = false →
    (tap ≠ .cm3 ∧ tap ≠ .cm2) ∨ (s.dev.requestClause (laneIx tp side) ≠ 72 ∧ s.dev.requestClause (laneIx tp side) ≠ 136) →
    Runs (.coefficientUpdate tp side tap inc) s [.LN] (fun e =>
      if (stepTaps (s.dev.taps (laneIx tp side)) tap inc).ok then
        e.taps (laneIx tp side) = stepTaps (s.dev.taps (laneIx tp side)) tap inc ∧ (e.lane (laneIx tp side)).answer = ansUpdated
      else e.taps (laneIx tp side) = s.dev.taps (laneIx tp side) ∧
        (e.lane (laneIx tp side)).answer = if inc then ansMaximum else ansMinimum)) ∧
  (∀ (tp : Fin 64) (side : Side) (tap : Tap) (inc : Bool) (s : State), tap = .cm3 ∨ tap = .cm2 → s.dev.on F.LN_CTL_MANUAL (laneIx tp side) = false →
    s.dev.requestClause (laneIx tp side) = 72 ∨ s.dev.requestClause (laneIx tp side) = 136 →
    RunsOn (.coefficientUpdate tp side tap inc) s [] (fun e =>
      (e.lane (laneIx tp side)).answer = if s.dev.requestClause (laneIx tp side) = 72 then ansNotUpdated else ansNotSupported)) ∧
  (∀ (tp : Fin 64) (side : Side) (k : Fin 8) (s : State), s.dev.requestClause (laneIx tp side) ≠ 0 →
    s.dev.on F.LN_CTL_MANUAL (laneIx tp side) = false →
    Runs (.presetRequest tp side k) s [.LN] (fun e =>
      match presetTaps k (s.dev.requestClause (laneIx tp side)) with
      | some t => e.taps (laneIx tp side) = t ∧ (e.lane (laneIx tp side)).answer = ansUpdated
      | none => e.taps (laneIx tp side) = s.dev.taps (laneIx tp side) ∧ (e.lane (laneIx tp side)).answer = ansNotSupported)) ∧
  (∀ (tp : Fin 64) (side : Side) (s : State), s.dev.requestClause (laneIx tp side) = 72 →
    s.dev.on F.LN_CTL_MANUAL (laneIx tp side) = false →
    Runs (.initializeRequest tp side) s [.LN] (fun e => e.taps (laneIx tp side) = initializeTaps ∧ (e.lane (laneIx tp side)).answer = ansUpdated)) ∧
  (∀ (tp : Fin 64) (side : Side) (on : Bool) (n : Nat) (s : State), s.dev.requestClause (laneIx tp side) ≠ 0 →
    s.dev.on F.LN_CTL_MANUAL (laneIx tp side) = false → s.dev.laneCourse tp = some n → ratePam4 (s.dev.rd F.CS_RATE_RATE n) = true →
    RunsOn (.precoderRequest tp side on) s [F.CS_ETH_TR_PREC_TX.key (segIx n side)] (fun e =>
      (e.lane (laneIx tp side)).precode = on ∧ (e.lane (laneIx tp side)).answer = ansUpdated)) ∧
  (∀ (tp : Fin 64) (side : Side) (tap : Tap) (inc on : Bool) (k : Fin 8) (s : State) (c : Instr), s.dev.requestClause (laneIx tp side) ≠ 0 →
    s.dev.on F.LN_CTL_MANUAL (laneIx tp side) = true →
    c ∈ [Instr.coefficientHold tp side, .coefficientUpdate tp side tap inc, .presetRequest tp side k, .initializeRequest tp side, .precoderRequest tp side on] →
    RunsOn c s [] (fun e => (e.lane (laneIx tp side)).answer = ansNotUpdated)) ∧
  (∀ (tp : Fin 64) (side : Side) (req : EqRequest) (n : Nat) (s : State), s.dev.laneCourse tp = some n → s.dev.proto n = .pcie →
    s.dev.rd F.CS_STS_KSTATE n = 3 → 2 ≤ (s.dev.seg (segIx n side)).eqPhase → s.dev.eqLeads n side = false →
    Runs (.eqRequest tp side req) s [.LN] (fun e =>
      match (if s.dev.on F.LN_CTL_MANUAL (laneIx tp side) then none else
        match req with | .preset p => pciePreset p | .coefficients a b c => pcieCoefs a b c) with
      | some t => e.taps (laneIx tp side) = t ∧ (e.lane (laneIx tp side)).answer = 1
      | none => e.taps (laneIx tp side) = s.dev.taps (laneIx tp side) ∧ (e.lane (laneIx tp side)).answer = 5)) ∧
  (∀ (n : Fin 512) (side : Side) (lane : Fin 16) (tp errors : Nat) (s : State), s.dev.logicalTp n lane = some tp → s.dev.proto n = .pcie →
    s.dev.rd F.CS_STS_KSTATE n = 3 → s.dev.eqLeads n side = true → (s.dev.lane (laneIx tp side)).eqDone = false →
    RunsOn (.eqPresetEvaluated n side lane errors) s [F.CS_PCI_STS_EQ8.key n, F.CS_PCI_STS_EQ16.key n, F.CS_PCI_STS_EQ32.key n] (fun e =>
      (e.lane (laneIx tp side)).eqTried = (s.dev.lane (laneIx tp side)).eqTried + 1 ∧
      ((s.dev.lane (laneIx tp side)).eqTried < 5 → (e.lane (laneIx tp side)).eqDone = false ∧
        (e.lane (laneIx tp side)).eqRequest = some (.preset (Fin.ofNat 16 (5 + (s.dev.lane (laneIx tp side)).eqTried)))) ∧
      (e.lane (laneIx tp side)).eqBestErr = if (s.dev.lane (laneIx tp side)).eqTried = 0 then errors else min errors (s.dev.lane (laneIx tp side)).eqBestErr)) ∧
  (∀ (n : Fin 512) (side sd : Side) (lane : Fin 16) (rcvr : Fin 8) (right : Bool) (j : Fin 64) (k : Fin 128) (tp : Nat) (s : State) (l : Nat),
    s.dev.on F.CS_PCI_STS_THIRD n = false →
    s.dev.marginSide n rcvr = some sd → s.dev.logicalTp n lane = some tp → s.dev.proto n = .pcie → s.dev.inService n = true →
    0x11 ≤ s.dev.rd F.CS_RATE_RATE n → l = laneIx tp sd → (s.dev.lane l).marginNak = false →
    s.dev.fsOwner (laneFs l) = 0 → ((s.dev.courseSideLanes n sd).filter (fun m => (s.dev.lane m).margining)).length < (s.dev.courseBays n).length →
    ∀ cmd : MarginCmd, cmd ∈ [MarginCmd.stepTiming right j, .stepVoltage right k] →
      Runs (.marginCommand n side lane rcvr cmd) s [.LNF, .CS] (fun e => e.fsOwner (laneFs l) = 3 ∧ e.rd F.LN_FS_STS_SHADOW (laneFs l) = 1 ∧
        e.rd F.LN_FS_STS_PAD (laneFs l) = lanePad l ∧ e.rd F.CS_PCI_MRG_ACTIVE n = 1 ∧ e.rd F.CS_PCI_MRG_LANE n = lane.val ∧
        (e.lane l).margining = true ∧ (∃ v, (e.lane l).marginAnswer = some (.margining v)) ∧ e.rd F.CS_PCI_CNT_NAK_COUNT n = s.dev.rd F.CS_PCI_CNT_NAK_COUNT n)) ∧
  (∀ (n : Fin 512) (side sd : Side) (lane : Fin 16) (rcvr : Fin 8) (right : Bool) (j : Fin 64) (k : Fin 128) (tp : Nat) (s : State) (l : Nat),
    (if s.dev.on F.CS_PCI_STS_THIRD n then 2 ≤ rcvr.val ∧ rcvr.val ≤ 5 ∧ sd = (if rcvr.val % 2 = 0 then s.dev.uspSide n else otherSide (s.dev.uspSide n))
      else s.dev.marginSide n rcvr = some sd ∧ ((s.dev.lane l).marginNak = true ∨ ((s.dev.lane l).margining = false ∧ s.dev.fsOwner (laneFs l) ≠ 0))) →
    s.dev.logicalTp n lane = some tp → s.dev.proto n = .pcie → s.dev.inService n = true →
    0x11 ≤ s.dev.rd F.CS_RATE_RATE n → l = laneIx tp sd →
    ∀ cmd : MarginCmd, cmd ∈ [MarginCmd.stepTiming right j, .stepVoltage right k] →
      RunsOn (.marginCommand n side lane rcvr cmd) s [F.CS_PCI_MRG_LANE.key n, F.CS_PCI_MRG_RCVR.key n, F.CS_PCI_CNT_NAK_COUNT.key n] (fun e =>
        (e.lane l).marginAnswer = some .nak ∧
        e.rd F.CS_PCI_CNT_NAK_COUNT n = min (s.dev.rd F.CS_PCI_CNT_NAK_COUNT n + 1) (2 ^ F.CS_PCI_CNT_NAK_COUNT.w - 1))) ∧
  (∀ (n : Fin 512) (side sd : Side) (lane : Fin 16) (rcvr : Fin 8) (tp : Nat) (s : State), s.dev.on F.CS_PCI_STS_THIRD n = false →
    s.dev.marginSide n rcvr = some sd → s.dev.logicalTp n lane = some tp → s.dev.proto n = .pcie → s.dev.inService n = true →
    0x11 ≤ s.dev.rd F.CS_RATE_RATE n →
    RunsOn (.marginCommand n side lane rcvr .reportCapabilities) s [F.CS_PCI_MRG_LANE.key n, F.CS_PCI_MRG_RCVR.key n] (fun e =>
      (e.lane (laneIx tp sd)).marginAnswer = some (.capabilities (marginCaps (s.dev.courseBays n).length)))) ∧
  (∀ (n : Fin 512) (side sd : Side) (lane : Fin 16) (rcvr : Fin 8) (tp : Nat) (s : State) (l : Nat), s.dev.on F.CS_PCI_STS_THIRD n = false →
    s.dev.marginSide n rcvr = some sd → s.dev.logicalTp n lane = some tp → s.dev.proto n = .pcie → s.dev.inService n = true →
    0x11 ≤ s.dev.rd F.CS_RATE_RATE n → l = laneIx tp sd → (s.dev.lane l).margining = true →
    Runs (.marginCommand n side lane rcvr .goToNormal) s [.LNF, .CS] (fun e => e.fsOwner (laneFs l) = 0 ∧ (e.lane l).margining = false ∧
      (e.lane l).marginAnswer = some .normal)) ∧
  (∀ (n : Fin 512) (rate : Fin 256) (s : State), s.dev.proto n = .pcie → s.dev.rd F.CS_STS_KSTATE n = 3 →
    ((s.dev.policyTps n).all (fun tp => decide (s.dev.ks tp = 7 ∧ s.dev.ks (tp + 64) = 7))) = true → rateAllowed .pcie rate = true →
    rate ≤ s.dev.rd F.CS_RATE_RMAX n → s.dev.shellWaits n rate = false →
    Runs (.speedChangeReady n rate) s [.LN, .LNP, .PWV, .CS] (fun e => e.rd F.CS_RATE_RATE n = rate.val ∧
      e.rd F.CS_PCI_CNT_SPD_COUNT n = min (s.dev.rd F.CS_PCI_CNT_SPD_COUNT n + 1) (2 ^ F.CS_PCI_CNT_SPD_COUNT.w - 1)))

/-- Table 3.7 and R83. The events that a command raises are in the statement CourseCommands. -/
def Obligations.CourseTableRows : Prop :=
  (∀ (d : Dev) (n : Nat) (e : CourseEv), d.rd F.CS_STS_KSTATE n ≠ 0 →
    (d.on F.CS_CTL_ENABLE n = false ∨ d.rd F.CS_CTL_MODE n = 0 ∨ d.held n = true) →
    d.Row n e (fun d' => d'.rd F.CS_STS_KSTATE n = 0 ∧ d'.rd F.CS_STS_BACKOFF n = 0)) ∧
  (∀ (d : Dev) (n : Nat) (e : CourseEv), d.rd F.CS_STS_KSTATE n ≠ 0 → d.on F.CS_CTL_ENABLE n = true → d.rd F.CS_CTL_MODE n ≠ 0 →
    d.held n = false → e.changed = true →
    d.Row n e (fun d' => if (d.enterDisabled n).profileValid n then d'.rd F.CS_STS_KSTATE n = 1
      else d'.rd F.CS_STS_KSTATE n = 0 ∧ d'.rd F.CS_STS_FCODE n = 7)) ∧
  (∀ (d : Dev) (n : Nat) (e : CourseEv), d.rd F.CS_STS_KSTATE n ≠ 0 → d.rd F.CS_STS_KSTATE n ≠ 7 → d.on F.CS_CTL_ENABLE n = true →
    d.rd F.CS_CTL_MODE n ≠ 0 → d.held n = false → e.changed = false → d.coursePolicy n = 4 →
    d.Row n e (fun d' => d'.rd F.CS_STS_KSTATE n = 7 ∧ d'.rd F.CS_STS_FCODE n = 1)) ∧
  (∀ (d : Dev) (n : Nat) (e : CourseEv), d.rd F.CS_STS_KSTATE n = 7 → d.on F.CS_CTL_ENABLE n = true →
    d.rd F.CS_CTL_MODE n ≠ 0 → d.held n = false → e.changed = false → (∀ tp ∈ d.policyTps n, d.laneHealth tp ≠ 4) →
    d.Row n e (fun d' => d'.rd F.CS_STS_KSTATE n = 1)) ∧
  (∀ (d : Dev) (n : Nat) (e : CourseEv), d.rd F.CS_STS_KSTATE n = 0 → d.on F.CS_CTL_ENABLE n = true →
    d.rd F.CS_CTL_MODE n ≠ 0 → d.held n = false → d.rd F.CS_STS_FCODE n ≠ 7 →
    d.Row n e (fun d' => if d.profileValid n then d'.rd F.CS_STS_KSTATE n = 1 else d'.rd F.CS_STS_KSTATE n = 0 ∧ d'.rd F.CS_STS_FCODE n = 7)) ∧
  (∀ (d : Dev) (n : Nat) (e : CourseEv), d.courseUp n = true → e.changed = false → d.rd F.CS_STS_KSTATE n = 1 → (d.course n).backoff = false →
    d.row7Ready n e = true → d.shellWaits n (d.row7Rate n) = false → d.Row n e (fun d' => d'.rd F.CS_STS_KSTATE n = 2)) ∧
  (∀ (d : Dev) (n : Nat) (e : CourseEv), d.courseUp n = true → e.changed = false → d.rd F.CS_STS_KSTATE n = 1 → (d.course n).backoff = false →
    d.row7Ready n e = false → d.row8Ready n = true → d.shellWaits n (d.rd F.CS_RATE_RATE n) = false →
    d.refAccepted n (d.rd F.CS_RATE_RATE n) = true → d.Row n e (fun d' => d'.rd F.CS_STS_KSTATE n = 3)) ∧
  (∀ (d : Dev) (n : Nat) (e : CourseEv), d.courseUp n = true → e.changed = false → d.rd F.CS_STS_KSTATE n = 1 → (d.course n).backoff = false →
    d.row7Ready n e = false → d.row8Ready n = true → d.refAccepted n (d.rd F.CS_RATE_RATE n) = false → e.refused = false →
    d.Row n e (fun d' => d'.rd F.CS_STS_KSTATE n = 1 ∧ d'.rd F.CS_STS_FCODE n = 3)) ∧
  (∀ (d : Dev) (n : Nat) (e : CourseEv), d.courseUp n = true → e.changed = false → d.rd F.CS_STS_KSTATE n = 2 →
    (d.seg (2 * n)).done = true → (d.seg (2 * n + 1)).done = true → d.shellWaits n (d.row10Rate n) = false →
    d.Row n e (fun d' => match d.row10Fails n (d.resolvedRate n) (d.rd F.CS_ETH_RES_HCD n) with
      | none => d'.rd F.CS_STS_KSTATE n = 3 ∧ d'.rd F.CS_RATE_RATE n = d.resolvedRate n
      | some code => d'.rd F.CS_STS_KSTATE n = 1 ∧ d'.rd F.CS_STS_FCODE n = code)) ∧
  (∀ (d : Dev) (n : Nat) (e : CourseEv), d.courseUp n = true → e.changed = false → e.pciLost = false → d.rd F.CS_STS_KSTATE n = 3 →
    (e.holdExpired = true ∨ (d.segState n .a = 0 ∧ d.segState n .b = 0)) →
    d.Row n e (fun d' => d'.rd F.CS_STS_KSTATE n = 1 ∧ d'.rd F.CS_STS_FCODE n = if (d.course n).holdLost then 6 else 5)) ∧
  (∀ (d : Dev) (n : Nat) (e : CourseEv), d.courseUp n = true → e.changed = false → e.pciLost = false → e.holdExpired = false → d.rd F.CS_STS_KSTATE n = 3 →
    d.segState n .a = 3 → d.segState n .b = 3 →
    d.Row n e (fun d' => if d.skewOk n .a ∧ d.skewOk n .b then d'.rd F.CS_STS_KSTATE n = 4 ∧ d'.rd F.CS_STS_BACKOFF n = 0
      else d'.rd F.CS_STS_KSTATE n = 1 ∧ d'.rd F.CS_STS_FCODE n = 2)) ∧
  (∀ (d : Dev) (n : Nat) (e : CourseEv), d.courseUp n = true → e.changed = false → e.pciLost = false →
    (d.rd F.CS_STS_KSTATE n = 4 ∨ d.rd F.CS_STS_KSTATE n = 5 ∨ d.rd F.CS_STS_KSTATE n = 6) → e.newRate = true ∨ e.restart.isSome = true →
    d.Row n e (fun d' => (
        if e.restart = some true ∧ e.newRate = false then d'.rd F.CS_STS_KSTATE n = 2
        else if ((d.leaveService n).bump F.CS_CNT_TRAIN_COUNT n).refAccepted n (d.rd F.CS_RATE_RATE n) then d'.rd F.CS_STS_KSTATE n = 3
        else d'.rd F.CS_STS_KSTATE n = 1 ∧ d'.rd F.CS_STS_FCODE n = 3) ∧
      d'.rd F.CS_CNT_TRAIN_COUNT n = min (d.rd F.CS_CNT_TRAIN_COUNT n + 1) (2 ^ F.CS_CNT_TRAIN_COUNT.w - 1))) ∧
  (∀ (d : Dev) (n : Nat) (e : CourseEv), d.courseUp n = true → e.changed = false → e.pciLost = false → e.newRate = false → e.restart = none →
    d.rd F.CS_STS_KSTATE n = 5 → e.allsqExpired = true →
    d.Row n e (fun d' => d'.rd F.CS_STS_KSTATE n = 1 ∧ d'.rd F.CS_STS_FCODE n = 8)) ∧
  (∀ (d : Dev) (n k : Nat) (e : CourseEv), d.courseUp n = true → e.changed = false → e.pciLost = false → e.newRate = false → e.restart = none →
    e.allsqExpired = false → (d.rd F.CS_STS_KSTATE n = 4 ∨ d.rd F.CS_STS_KSTATE n = 5 ∨ d.rd F.CS_STS_KSTATE n = 6) →
    ((d.coursePolicy n = 3 ∧ k = 1) ∨ (d.coursePolicy n = 1 ∧ d.rd F.CS_STS_KSTATE n ≠ 5 ∧ k = 5) ∨
      (d.coursePolicy n = 2 ∧ d.rd F.CS_STS_KSTATE n ≠ 6 ∧ k = 6) ∨ (d.coursePolicy n = 0 ∧ d.rd F.CS_STS_KSTATE n ≠ 4 ∧ k = 4)) →
    d.Row n e (fun d' => d'.rd F.CS_STS_KSTATE n = k ∧ (k = 1 → d'.rd F.CS_STS_FCODE n = 0x0B) ∧
      (k = 5 → d'.rd F.CS_CNT_DEG_COUNT n = min (d.rd F.CS_CNT_DEG_COUNT n + 1) (2 ^ F.CS_CNT_DEG_COUNT.w - 1)))) ∧
  (∀ (d : Dev) (n : Nat) (e : CourseEv), d.courseRow n e = none → ∀ k, d.courseRun k n e = d)

/-- R82, R87, R95 to R107, R112 to R116, R125 to R128 and Tables 3.6, 4.5, 4.6. What an evaluation does is in the statement
CourseTableRows. -/
def Obligations.EthernetCourseCommands : Prop :=
  (∀ (n : Fin 512) (s : State), (s.dev.course n).tAllsq = true →
    Runs (.tAllsqExpiry n) s courseBlks (fun e => e = s.dev.courseEval n { allsqExpired := true })) ∧
  (∀ (n : Fin 512) (s : State), (s.dev.course n).tHold = true →
    Runs (.tHoldExpiry n) s courseBlks (fun e => e = s.dev.courseEval n { holdExpired := true })) ∧
  (∀ (n : Fin 512) (s : State), (s.dev.course n).backoff = true →
    Runs (.backoffEnd n) s courseBlks (fun e => ∃ x : Dev, Dev.SameBut [.CS] s.dev x ∧ (x.course n).backoff = false ∧
      x.rd F.CS_STS_BACKOFF n = min (s.dev.rd F.CS_STS_BACKOFF n + 1) 7 ∧ e = x.courseEval n)) ∧
  (∀ (n : Fin 512) (side : Side) (page : BitVec 48) (began : Nat) (s : State), (s.dev.course n).stepEnd ≤ began → s.dev.proto n = .eth → s.dev.on F.CS_CTL_AN n = true →
    s.dev.rd F.CS_CTL_ROLE n ≠ 1 → s.dev.rd F.CS_STS_KSTATE n = 2 → (s.dev.course n).backoff = false → s.dev.segState n side = 1 →
    s.dev.segState n (otherSide side) = 1 →
    Runs (.clause73Page n side false page began) s courseBlks (fun e => ∃ x : Dev, Dev.SameBut [.CS] s.dev x ∧ e = x.courseEval n ∧
      x.rd F.CS_ETH_PG_LO_PAGE_LO (segIx n side) = page.toNat % 2 ^ 32 ∧ x.rd F.CS_ETH_PG_HI_PAGE_HI (segIx n side) = page.toNat / 2 ^ 32 ∧
      x.rd F.CS_ETH_PG_HI_VALID (segIx n side) = 1 ∧ (x.seg (segIx n (otherSide side))).sentPage = some page ∧
      (pageAck page = true → pageNext page = false → (x.seg (segIx n side)).done = true))) ∧
  (∀ (n : Fin 512) (side : Side) (lane : Fin 8) (tp : Nat) (trained ready prec : Bool) (s : State), s.dev.proto n = .eth →
    phyClause (s.dev.rd F.CS_ETH_CFG_PHY n) ≠ 0 → s.dev.rd F.CS_STS_KSTATE n = 3 → s.dev.segState n side = 2 →
    s.dev.logicalTp n lane = some tp →
    Runs (.trainingFrame n side lane trained ready prec) s courseBlks (fun e => ∃ x : Dev, Dev.SameBut [.CS] s.dev x ∧ e = ((x.receiverReady n).segsReady n).courseEval n ∧
      bit (x.rd F.CS_ETH_TR_LRDY (segIx n side)) lane = (bit (s.dev.rd F.CS_ETH_TR_LRDY (segIx n side)) lane || trained ||
        decide (s.dev.rd F.LN_RX_EQ_ADAPT (laneIx tp side) ≠ 0)) ∧
      bit (x.rd F.CS_ETH_TR_PRDY (segIx n side)) lane = ready ∧ x.rd F.CS_ETH_TR_PREC_RX (segIx n side) = b2n prec)) ∧
  (∀ (n : Fin 512) (side : Side) (s : State) (c : Instr) (partner : Bool),
    ((c = .tnegExpiry n side ∧ (s.dev.seg (segIx n side)).tneg = true ∧ (s.dev.segState n side = 1 ∨ s.dev.segState n side = 2) ∧ partner = false) ∨
     (c = .partnerSilenceExpiry n side ∧ (s.dev.seg (segIx n side)).silence = true ∧ s.dev.segBusy n side = true ∧ partner = true) ∨
     (c = .ttrainExpiry n side ∧ (s.dev.seg (segIx n side)).ttrain = true ∧ s.dev.segState n side = 2 ∧ partner = false) ∨
     (c = .tDataExpiry n side ∧ (s.dev.seg (segIx n side)).tdata = true ∧ s.dev.segState n side = 2 ∧ partner = false)) →
    Runs c s courseBlks (fun e => ∃ x : Dev, Dev.SameBut [.CS] s.dev x ∧ e = x.courseEval n ∧ (x.course n).tHold = true ∧
      (x.course n).holdLost = ((s.dev.course n).holdLost || partner) ∧
      x.segState n side = (if s.dev.proto n = .eth ∧ s.dev.on F.CS_CTL_AN n = true then 1 else 0) ∧
      (s.dev.proto n = .eth → partner = false → x.rd F.CS_ETH_TR_TMO (segIx n side) = 1))) ∧
  (∀ (n : Fin 512) (side : Side) (s : State), s.dev.trains n = true → s.dev.segState n side = 2 → s.dev.on F.CS_ETH_TR_RR_SENT (segIx n side) = true →
    Runs (.partnerTrainingEnd n side) s courseBlks (fun e => ∃ x : Dev, Dev.SameBut [.CS] s.dev x ∧ e = (x.segsReady n).courseEval n ∧ (x.seg (segIx n side)).ended = true)) ∧
  (∀ (n : Fin 512) (side : Side) (skew : Nat) (last : Fin 64) (s : State), s.dev.decodedMode n = true → s.dev.inService n = true → skew ≤ 180 →
    RunsOn (.alignmentMarkerLock n side skew last) s [(if side = .a then F.CS_SKEW_SKEW_AB else F.CS_SKEW_SKEW_BA).key n] (fun e =>
      e.rd (if side = .a then F.CS_SKEW_SKEW_AB else F.CS_SKEW_SKEW_BA) n = skew * 100 ∧ (e.seg (segIx n side)).amLock = true)) ∧
  (∀ (n : Fin 512) (side : Side) (skew : Nat) (last : Fin 64) (s : State), s.dev.decodedMode n = true → s.dev.rd F.CS_STS_KSTATE n = 3 →
    Runs (.alignmentMarkerLock n side skew last) s courseBlks (fun e => ∃ x : Dev, Dev.SameBut [.CS] s.dev x ∧ e = (x.segsReady n).courseEval n ∧
      (x.seg (segIx n side)).amLock = true ∧ (x.seg (segIx n side)).skewNs = skew ∧ (x.seg (segIx n side)).skewLast = last))

/-- R82, R87, R95 to R107, R112 to R116, R125 to R128 and Tables 3.6, 4.5, 4.6. What an evaluation does is in the statement
CourseTableRows. -/
def Obligations.PciExpressAndCpriCourseCommands : Prop :=
  (∀ (n : Fin 512) (side : Side) (s : State), s.dev.proto n = .pcie → 3 ≤ s.dev.rd F.CS_STS_KSTATE n →
    Runs (.partnerReceiverDetection n side) s courseBlks (fun e => e = s.dev.courseEval n { pciLost := true })) ∧
  (∀ (n : Fin 512) (a b : BitVec 16) (s : State), s.dev.proto n = .pcie → s.dev.rd F.CS_STS_KSTATE n = 1 →
    Runs (.receiverDetection n a b) s courseBlks (fun e => ∃ x : Dev, Dev.SameBut [.CS] s.dev x ∧ e = x.courseEval n ∧
      (x.seg (2 * n)).rxDet = decide (a.toNat % 2 ^ (s.dev.courseTps n).length = 2 ^ (s.dev.courseTps n).length - 1) ∧
      (x.seg (2 * n + 1)).rxDet = decide (b.toNat % 2 ^ (s.dev.courseTps n).length = 2 ^ (s.dev.courseTps n).length - 1))) ∧
  (∀ (n : Fin 512) (side : Side) (lane : Fin 16) (tp : Nat) (f : TsFields) (s : State), s.dev.logicalTp n lane = some tp →
    s.dev.proto n = .pcie → s.dev.rd F.CS_STS_KSTATE n = 3 →
    Runs (.orderedSetReceived n side lane (.ts f)) s [.CS, .LN, .LNF, .TSU, .CL, .UD, .MG, .PWV] (fun e =>
      (e.seg (segIx n side)).sentOs = s.dev.rewriteOs n lane (.ts f) ∧
      e.rd (ltssmFld side) n = ltssmCode f.partner)) ∧
  (∀ (n : Fin 512) (side : Side) (lane : Fin 16) (tp : Nat) (s : State), s.dev.logicalTp n lane = some tp →
    s.dev.proto n = .pcie → s.dev.inService n = true →
    RunsOn (.orderedSetReceived n side lane .eios) s [] (fun e => (e.lane (laneIx tp side)).eios = true)) ∧
  (∀ (n : Fin 512) (side : Side) (lane : Fin 16) (tp : Nat) (s : State), s.dev.logicalTp n lane = some tp →
    s.dev.proto n = .pcie → s.dev.inService n = true → 0x09 ≤ s.dev.rd F.CS_RATE_RATE n → s.dev.ks (laneIx tp side) ≠ 7 →
    Runs (.orderedSetReceived n side lane .eieos) s courseBlks (fun e => e.rd (ltssmFld side) n = 4)) ∧
  (∀ (n : Fin 512) (side : Side) (lane : Fin 16) (tp : Nat) (os : OrderedSet) (s : State), s.dev.logicalTp n lane = some tp →
    s.dev.proto n = .pcie → s.dev.rd F.CS_STS_KSTATE n = 3 →
    ((os = .sds ∧ 0x10 ≤ s.dev.rd F.CS_RATE_RATE n) ∨ (os = .logicalIdle ∧ s.dev.rd F.CS_RATE_RATE n ≤ 0x09 ∧ (s.dev.seg (segIx n side)).lastTs2 = true)) →
    Runs (.orderedSetReceived n side lane os) s courseBlks (fun e => ∃ x : Dev, Dev.SameBut [.CS] s.dev x ∧ e = (x.segsReady n).courseEval n ∧
      (x.seg (segIx n side)).sdsSeen = true ∧ x.rd (ltssmFld side) n = 3)) ∧
  (∀ (n : Fin 512) (side : Side) (s : State), s.dev.follows n = true →
    RunsOn (.incomingRateChange n side) s [(hfnFld side).key n, (rxRateFld side).key n] (fun e => e.rd (hfnFld side) n = 0 ∧ e.rd (rxRateFld side) n = 0 ∧
      (e.seg (segIx n side)).done = false ∧ (e.seg (segIx n side)).hfnHold = false ∧
      (e.seg (segIx n side)).measuring = ! ((s.dev.seg (segIx n side)).following && (s.dev.soleLane n side).any (fun l => ! s.dev.lanePllLocked l)) ∧
      (e.seg (segIx n side)).measureAgain = ! (e.seg (segIx n side)).measuring)) ∧
  (∀ (n : Fin 512) (side : Side) (rate : Fin 256) (l : Nat) (s : State), s.dev.follows n = true → (s.dev.seg (segIx n side)).measuring = true →
    s.dev.soleLane n side = some l → s.dev.shellWaits n rate = false → s.dev.inService n = false →
    Runs (.rateIdentified n side rate) s [.CS, .LN, .LNP, .PWV, .UD, .MG] (fun e => e.rd (refuseFld side) n = s.dev.refuseCode n rate ∧
      e.rd (rxRateFld side) n = (if rateAllowed .cpri rate then rate.val else 0) ∧
      if s.dev.refuseCode n rate = 0 then (e.seg (segIx n side)).following = true ∧ e.rd F.LN_STS_LOCK l = 0
      else (e.lane (laneOpp l)).txIdle = true)) ∧
  (∀ (n : Fin 512) (side : Side) (rate : Fin 256) (l : Nat) (s : State), s.dev.follows n = true → (s.dev.seg (segIx n side)).measuring = true →
    s.dev.soleLane n side = some l → s.dev.inService n = true → rate.val = s.dev.rd F.CS_RATE_RATE n → s.dev.refuseCode n rate = 0 →
    RunsOn (.rateIdentified n side rate) s [(rxRateFld side).key n, (refuseFld side).key n] (fun e => e.rd (rxRateFld side) n = rate.val ∧
      e.rd (refuseFld side) n = 0 ∧ (e.seg (segIx n side)).measuring = false)) ∧
  (∀ (n : Fin 512) (side : Side) (l : Nat) (s : State), s.dev.follows n = true → (s.dev.seg (segIx n side)).following = true →
    s.dev.soleLane n side = some l → s.dev.lanePllLocked l = true →
    Runs (.rateFollowLock n side) s courseBlks (fun e => ∃ x : Dev, Dev.SameBut [.CS, .LN] s.dev x ∧ e = x.courseEval n ∧ x.rd F.LN_STS_LOCK l = 1 ∧
      (x.seg (segIx n side)).following = false ∧ (x.lane (laneOpp l)).txIdle = false)) ∧
  (∀ (n : Fin 512) (side : Side) (sync : Bool) (s : State), s.dev.proto n = .cpri → s.dev.rd F.CS_STS_KSTATE n ≠ 0 →
    (side = .b ∨ s.dev.decodedMode n = false) →
    Runs (.hyperframeStart n side sync) s courseBlks (fun e => ∃ x : Dev, Dev.SameBut [.CS] s.dev x ∧ e = x.courseEval n ∧ x.rd (hfnFld side) n = b2n sync ∧
      (s.dev.segState n side = 2 → (x.seg (segIx n side)).hfnHold = sync) ∧
      (s.dev.segState n side = 1 → (x.seg (segIx n side)).done = (sync && s.dev.rateCommon n)))) ∧
  (∀ (n : Fin 512) (side : Side) (ab ba : BitVec 24) (s : State), (s.dev.seg (segIx n side)).hfnHold = true → s.dev.segState n side = 2 →
    s.dev.on (hfnFld side) n = true →
    Runs (.hfnholdExpiry n side ab ba) s courseBlks (fun e => ∃ x : Dev, Dev.SameBut [.CS] s.dev x ∧ e = x.courseEval n { lat := some (ab, ba) } ∧
      x.segState n side = 3 ∧ (x.seg (segIx n side)).hfnHold = false))

/-- R151 to R164, R184 to R193. -/
def Obligations.FrameCommands : Prop :=
  (∀ (tp : Fin 64) (f : FrameIn) (n : Nat) (s : State), s.dev.decodedEth tp = some n →
    s.dev.pointActive (2 * ((s.dev.logicalTp n 0).getD tp) + 1) = false →
    RunsOn (.frameIngress tp .b f) s [] (fun e => (e.point (2 * tp + 1)).flight = (s.dev.point (2 * tp + 1)).flight ++
      [s.dev.judge (2 * tp + 1) n f false (s.dev.ingressTime (tp + 64) (2 * tp + 1) n f.interp f.pin)])) ∧
  (∀ (tp : Fin 64) (side : Side) (interp : Fin 1024) (pout : Nat) (x : FlightX) (rest : List FlightX) (s : State),
    (s.dev.point (2 * tp + sideN side)).flight = x :: rest → x.candidate = false →
    RunsOn (.frameCorrection tp side interp pout) s [] (fun e => (e.point (2 * tp + sideN side)).flight = rest ∧
      (e.point (2 * tp + sideN side)).sent = x.bytes)) ∧
  (∀ (tp : Fin 64) (side : Side) (interp : Fin 1024) (pout : Nat) (x : FlightX) (rest : List FlightX) (s : State),
    (s.dev.point (2 * tp + sideN side)).flight = x :: rest → x.candidate = true → x.correct = false →
    RunsOn (.frameCorrection tp side interp pout) s [F.TSU_CNT_UNCORR_COUNT.key (2 * tp + sideN side)] (fun e =>
      (e.point (2 * tp + sideN side)).flight = rest ∧ (e.point (2 * tp + sideN side)).sent = x.bytes ∧
      e.rd F.TSU_CNT_UNCORR_COUNT (2 * tp + sideN side) = min (s.dev.rd F.TSU_CNT_UNCORR_COUNT (2 * tp + sideN side) + 1) (2 ^ 32 - 1))) ∧
  (∀ (tp : Fin 64) (side : Side) (interp : Fin 1024) (pout : Nat) (x : FlightX) (rest : List FlightX) (s : State) (u : Nat),
    u = 2 * tp + sideN side → (s.dev.point u).flight = x :: rest → x.candidate = true → x.correct = true →
    ∀ new : List Byte, new = setOctets (frameBody x.bytes) x.field (bytesBE (unsigned 64
        (s.dev.fieldSum (signed 64 (natBE (((frameBody x.bytes).drop x.field).take 8))) (freeDiff (s.dev.egressTime u interp pout) x.tIn * 64)).1) 8) →
    Runs (.frameCorrection tp side interp pout) s [.TSU] (fun e => (e.point u).flight = rest ∧
      (e.point u).sent = fcsUpdate x.bytes (match x.csum with | none => new | some cs => csumUpdate (frameBody x.bytes) new x.field 8 cs) ∧
      e.rd F.TSU_CNT_CORR_COUNT u = min (s.dev.rd F.TSU_CNT_CORR_COUNT u + 1) (2 ^ 32 - 1) ∧
      e.rd F.TSU_LAST_RES_RES u = unsigned 32 (freeDiff (s.dev.egressTime u interp pout) x.tIn))) ∧
  (∀ (tp : Fin 64) (side : Side) (bt del : Nat) (pte seen conf : List EccSeen) (s : State) (u : Nat), u = 2 * tp + sideN side →
    s.dev.insQueue u = none →
    RunsOn (.insertionPlace tp side bt del pte seen conf) s [F.TS_IE_STS_CREDIT.key u, F.TS_IE_STS_ELASTIC.key u] (fun e =>
      e.rd F.TS_IE_STS_CREDIT u = min 4096 (s.dev.rd F.TS_IE_STS_CREDIT u + ((s.dev.point u).credRem + bt) / 100) ∧
      e.rd F.TS_IE_STS_ELASTIC u = s.dev.rd F.TS_IE_STS_ELASTIC u - del)) ∧
  (∀ (tp : Fin 64) (side : Side) (bt del : Nat) (pte seen conf : List EccSeen) (s : State) (u q : Nat) (head : List Byte), u = 2 * tp + sideN side →
    s.dev.insQueue u = some q → s.dev.pointActive u = true → (s.dev.point u).lost = false → head = Memory.read s.mem (s.dev.rd F.PU_QHEAD_HEAD q * 512) 32 →
    malformed head = false → s.dev.rd F.TS_IE_STS_ELASTIC u - del + (recLen head + 24) ≤ 16384 →
    recLen head + 24 ≤ s.dev.rd F.TS_IE_STS_CREDIT u → s.dev.rd F.TS_IE_STS_CREDIT u + ((s.dev.point u).credRem + bt) / 100 ≤ 4096 →
    RunsWide (.insertionPlace tp side bt del pte seen conf) s (fun t => (t.dev.point u).placed.length = (s.dev.point u).placed.length + 1 ∧
      t.dev.rd F.TS_IE_STS_CREDIT u = s.dev.rd F.TS_IE_STS_CREDIT u + ((s.dev.point u).credRem + bt) / 100 - (recLen head + 24) ∧
      t.dev.rd F.TS_IE_STS_ELASTIC u = s.dev.rd F.TS_IE_STS_ELASTIC u - del + (recLen head + 24))) ∧
  (∀ (tp : Fin 64) (side : Side) (interp : Fin 1024) (pout : Nat) (conf : List EccSeen) (x : PlacedX) (rest : List PlacedX) (s : State) (u : Nat),
    u = 2 * tp + sideN side → (s.dev.point u).placed = x :: rest → recFlag x.record 2 = false →
    RunsOn (.insertedFrameStamp tp side interp pout conf) s [F.TS_IE_CNT_INS_COUNT.key u] (fun e => (e.point u).placed = rest ∧
      (e.point u).sent.length = recLen x.record + 4 ∧ e.rd F.TS_IE_CNT_INS_COUNT u = min (s.dev.rd F.TS_IE_CNT_INS_COUNT u + 1) (2 ^ 32 - 1))) ∧
  (∀ (tp : Fin 64) (side : Side) (pte seen conf : List EccSeen) (s : State) (u q : Nat), u = 2 * tp + sideN side → s.dev.insQueue u = some q →
    RunsWide (.maxwaitExpiry tp side pte seen conf) s (fun t =>
      t.dev.rd F.TS_IE_CNT_DROP_COUNT u = min (s.dev.rd F.TS_IE_CNT_DROP_COUNT u + 1) (2 ^ 32 - 1)))

/-- R151 to R164, R184 to R193. -/
def Obligations.ClassifierCommands : Prop :=
  (∀ (r : Bool) (s : State), s.dev.domOn rowAT = true → s.dev.on F.TS_CLS_STS_BUSY = false →
    RunsOn (.clsInsert r) s [F.TS_CLS_STS_BUSY.key 0] (fun e => e.on F.TS_CLS_STS_BUSY = true ∧ e.cls = some { op := 1, replace := r, entry := s.dev.clsStaged }) ∧
    RunsOn .clsDelete s [F.TS_CLS_STS_BUSY.key 0] (fun e => e.on F.TS_CLS_STS_BUSY = true ∧ e.cls = some { op := 2, entry := s.dev.clsStaged }) ∧
    RunsOn .clsLookup s [F.TS_CLS_STS_BUSY.key 0] (fun e => e.on F.TS_CLS_STS_BUSY = true ∧ e.cls = some { op := 3, entry := s.dev.clsStaged })) ∧
  (∀ (r : Bool) (s : State) (c : Instr), s.dev.domOn rowAT = true → s.dev.on F.TS_CLS_STS_BUSY = true →
    c ∈ [Instr.clsInsert r, .clsDelete, .clsLookup] →
    RunsOn c s [F.TS_CLS_STS_RESULT.key 0] (fun e => e.rd F.TS_CLS_STS_RESULT = 6 ∧ e.cls = s.dev.cls)) ∧
  (∀ (seen : List EccSeen) (c : ClsX) (s : State), s.dev.cls = some c → s.dev.on F.TS_CLS_BASE_EN = false ∨ keyOk (c.entry.take 24) = false →
    RunsOn (.clsCommandDone seen) s [F.TS_CLS_STS_BUSY.key 0, F.TS_CLS_STS_RESULT.key 0] (fun e => e.cls = none ∧ e.on F.TS_CLS_STS_BUSY = false ∧
      e.rd F.TS_CLS_STS_RESULT = if s.dev.on F.TS_CLS_BASE_EN then 5 else 4)) ∧
  (∀ (seen : List EccSeen) (c : ClsX) (s : State) (ws : List (Nat × List Byte)), s.dev.cls = some c → s.dev.on F.TS_CLS_BASE_EN = true →
    keyOk (c.entry.take 24) = true → s.dev.domOn rowM = true → (c.op = 1 ∨ c.op = 2 ∨ c.op = 3) → ws = (s.bucket (keyBucket (c.entry.take 24)) seen).2 →
    RunsWide (.clsCommandDone seen) s (fun t => t.dev.cls = none ∧ t.dev.on F.TS_CLS_STS_BUSY = false ∧
      t.dev.rd F.TS_CLS_STS_RESULT =
        (match wayOf ws (c.entry.take 24) with
         | some _ => if c.op = 1 ∧ c.replace = false then 1 else 0
         | none => if c.op = 1 then (if (List.range 4).all (fun k => bit (octet (ws.getD k (0, [])).2 0) 7) then 2 else 0) else 3) ∧
      (c.op = 2 → (wayOf ws (c.entry.take 24)).isSome = true → t.dev.rd F.TS_CLS_STS_COUNT = s.dev.rd F.TS_CLS_STS_COUNT - 1)))

/-- R169 to R179, R194, R197 and Tables 7.1 and 7.3. -/
def Obligations.PulseAndPtpInputCommands : Prop :=
  (∀ (i : Fin 1024) (s : State), s.dev.domOn rowAT = true → s.dev.on F.PW_WAKEEN_PPS = false →
    Runs (.ppsInEdge i) s [.MG, .SN, .TB, .TS, .UD] (fun e => e.eng.ppsFree = some (s.dev.freeU + i) ∧ e.eng.ppsNamed = false)) ∧
  (∀ (m : TimeMessage) (s : State), s.dev.domOn rowAT = true → s.dev.eng.ppsFree.isSome = true → 1000 ≤ m.sinceUs → m.sinceUs ≤ 900000 →
    m.decodes = true → m.clockClass.toNat ≤ s.dev.rd F.TS_PPS_IN_MINQL → s.dev.eng.ppsNamed = false →
    Runs (.ppsInTimeMessage m) s [.MG, .SN, .TB, .TS, .UD] (fun e => e.eng.ppsNamed = true ∧ e.eng.ppsSec = some m.second.toNat ∧
      e.eng.ppsTe = s.dev.eng.ppsTime - ((m.second.toNat * 1000000000 * 65536 : Nat) : Int))) ∧
  (∀ s : State, s.dev.domOn rowAT = true → s.dev.eng.ppsFree.isSome = true →
    Runs .ppsPulseTimeout s [.MG, .SN, .TB, .TS, .UD] (fun e => e.on F.TS_STS_PPSQ = false ∧ e.eng.ppsCount = 0)) ∧
  (∀ s : State, s.dev.domOn rowAT = true → s.dev.on F.TS_STS_PPSQ = true →
    Runs .ppsMessageTimeout s [.MG, .SN, .TB, .TS, .UD] (fun e => e.on F.TS_STS_PPSQ = false ∧ e.eng.ppsCount = 0)) ∧
  (∀ (off delay : Int) (v : Bool) (c : Fin 256) (s : State) (h : Nat), s.dev.domOn rowAT = true →
    h = s.dev.rd F.TS_SVC_STS_HEALTH (s.dev.rd F.TS_CTL_PTPSVC) →
    Runs (.ptpSample off delay v c) s [.MG, .SN, .TB, .TS, .UD] (fun e =>
      if v = true ∧ h ≠ 3 ∧ h ≠ 4 then
        e.eng.ptpTe = off ∧ e.eng.pathDelay = delay ∧ e.eng.parentCls = c ∧ e.eng.ptpSince = some (s.dev.eng.ptpSince.getD s.dev.freeU)
      else if h ≠ 3 ∧ h ≠ 4 ∧ (s.dev.eng.ptpMoved = true ∨ (s.dev.ptpPorts ≠ s.dev.eng.ptpPorts ∧ s.dev.on F.TS_STS_PTPQ = true)) then
        e.eng.ptpSince = s.dev.eng.ptpSince ∧ e.on F.TS_STS_PTPQ = s.dev.on F.TS_STS_PTPQ
      else e.on F.TS_STS_PTPQ = false ∧ e.eng.ptpSince = none)) ∧
  (∀ s : State, s.dev.domOn rowAT = true → s.dev.eng.ptpSince.isSome = true →
    Runs .ptpSampleTimeout s [.MG, .SN, .TB, .TS, .UD] (fun e => e.on F.TS_STS_PTPQ = false ∧ e.eng.ptpSince = none)) ∧
  (∀ (w : BitVec 32) (s : State), s.dev.domOn rowAT = true →
    Runs (.tsCtlWrite w) s [.MG, .PWV, .SN, .TB, .TS, .UD] (fun e => e.rd F.TS_CTL_ENABLE = bits w.toNat 0 1 ∧ e.rd F.TS_CTL_TPRIO = bits w.toNat 1 1 ∧
      e.rd F.TS_CTL_STEPANY = bits w.toNat 2 1 ∧ e.rd F.TS_CTL_MINGRP = bits w.toNat 3 4 ∧ e.rd F.TS_CTL_PPS_EN = bits w.toNat 7 1 ∧
      e.rd F.TS_CTL_PTP_EN = bits w.toNat 8 1 ∧ e.rd F.TS_CTL_PTPSVC = bits w.toNat 9 3)) ∧
  (∀ s : State, s.dev.engState = 3 ∨ s.dev.engState = 4 → s.dev.engOn = true → s.dev.bestRef = none →
    Runs .holdoverLimitExpiry s [.MG, .SN, .TB, .TS, .UD] (fun e => e.engState = 5))

/-- R169 to R179, R194, R197 and Tables 7.1 and 7.3. -/
def Obligations.LineReferenceAndEnsembleCommands : Prop :=
  (∀ (k : Fin 16) (side : Side) (ql : Fin 16) (f : Bool) (s : State), s.dev.domOn rowAT = true → s.dev.esmcServes k = true →
    s.dev.rd F.TS_LREF_CTL_SIDE k = b2n (decide (side = .b)) →
    Runs (.qlReport k side ql f) s [.MG, .SN, .TB, .TS, .UD] (fun e => e.rd F.TS_LREF_STS_QL k = ql ∧ e.rd F.TS_LREF_STS_QLFAIL k = b2n f)) ∧
  (∀ (k : Fin 16) (s : State), s.dev.domOn rowAT = true → s.dev.esmcServes k = true →
    Runs (.qlFailed k) s [.MG, .SN, .TB, .TS, .UD] (fun e => e.rd F.TS_LREF_STS_QLFAIL k = 1 ∧ e.rd F.TS_LREF_STS_QL k = s.dev.rd F.TS_LREF_STS_QL k)) ∧
  (∀ (k : Fin 16) (s : State), s.dev.slotOk k = true → (s.dev.slot k).course = s.dev.slotCourse k → (s.dev.slot k).wtr = true →
    Runs (.lineSlotWtrExpiry k) s [.MG, .SN, .TB, .TS, .UD] (fun e => e.on F.TS_LREF_STS_QUAL k = true ∧ (e.slot k).wtr = false)) ∧
  (∀ (k : Fin 16) (x z p : Int) (last : Bool) (s : State), s.dev.domOn rowAT = true →
    Runs (.lineSlotSecond k x z p last) s [.MG, .SN, .TB, .TS, .UD] (fun e => (e.slot k).x = x ∧ (e.slot k).z = z ∧
      ((s.dev.slot k).course = s.dev.slotCourse k → (e.slot k).freqOk = decide (p.natAbs ≤ 460)) ∧ (last = true → e.eng.sec = s.dev.eng.sec + 1))) ∧
  (∀ (k : Fin 16) (w : BitVec 32) (s : State), s.dev.domOn rowAT = true →
    Runs (.lrefCtlWrite k w) s [.MG, .SN, .TB, .TS, .UD] (fun e => e.on F.TS_LREF_STS_QUAL k = false ∧
      e.rd F.TS_LREF_CTL_COURSE k = bits w.toNat 0 9 ∧ e.rd F.TS_LREF_CTL_EN k = bits w.toNat 9 1 ∧ e.rd F.TS_LREF_CTL_QLREQ k = bits w.toNat 10 1 ∧
      e.rd F.TS_LREF_CTL_SIDE k = bits w.toNat 11 1 ∧ e.rd F.TS_LREF_CTL_MINQL k = bits w.toNat 16 4 ∧ e.rd F.TS_LREF_CTL_WTR k = bits w.toNat 20 12)) ∧
  (∀ s : State, s.dev.engState = 1 → s.dev.eng.lockRun = some true → s.dev.engOn = true → s.dev.refQual (s.dev.rd F.TS_STS_ACTREF) = true →
    Runs .locktExpiry s [.MG, .SN, .TB, .TS, .UD] (fun e => e.engState = 2 ∧ e.rd F.TS_HOLD_T_HOLD_T = 0)) ∧
  (∀ s : State, s.dev.engState = 2 → RunsOn .fmemValid s [F.TS_STS_FMEM.key 0] (fun e => e.on F.TS_STS_FMEM = true)) ∧
  (∀ (k : Fin 16) (s : State), s.dev.engState = 2 → s.dev.on F.TS_LREF_STS_QUAL k = true →
    Runs (.ensembleMemberJoin k) s [.TS] (fun e => e.on F.TS_LREF_STS_MEMBER k = true)) ∧
  (∀ s : State, s.dev.engState = 2 → Runs .ensembleGrouping s [.TS] (fun e =>
    e.eng.groups.length = (s.dev.partition ((List.range 16).filter (fun k => s.dev.on F.TS_LREF_STS_MEMBER k))).length)) ∧
  (∀ s : State, s.dev.engState ≠ 2 → Nothing .ensembleGrouping s) ∧
  (∀ (tp : Fin 64) (id : Fin 4096) (s : State), id.val = 0x040 + tp.val → s.dev.rd F.UD_IDENT_KIND id = 1 →
    Runs (.healthPublish id) s [.CS, .MG, .SN, .TB, .TS, .UD] (fun e => e.rd F.UD_STATE_KSTATE id = s.dev.unitKs tp ∧ e.rd F.UD_STATE_HEALTH id = s.dev.laneHealth tp)) ∧
  (∀ (n : Fin 512) (id : Fin 4096) (s : State), id.val = 0x200 + n.val → s.dev.rd F.UD_IDENT_KIND id = 2 →
    Runs (.healthPublish id) s (.SN :: .TB :: .TS :: courseBlks) (fun e => e = (s.dev.courseEval n).slotsEval)) ∧
  (∀ (id : Fin 4096) (s : State), s.dev.rd F.UD_IDENT_KIND id = 6 →
    Runs (.healthPublish id) s [.MG, .SN, .TB, .TS, .UD] (fun e => e.rd F.UD_STATE_HEALTH id = (s.dev.groupSwitch id).groupPolicy id)) ∧
  (∀ (id : Fin 4096) (st : Nat) (s : State), s.dev.rd F.UD_IDENT_KIND id = 7 → st = s.dev.rd F.PW_DOM_STATE (s.dev.rd F.UD_INDEX_INDEX id) →
    Runs (.healthPublish id) s [.MG, .SN, .TB, .TS, .UD] (fun e => e.rd F.UD_STATE_KSTATE id = st ∧ e.rd F.UD_STATE_HEALTH id = domHealth st))

/-- R181 to R183, R194 to R196 and Table 7.11. -/
def Obligations.TimeOutputsAndServices : Prop :=
  (∀ s : State, s.dev.domOn rowAT = true → s.dev.rd F.TS_OUT_CTL_PPS_W ≠ 0 → s.dev.eng.ppsOut = false →
    (s.dev.on F.TS_OUT_CTL_SQ && s.dev.outSquelch) = false →
    RunsOn .ppsOutEdge s [] (fun e => e.eng.ppsOut = true ∧ e.eng.todDue = s.dev.on F.TS_OUT_CTL_TOD_EN ∧
      (s.dev.rd F.TS_PPS_OFS_OFS = 0 → s.dev.time < 2 ^ 48 * (1000000000 * 65536) - 1000000000 * 65536 →
        e.eng.ppsOutSec = (s.dev.time + 500000000 * 65536) / (1000000000 * 65536)))) ∧
  (∀ s : State, s.dev.on F.TS_OUT_CTL_SQ = true → s.dev.outSquelch = true → Nothing .ppsOutEdge s ∧ Nothing .todOutMessage s) ∧
  (∀ s : State, RunsOn .ppsOutPulseEnd s [] (fun e => e.eng.ppsOut = false)) ∧
  (∀ s : State, s.dev.domOn rowAT = true → s.dev.eng.todDue = true → s.dev.on F.TS_OUT_CTL_TOD_EN = true →
    (s.dev.on F.TS_OUT_CTL_SQ && s.dev.outSquelch) = false →
    RunsOn .todOutMessage s [] (fun e => e.eng.todDue = false ∧
      e.eng.tod = some (s.dev.eng.ppsOutSec, if (List.range 8).any (fun k => decide (s.dev.rd F.TS_SVC_STS_KIND k = 1) && s.dev.svcRuns k)
        then s.dev.clockClass else 248))) ∧
  (∀ s : State, s.dev.domOn rowAT = true → RunsOn .engState s [] (fun e =>
    e.eng.sent = some (s.dev.engState, s.dev.rd F.TS_STS_ACTREF, s.dev.rd F.TS_HOLD_T_HOLD_T, s.dev.clockClass,
      ((List.range 16).filter (fun k => s.dev.on F.TS_LREF_STS_MEMBER k)).filterMap (fun k => (s.dev.slot k).course)) ∧
    e.dm.msgState = s.dev.engState ∧ e.dm.nTrans = s.dev.dm.nTrans + b2n (s.dev.dm.running && decide (s.dev.dm.msgState ≠ s.dev.engState)))) ∧
  (∀ (k : Fin 8) (s : State), s.dev.domOn rowAT = true → s.dev.svcRuns k = true →
    RunsOn (.timeRead k) s [] (fun e => e.eng.timeRead.find? k = some (s.dev.time, s.dev.free))) ∧
  (∀ (n : Fin 512) (k m : Nat) (s : State), s.dev.boundService n = some k → s.dev.rd F.TS_SVC_STS_KIND k = 2 → s.dev.svcRuns k = true →
    m = (if s.dev.rd F.CS_CTL_ROLE n = 1 ∧ 0x200 ≤ s.dev.rd F.CS_SEL_ACTIVE n then s.dev.rd F.CS_SEL_ACTIVE n - 0x200 else n.val) →
    RunsOn (.esmcInfoPdu n) s [] (fun e => e.eng.ssm.find? n =
      some (if (List.range 16).any (fun i => (decide ((s.dev.slot i).course = some m) || decide (s.dev.rd F.TS_LREF_CTL_COURSE i = n.val)) && (s.dev.on F.TS_LREF_STS_MEMBER i || decide (s.dev.eng.synSlot = some i)))
        then 0xF else if s.dev.engState = 2 then 0x2 else 0xB)))

/-- R252 to R260 and Tables 10.4 to 10.6. -/
def Obligations.QueuePortCommands : Prop :=
  (∀ (who : Fin 320) (port : Fin 4) (q : Fin 16384) (data : List (BitVec 8)) (s : State), (64 ≤ who.val ∨ s.dev.domOn (rowL who) = true) → s.dev.queueReady who = true →
    data.length ≠ 0 → data.length ≤ 16384 → s.dev.on F.PU_QCFG_EN q = true → s.dev.rd F.PU_QSTS_KSTATE q = 2 →
    s.dev.enqAllowed q ((data.length + 511) / 512) = 0 →
    RunsWide (.enq who port q data []) s (fun t => t.dev.pu.answers.find? (who * 4 + port) = some { status := 0 } ∧
      t.dev.rd F.PU_QDEPTH_DEPTH q = (s.dev.rd F.PU_QDEPTH_DEPTH q + 1) % 2 ^ 19 ∧
      t.dev.rd F.PU_QPAGES_PAGES q = (s.dev.rd F.PU_QPAGES_PAGES q + (data.length + 511) / 512) % 2 ^ 19)) ∧
  (∀ (who : Fin 320) (port : Fin 4) (q : Fin 16384) (data : List (BitVec 8)) (pte : List EccSeen) (s : State) (a : Nat), (64 ≤ who.val ∨ s.dev.domOn (rowL who) = true) → s.dev.queueReady who = true →
    data.length ≠ 0 → data.length ≤ 16384 → s.dev.on F.PU_QCFG_EN q = true → s.dev.rd F.PU_QSTS_KSTATE q = 2 →
    s.dev.enqAllowed q ((data.length + 511) / 512) = a → a ≠ 0 →
    Runs (.enq who port q data pte) s [.PU, .PWV, .UD, .MG] (fun e => e.pu.answers.find? (who * 4 + port) = some { status := a } ∧ (a = 2 ∨ a = 3) ∧
      e.rd F.PU_QDROP_DROP q = min (s.dev.rd F.PU_QDROP_DROP q + 1) (2 ^ 32 - 1) ∧ e.rd F.PU_QSTS_KSTATE q = 3 ∧
      e.rd F.PU_QDEPTH_DEPTH q = s.dev.rd F.PU_QDEPTH_DEPTH q)) ∧
  (∀ (who : Fin 320) (port : Fin 4) (q : Fin 16384) (data : List (BitVec 8)) (pte : List EccSeen) (s : State) (c : Instr), (64 ≤ who.val ∨ s.dev.domOn (rowL who) = true) → s.dev.queueReady who = true →
    data.length ≠ 0 → data.length ≤ 16384 → c = .enq who port q data pte ∨ c = .queueStatus who port q →
    (s.dev.on F.PU_QCFG_EN q = false → Runs c s [.PWV] (fun e => e.pu.answers.find? (who * 4 + port) = some { status := 4 })) ∧
    (s.dev.on F.PU_QCFG_EN q = true → s.dev.rd F.PU_QSTS_KSTATE q = 4 →
      Runs c s [.PWV] (fun e => e.pu.answers.find? (who * 4 + port) = some { status := 6 }))) ∧
  (∀ (who : Fin 320) (port : Fin 4) (grp : Bool) (tgt : Fin 16384) (pte seen : List EccSeen) (s : State), (64 ≤ who.val ∨ s.dev.domOn (rowL who) = true) → s.dev.queueReady who = true →
    s.dev.queueDenied grp tgt who = none → s.dev.targetQueue grp tgt who = none →
    Runs (.deq who port grp tgt pte seen) s [.PWV] (fun e => e.pu.answers.find? (who * 4 + port) = some { status := 1 })) ∧
  (∀ (who : Fin 320) (port : Fin 4) (grp : Bool) (tgt : Fin 16384) (pte seen : List EccSeen) (s : State) (q : Nat) (sc : NMap SchedX), (64 ≤ who.val ∨ s.dev.domOn (rowL who) = true) → s.dev.queueReady who = true →
    s.dev.queueDenied grp tgt who = none → s.dev.targetQueue grp tgt who = some (q, sc) → s.dev.rd F.PU_QSTS_KSTATE q ≠ 4 → s.dev.mt.ops = [] →
    RunsWide (.deq who port grp tgt pte seen) s (fun t => t.mem = s.mem ∧
      (∃ a : QAnswer, t.dev.pu.answers.find? (who * 4 + port) = some a ∧ a.queue = q ∧ a.len = s.dev.headLen q ∧
        (pte = [] → seen = [] → s.dev.mt.bad = [] → a.beats = (s.dev.headPages q).flatMap (fun p =>
          (List.range (((s.dev.pte p).fill + 31) / 32)).map (fun k => (0, Memory.read s.mem (p * 512 + 32 * k) 32))))) ∧
      t.dev.rd F.PU_QDEPTH_DEPTH q = s.dev.rd F.PU_QDEPTH_DEPTH q - 1 ∧ t.dev.pu.sched = sc)) ∧
  (∀ (who : Fin 320) (port : Fin 4) (grp : Bool) (tgt : Fin 16384) (s : State), (64 ≤ who.val ∨ s.dev.domOn (rowL who) = true) → s.dev.queueReady who = true → s.dev.queueDenied grp tgt who = none →
    Runs (.notify who port grp tgt) s [.PWV] (fun e =>
      if (s.dev.targetQueue grp tgt who).isSome then e.pu.answers.find? (who * 4 + port) = some {}
      else ∃ r : QReq, r ∈ e.pu.notifies ∧ r.who = who ∧ r.port = port ∧ r.grp = grp ∧ r.tgt = tgt)) ∧
  (∀ (who : Fin 320) (port : Fin 4) (q : Fin 16384) (s : State), (64 ≤ who.val ∨ s.dev.domOn (rowL who) = true) → s.dev.queueReady who = true → s.dev.on F.PU_QCFG_EN q = true → s.dev.rd F.PU_QSTS_KSTATE q ≠ 4 →
    Runs (.queueStatus who port q) s [.PWV] (fun e => e.pu.answers.find? (who * 4 + port) =
      some { status := 0, queue := q, beats := [(0, bytesLE (s.dev.rd F.PU_QPAGES_PAGES q + s.dev.rd F.PU_QDEPTH_DEPTH q * 2 ^ 32) 32)] })) ∧
  (∀ (who : Fin 320) (port : Fin 4) (grp : Bool) (q : Fin 16384) (data : List (BitVec 8)) (pte seen : List EccSeen) (s : State) (c : Instr),
    c ∈ [Instr.enq who port q data pte, .deq who port grp q pte seen, .notify who port grp q, .queueStatus who port q] →
    (who.val < 64 → s.dev.domOn (rowL who) = false → Nothing c s) ∧
    ((64 ≤ who.val ∨ s.dev.domOn (rowL who) = true) → s.dev.queueReady who = false →
      RunsOn c s [] (fun e => ∃ r : QReq, e.pu.waits = s.dev.pu.waits ++ [r] ∧ r.who = who ∧ r.port = port ∧ r.tgt = q))) ∧
  (∀ (q : Fin 16384) (found : List (Fin 262144 × EccSeen)) (s : State), s.dev.rd F.PU_QSTS_KSTATE q = 5 →
    Runs (.queueSweepDone q found) s [.PU, .PWV, .UD, .MG, .SN] (fun e => e.rd F.PU_QDEPTH_DEPTH q = 0 ∧ e.rd F.PU_QPAGES_PAGES q = 0 ∧
      e.rd F.PU_QSTS_KSTATE q = (if s.dev.pu.pendEn.contains q.val then 2 else 1)))

/-- R198 to R221 and Tables 8.4, 8.9 to 8.12. -/
def Obligations.RegionMessageAndGutterCommands : Prop :=
  (∀ (r : Fin 64) (n : Fin 512) (off : Fin 32) (whole : Bool) (s : State), s.dev.domOn (rowL r) = true →
    (s.dev.fbx r).msgLost = false → RunsOn (.cstRead r n off whole) s [] (fun e => (e.fbx r).cst =
      if whole then (List.range 16).map (fun k => s.dev.courseWord n k) else [s.dev.courseWord n off])) ∧
  (∀ (r : Fin 64) (s : State), s.dev.domOn (rowL r) = true → (s.dev.fbx r).msgLost = false →
    Runs (.trigReq r) s [.MG, .SN, .UD] (fun e => e = Dev.fire { s.dev with svcTurn := s.dev.svcTurn.put (r % 16) (r / 16) } 2)) ∧
  (∀ (r : Fin 64) (n : Fin 512) (off : Fin 32) (whole p : Bool) (c : Fin 64) (s : State), s.dev.domOn (rowL r) = false →
    Nothing (.cstRead r n off whole) s ∧ Nothing (.trigReq r) s ∧ Nothing (.cswReq r p c) s) ∧
  (∀ (r : Fin 64) (p : Bool) (c : Fin 64) (s : State), s.dev.domOn (rowL r) = true → s.dev.rd F.FB_CFG_SELMODE r = 2 → s.dev.domOn rowC = true →
    (s.dev.fbx r).msgLost = false → (s.dev.fbx r).bist = false → (s.dev.residentSlot r ⟨p, c⟩).isSome = true →
    Runs (.cswReq r p c) s [.FB] (fun e => (e.fbx r).csw = some 0 ∧
      ((e.fbx r).sel = none ∨ (e.fbx r).sel = some { ctx := ⟨p, c⟩, course := none, self := true }))) ∧
  (∀ (r : Fin 64) (p : Bool) (c : Fin 64) (s : State), s.dev.domOn (rowL r) = true → s.dev.rd F.FB_CFG_SELMODE r ≠ 2 → (s.dev.fbx r).msgLost = false →
    (s.dev.fbx r).bist = false →
    RunsOn (.cswReq r p c) s [] (fun e => (e.fbx r).csw = some 4)) ∧
  (∀ (r : Fin 64) (w : BitVec 32) (s : State), s.dev.domOn (rowL r) = true → s.dev.on F.PW_DOM_VWAIT (rowL r) = false →
    RunsOn (.fbPaceWrite r w) s [F.FB_PACE_CAP.key r, F.FB_STS_WREJ.key r] (fun e =>
      if bits w.toNat 0 12 ≠ 0 ∧ bits w.toNat 0 12 < s.dev.rd F.FB_PACE_FLOOR r then
        e.rd F.FB_STS_WREJ r = 1 ∧ e.rd F.FB_PACE_CAP r = s.dev.rd F.FB_PACE_CAP r
      else e.rd F.FB_PACE_CAP r = bits w.toNat 0 12 ∧ e.rd F.FB_STS_WREJ r = s.dev.rd F.FB_STS_WREJ r)) ∧
  (∀ (tp : Fin 64) (side : Side) (w : GutterWord) (took l : Nat) (s : State), l = laneIx tp side → s.dev.gutActive l = true → s.dev.gutLive l = true →
    (∀ r, s.dev.gutRegion l = some r → (s.dev.fbx r).sel = none) → ((s.dev.gutter l).inb.drop took).length < 32 →
    RunsOn (.gutterInboundWord tp side w took) s [] (fun e => (e.gutter l).inb =
      (s.dev.gutter l).inb.drop took ++ [{ w with err := w.err || (s.dev.gutter l).errNext }])) ∧
  (∀ (tp : Fin 64) (side : Side) (w : GutterWord) (took l r : Nat) (s : State), l = laneIx tp side → s.dev.gutActive l = true → s.dev.gutLive l = true →
    s.dev.gutRegion l = some r → (s.dev.fbx r).sel = none → 32 ≤ ((s.dev.gutter l).inb.drop took).length →
    RunsOn (.gutterInboundWord tp side w took) s [F.FB_CNT_GOVF_COUNT.key r] (fun e => (e.gutter l).inb = (s.dev.gutter l).inb.drop took ∧
      (e.gutter l).errNext = true ∧ e.rd F.FB_CNT_GOVF_COUNT r = min (s.dev.rd F.FB_CNT_GOVF_COUNT r + 1) (2 ^ 32 - 1))) ∧
  (∀ (tp : Fin 64) (side : Side) (w : GutterWord) (took l : Nat) (s : State), l = laneIx tp side → s.dev.gutActive l = true → s.dev.gutLive l = true →
    (∀ r, s.dev.gutRegion (laneOpp l) = some r → (s.dev.fbx r).sel = none) → (s.dev.gutter l).outWait = none →
    RunsOn (.gutterOutboundWord tp side w took) s [] (fun e =>
      if (s.dev.gutter l).outb.length < 32 then (e.gutter l).outb = (s.dev.gutter l).outb ++ [w] ∧ (e.gutter l).outWait = none
      else (e.gutter l).outb = (s.dev.gutter l).outb ∧ (e.gutter l).outWait = some w)) ∧
  (∀ (tp : Fin 64) (side : Side) (b : Bool) (l r : Nat) (s : State), l = laneIx tp side → s.dev.gutRegion l = some r → s.dev.gutActive l = true →
    (s.dev.gutter l).outb = [] →
    RunsOn (.gutterUnderrun tp side b) s [F.FB_CNT_GUNF_COUNT.key r] (fun e => (e.gutter l).outb = [] ∧ (e.gutter l).filling = true ∧
      (e.gutter l).sent = (if b then 1 else 2) ∧ e.rd F.FB_CNT_GUNF_COUNT r = min (s.dev.rd F.FB_CNT_GUNF_COUNT r + 1) (2 ^ 32 - 1)))

/-- R198 to R221 and Tables 8.4, 8.9 to 8.12. -/
def Obligations.ContextAndPageCommands : Prop :=
  (∀ (r : Fin 64) (x : SelX) (k : Nat) (s : State), (s.dev.fbx r).sel = some x → s.dev.residentSlot r x.ctx = some k → s.dev.selDue x = true →
    s.dev.domOn rowC = true → s.dev.domOn (rowL r) = true →
    Runs (.contextSwitch r) s [.FB, .MG, .PWV, .SN, .ST, .UD] (fun e => (e.fbx r).sel = none ∧ e.on F.FB_SLOT_ACTIVE (8 * r + k) = true ∧
      e.rd F.FB_CNT_SW_COUNT r = min (s.dev.rd F.FB_CNT_SW_COUNT r + 1) (2 ^ 32 - 1))) ∧
  (∀ (r : Fin 64) (g : PagingX) (s : State), (s.dev.fbx r).paging = some g → (s.dev.fbx r).sel = none → s.dev.mt.bad = [] → s.dev.mt.ops = [] → s.dev.mt.waits = [] →
    (s.dev.fbx r).retry = false →
    Runs (.pageInComplete r false true []) s [.FB, .PWV, .UD] (fun e => (e.fbx r).paging = none ∧ e.rd F.FB_STS_PGBUSY r = 0 ∧
      e.rd F.FB_SLOT_KIND (8 * r + g.frame) = 3 ∧ e.rd F.FB_SLOT_PNUM (8 * r + g.frame) = g.pnum % 64)) ∧
  (∀ (r : Fin 64) (g : PagingX) (p : Bool) (s : State), (s.dev.fbx r).paging = some g → (s.dev.fbx r).sel = none → s.dev.mt.bad = [] → s.dev.mt.ops = [] → s.dev.mt.waits = [] →
    (s.dev.fbx r).retry = false →
    Runs (.pageInComplete r p false []) s [.CF, .FB, .MG, .PWV, .UD] (fun e => (e.fbx r).paging = none ∧ e.on F.CF_STS_FAULTS = true ∧
      e.rd F.FB_SLOT_KIND (8 * r + g.frame) = s.dev.rd F.FB_SLOT_KIND (8 * r + g.frame))) ∧
  (∀ (r : Fin 64) (x : SelX) (s : State) (d1 : Dev), (s.dev.fbx r).retry = true → (s.dev.fbx r).sel = some x → x.ctx.paged = true →
    s.dev.residentSlot r x.ctx = none → (s.dev.fbx r).paging = none → s.dev.domOn rowC = true → s.dev.startPageIn r x.ctx.num false = some d1 →
    Runs (.pageInRetry r) s [.FB, .PWV, .UD] (fun e => e = d1 ∧ (e.fbx r).retry = false ∧ (e.fbx r).paging.isSome = true)) ∧
  (∀ (r p : Fin 64) (s : State) (d1 : Dev), s.dev.domOn (rowL r) = true → s.dev.on F.FB_PGSTS_BUSY r = false → bit s.dev.img.paged p = true →
    s.dev.residentSlot r ⟨true, p⟩ = none → s.dev.domOn rowC = true → (s.dev.fbx r).paging = none → s.dev.startPageIn r p true = some d1 →
    Runs (.prefetch r p) s [.FB, .PWV, .UD] (fun e => e.rd F.FB_PGSTS_BUSY r = 1 ∧ e.rd F.FB_PGSTS_RESULT r = 0 ∧ e.rd F.FB_STS_PGBUSY r = 1 ∧
      e.rd F.FB_CNT_PGIN_COUNT r = min (s.dev.rd F.FB_CNT_PGIN_COUNT r + 1) (2 ^ 32 - 1))) ∧
  (∀ (r p : Fin 64) (k : Nat) (s : State), s.dev.domOn (rowL r) = true → s.dev.on F.FB_PGSTS_BUSY r = false → bit s.dev.img.paged p = true →
    s.dev.residentSlot r ⟨true, p⟩ = some k →
    RunsOn (.pagePin r p) s [F.FB_SLOT_PIN.key (8 * r + k), F.FB_PGSTS_RESULT.key r] (fun e => e.on F.FB_SLOT_PIN (8 * r + k) = true ∧
      e.rd F.FB_PGSTS_RESULT r = b2n (s.dev.on F.FB_SLOT_PIN (8 * r + k))) ∧
    RunsOn (.pageUnpin r p) s [F.FB_SLOT_PIN.key (8 * r + k), F.FB_PGSTS_RESULT.key r] (fun e => e.on F.FB_SLOT_PIN (8 * r + k) = false ∧
      e.rd F.FB_PGSTS_RESULT r = b2n (! s.dev.on F.FB_SLOT_PIN (8 * r + k)))) ∧
  (∀ (r p : Fin 64) (k : Nat) (s : State), s.dev.domOn (rowL r) = true → s.dev.on F.FB_PGSTS_BUSY r = false → bit s.dev.img.paged p = true →
    s.dev.residentSlot r ⟨true, p⟩ = some k → s.dev.on F.FB_SLOT_ACTIVE (8 * r + k) = false → (s.dev.fbx r).sel = none →
    Runs (.evict r p) s [.FB, .UD] (fun e => e.rd F.FB_SLOT_KIND (8 * r + k) = 2 ∧ e.rd F.FB_SLOT_PIN (8 * r + k) = 0 ∧ e.rd F.FB_PGSTS_RESULT r = 0))

/-- R222 to R247 and Tables 9.2, 9.3, 9.7, 9.8. -/
def Obligations.SparPortCommands : Prop :=
  (∀ (p : SparPort) (tag : Fin 64) (addr : BitVec 29) (mask : BitVec 32) (data : BitVec 256) (beats : List WriteBeat) (s : State) (c : Instr) (kind : Nat),
    s.dev.sparExists p tag = true → s.dev.domOn rowM = true → s.dev.mt.ops = [] → s.dev.mt.waits = [] →
    (p.master.val < 64 → (s.dev.fbx p.master).paging = none ∧ (s.dev.fbx p.master).quiet = false) → s.dev.on F.MT_STS_WIPING = false →
    ((c = .sparReadWord p tag addr ∧ kind = 0) ∨ (c = .sparWriteWord p tag addr mask data ∧ kind = 1) ∨ (c = .sparReadBlock p tag addr ∧ kind = 2) ∨
      (c = .sparWriteBlock p tag addr beats ∧ kind = 3)) →
    Runs c s [.FB, .MG, .MT] (fun e => e.rd F.MT_INFLT_COUNT = 1 ∧ ∃ o : Op, e.mt.ops = [o] ∧ o.master = p.master ∧ o.port = p.port ∧ o.tag = tag ∧
      o.kind = kind ∧ o.addr = addr.toNat ∧ o.denied = s.dev.isDenied o)) ∧
  (∀ (p : SparPort) (tag : Fin 64) (addr : BitVec 29) (mask : BitVec 32) (data : BitVec 256) (beats : List WriteBeat) (s : State) (c : Instr),
    s.dev.sparExists p tag = true → s.dev.domOn rowM = false →
    c ∈ [Instr.sparReadWord p tag addr, .sparWriteWord p tag addr mask data, .sparReadBlock p tag addr, .sparWriteBlock p tag addr beats] →
    RunsOn c s [] (fun e => e.mt.ops = s.dev.mt.ops ∧ e.mt.waits.length = s.dev.mt.waits.length + 1)) ∧
  (∀ (p : SparPort) (tag : Fin 64) (addr : BitVec 29) (mask : BitVec 32) (data : BitVec 256) (beats : List WriteBeat) (s : State) (c : Instr),
    s.dev.sparExists p tag = false →
    c ∈ [Instr.sparReadWord p tag addr, .sparWriteWord p tag addr mask data, .sparReadBlock p tag addr, .sparWriteBlock p tag addr beats] → Nothing c s) ∧
  (∀ (p : SparPort) (tag : Fin 64) (ecc : List EccSeen) (earlier : List (List EccSeen)) (o : Op) (s : State), s.dev.mt.ops = [o] → o.master = p.master → o.port = p.port → o.tag = tag → o.badResp = none → o.waitReq = false → o.waitResp = false →
    o.served = none → s.dev.mt.waits = [] → (64 ≤ p.master.val ∨ s.dev.domOn (rowL p.master) = true) →
    o.denied = true →
    Runs (.sparResponse p tag ecc earlier) s [.FB, .MT] (fun e => e.mt.ops = [] ∧ e.mt.answers.find? (p.master * 8 + p.port) =
      some { tag := tag, beats := List.replicate (if o.kind = 2 then 8 else 1) (3, List.replicate 32 0) })) ∧
  (∀ (p : SparPort) (tag : Fin 64) (earlier : List (List EccSeen)) (o : Op) (s : State), s.dev.mt.ops = [o] → o.master = p.master → o.port = p.port → o.tag = tag → o.badResp = none → o.waitReq = false → o.waitResp = false →
    o.served = none → s.dev.mt.waits = [] → (64 ≤ p.master.val ∨ s.dev.domOn (rowL p.master) = true) →
    o.denied = false → o.badReq = false → o.kind = 0 → s.dev.mt.bad = [] →
    Runs (.sparResponse p tag [] earlier) s [.FB, .MT] (fun e => e.mt.ops = [] ∧ e.mt.answers.find? (p.master * 8 + p.port) =
      some { tag := tag, beats := [(0, Memory.read s.mem (wordAddr (o.addr % 2 ^ 27)) 32)] })) ∧
  (∀ (p : SparPort) (tag : Fin 64) (ecc : List EccSeen) (earlier : List (List EccSeen)) (o : Op) (s : State) (v : BitVec 256), State.wf s → s.dev.mt.ops = [o] → o.master = p.master → o.port = p.port → o.tag = tag → o.badResp = none → o.waitReq = false → o.waitResp = false →
    o.served = none → s.dev.mt.waits = [] → (64 ≤ p.master.val ∨ s.dev.domOn (rowL p.master) = true) →
    o.denied = false → o.badReq = false → o.kind = 1 → o.view = 0 → o.beats = [(2 ^ 32 - 1, v.toNat)] →
    RunsWide (.sparResponse p tag ecc earlier) s (fun t => t.dev.mt.ops = [] ∧
      t.mem = Memory.writeWord s.mem (wordAddr (o.addr % 2 ^ 27)) 0 (2 ^ 32 - 1) v.toNat ∧
      (∀ k, k < 32 → Memory.get t.mem (wordAddr (o.addr % 2 ^ 27) + k) = byteOf v.toNat k) ∧
      (∀ a, (a < wordAddr (o.addr % 2 ^ 27) ∨ wordAddr (o.addr % 2 ^ 27) + 32 ≤ a) → Memory.get t.mem a = Memory.get s.mem a))) ∧
  (∀ (o : Op) (s : State), s.dev.mt.waits = [o] → s.dev.mayAck o = true → s.dev.mt.ops = [] →
    Runs .inflightPlaceFreed s [.FB, .MG, .MT] (fun e => e.mt.waits = [] ∧ e.mt.ops.length = 1 ∧ e.mt.lastServed = o.master))

/-- R222 to R247 and Tables 9.2, 9.3, 9.7, 9.8. -/
def Obligations.ScrubWindowAndGuardCommands : Prop :=
  (∀ (bank : Fin 512) (s : State), s.dev.rd F.MT_CTL_SCRUB_INT ≠ 0 → s.dev.domOn rowM = true → s.dev.mt.bad = [] →
    RunsOn (.scrub bank .clean) s [] (fun e => e.mt.scrub.at bank 0 = (s.dev.mt.scrub.at bank 0 + 1) % 8192) ∧
    (∀ b, RunsOn (.scrub bank (.single b)) s [F.MT_CNT_CE_COUNT.key 0] (fun e => e.mt.scrub.at bank 0 = (s.dev.mt.scrub.at bank 0 + 1) % 8192 ∧
      e.rd F.MT_CNT_CE_COUNT = min (s.dev.rd F.MT_CNT_CE_COUNT + 1) (2 ^ 32 - 1))) ∧
    (∀ b, Runs (.scrub bank (.double b)) s [.MT, .MG, .SN, .UD] (fun e => e.mt.scrub.at bank 0 = (s.dev.mt.scrub.at bank 0 + 1) % 8192 ∧
      e.rd F.MT_CNT_UE_COUNT = min (s.dev.rd F.MT_CNT_UE_COUNT + 1) (2 ^ 32 - 1) ∧
      e.rd F.MT_CNT_POISON_COUNT = min (s.dev.rd F.MT_CNT_POISON_COUNT + 1) (2 ^ 32 - 1)))) ∧
  (∀ (a : BitVec 20) (w : BitVec 32) (seen : EccSeen) (s : State), a.toNat % 4 ≠ 0 → Nothing (.windowRead a seen) s ∧ Nothing (.windowWrite a w seen) s) ∧
  (∀ (a : BitVec 20) (w : BitVec 32) (seen : EccSeen) (s : State), a.toNat % 4 = 0 → s.dev.domOn rowM = false →
    RunsOn (.windowRead a seen) s [F.PW_STS_OFFACC.key 0] (fun e => e.on F.PW_STS_OFFACC = true ∧ e.mt.winRead = 0) ∧
    RunsOn (.windowWrite a w seen) s [F.PW_STS_OFFACC.key 0] (fun e => e.on F.PW_STS_OFFACC = true)) ∧
  (∀ (a : BitVec 20) (w : BitVec 32) (s : State), State.wf s → a.toNat % 4 = 0 → s.dev.domOn rowM = true → s.dev.mt.ops = [] → s.dev.mt.waits = [] →
    s.dev.mt.bad = [] → s.dev.rd F.MT_WINBASE_VIEW = 0 → s.dev.windowAddr a.toNat < 0x7C00000 →
    RunsWide (.windowWrite a w .clean) s (fun t => (∀ k, k < 4 → Memory.get t.mem (s.dev.windowAddr a.toNat + k) = byteOf w.toNat k) ∧
      ∀ x, (x < s.dev.windowAddr a.toNat ∨ s.dev.windowAddr a.toNat + 4 ≤ x) → Memory.get t.mem x = Memory.get s.mem x) ∧
    RunsWide (.windowRead a .clean) s (fun t => t.mem = s.mem ∧ t.dev.mt.winRead = natLE (Memory.read s.mem (s.dev.windowAddr a.toNat) 4))) ∧
  (∀ (b : GuardedBlock) (crc : BitVec 32) (s : State), s.dev.mt.guards.find? (guardKey b) = none → guardOk b crc = false →
    RunsOn (.guardedBlock b crc) s [] (fun e => e.mt.guards.find? (guardKey b) = some { fails := 1, block := b })) ∧
  (∀ (b : GuardedBlock) (crc : BitVec 32) (s : State), s.dev.mt.guards.find? (guardKey b) = none → guardOk b crc = true →
    ((∃ u bs, b = .record u bs) ∨ (∃ n r bs, b = .message n r bs) ∨ (∃ r bs, b = .config r bs) ∨ (∃ r n bs, b = .pageIn r n bs) → Nothing (.guardedBlock b crc) s) ∧
    (∀ p tag op a beats, b = .request p tag op a beats → RunsOn (.guardedBlock b crc) s [] (fun e =>
      ∀ o ∈ e.mt.ops, o.master = p.master → o.port = p.port → o.tag = tag → o.waitReq = false)) ∧
    (∀ tp side w, b = .gutterIn tp side w → s.dev.gutActive (laneIx tp side) = true → (s.dev.gutter (laneIx tp side)).inb.length < 32 →
      RunsOn (.guardedBlock b crc) s [] (fun e => (e.gutter (laneIx tp side)).inb =
        (s.dev.gutter (laneIx tp side)).inb ++ [{ w with err := w.err || (s.dev.gutter (laneIx tp side)).errNext }]))) ∧
  (∀ (p : SparPort) (tag : Fin 64) (op : Fin 4) (a : BitVec 24) (beats : List WriteBeat) (b : GuardedBlock) (n : Fin 858) (crc : BitVec 32) (g : GuardX)
    (s : State), b = .request p tag op a beats → guardNumber b = n → s.dev.mt.guards.find? (guardKey b) = some g →
    (guardOk b crc = true → RunsOn (.resendRequest n b crc) s [F.MT_CNT_RESEND_COUNT.key 0] (fun e => e.mt.guards.find? (guardKey b) = none ∧
      e.rd F.MT_CNT_RESEND_COUNT = min (s.dev.rd F.MT_CNT_RESEND_COUNT + 1) (2 ^ 32 - 1))) ∧
    (guardOk b crc = false → g.fails < 3 → RunsOn (.resendRequest n b crc) s [F.MT_CNT_RESEND_COUNT.key 0] (fun e =>
      e.mt.guards.find? (guardKey b) = some { fails := g.fails + 1, block := b } ∧
      e.rd F.MT_CNT_RESEND_COUNT = min (s.dev.rd F.MT_CNT_RESEND_COUNT + 1) (2 ^ 32 - 1))) ∧
    (guardOk b crc = false → g.fails = 3 → Runs (.resendRequest n b crc) s [.MT, .MG, .SN, .UD] (fun e => e.mt.guards.find? (guardKey b) = none ∧
      e.rd F.MT_CNT_POISON_COUNT = min (s.dev.rd F.MT_CNT_POISON_COUNT + 1) (2 ^ 32 - 1) ∧
      ∀ o ∈ e.mt.ops, o.master = p.master → o.port = p.port → o.tag = tag → o.badReq = true))) ∧
  (∀ s : State, s.dev.on F.MT_STS_COMPAT_PEND = true →
    s.dev.mt.ops.any (fun o => decide (o.seq < s.dev.mt.compatSeq) && ! o.denied && ! o.badReq) = false →
    RunsOn .compatChange s [F.MT_CTL_COMPAT.key 0, F.MT_STS_COMPAT_PEND.key 0] (fun e => e.rd F.MT_CTL_COMPAT = b2n s.dev.mt.compat ∧
      e.on F.MT_STS_COMPAT_PEND = false))

/-- R261 to R267 and Table 10.6. -/
def Obligations.TransactionSlotCommands : Prop :=
  (∀ (who : Initiator) (k : Nat) (s : State), s.dev.pw.good = true → (who = .host → s.dev.ulState = 2) →
    s.dev.openSlot who = some k →
    Runs (.gateOpen who) s [.TG] (fun e => e.rd F.TG_SLOT_STS_STATE k = 1 ∧ e.rd F.TG_SLOT_STS_COUNT k = 0 ∧ e.rd F.TG_SLOT_STS_OUTCOME k = 0 ∧
      e.rd F.TG_SLOT_STS_OWNER k = ownerCode who ∧ (e.gateSlot k).staged = [] ∧
      (∀ j, j ≠ k → e.rd F.TG_SLOT_STS_STATE j = s.dev.rd F.TG_SLOT_STS_STATE j ∧ e.gateSlot j = s.dev.gateSlot j) ∧
      (who = .host → e.rd F.TG_RES_CODE = 0 ∧ e.rd F.TG_RES_SLOT = k))) ∧
  (∀ (who : Initiator) (s : State), s.dev.pw.good = false → Nothing (.gateOpen who) s) ∧
  (∀ (s : State), s.dev.pw.good = true → s.dev.ulState ≠ 2 → RunsOn (.gateOpen .host) s [F.TG_RES_CODE.key 0] (fun e => e.rd F.TG_RES_CODE = 2 ∧ e.gate = s.dev.gate)) ∧
  (∀ (s : State), s.dev.pw.good = true → s.dev.ulState = 2 → s.dev.openSlot .host = none →
    RunsOn (.gateOpen .host) s [F.TG_RES_CODE.key 0] (fun e => e.rd F.TG_RES_CODE = 1 ∧ e.gate = s.dev.gate)) ∧
  (∀ (who : Initiator) (k : Fin 16) (a : BitVec 24) (v m : BitVec 32) (r : Reg) (i : Nat) (s : State), (slotsOf who).contains k.val = true →
    s.dev.rd F.TG_SLOT_STS_STATE k = 1 → (s.dev.gateSlot k).staged = [] → s.dev.stagedReg [] (a.toNat / 4 * 4) = some (r, i) → r.block ≠ .dm →
    mergeBits 0 m.toNat (s.dev.commitMask r i) = m.toNat →
    Runs (.gateStage who k a v m) s [.TG] (fun e => (e.gateSlot k).staged = [{ addr := a.toNat / 4 * 4, reg := r, i := i, data := v.toNat, mask := m.toNat }] ∧
      e.rd F.TG_SLOT_STS_COUNT k = 1 ∧ e.rd F.TG_SLOT_STS_STATE k = 1 ∧ (who = .host → e.rd F.TG_RES_CODE = 0))) ∧
  (∀ (k : Fin 16) (n : Fin 512) (a : BitVec 24) (v m : BitVec 32) (s : State) (c : Instr),
    (c ∈ [Instr.gateStage .host k a v m, .commitImmediate .host k, .commitBoundary .host k n, .commitMarker .host k n, .gateAbort .host k] →
      (slotsOf .host).contains k.val = false → RunsOn c s [F.TG_RES_CODE.key 0] (fun e => e.rd F.TG_RES_CODE = 6 ∧ e.gate = s.dev.gate)) ∧
    (c ∈ [Instr.gateStage .host k a v m, .commitImmediate .host k, .commitBoundary .host k n, .commitMarker .host k n] →
      (slotsOf .host).contains k.val = true → s.dev.rd F.TG_SLOT_STS_STATE k ≠ 1 →
      RunsOn c s [F.TG_RES_CODE.key 0] (fun e => e.rd F.TG_RES_CODE = 5 ∧ e.gate = s.dev.gate)) ∧
    (c = .gateAbort .host k → (slotsOf .host).contains k.val = true → s.dev.rd F.TG_SLOT_STS_STATE k ≠ 1 → s.dev.rd F.TG_SLOT_STS_STATE k ≠ 2 →
      RunsOn c s [F.TG_RES_CODE.key 0] (fun e => e.rd F.TG_RES_CODE = 5 ∧ e.gate = s.dev.gate))) ∧
  (∀ (k : Fin 16) (a : BitVec 24) (v m : BitVec 32) (s : State), (slotsOf .host).contains k.val = true → s.dev.rd F.TG_SLOT_STS_STATE k = 1 →
    (s.dev.stagedReg (s.dev.gateSlot k).staged (a.toNat / 4 * 4) = none →
      RunsOn (.gateStage .host k a v m) s [F.TG_RES_CODE.key 0] (fun e => e.rd F.TG_RES_CODE = 3 ∧ e.gate = s.dev.gate)) ∧
    (∀ r i, s.dev.stagedReg (s.dev.gateSlot k).staged (a.toNat / 4 * 4) = some (r, i) → r.block ≠ .dm →
      mergeBits 0 m.toNat (s.dev.commitMask r i) = m.toNat → 256 ≤ (s.dev.gateSlot k).staged.length →
      (s.dev.gateSlot k).staged.any (fun w => decide (w.addr = a.toNat / 4 * 4)) = false →
      RunsOn (.gateStage .host k a v m) s [F.TG_RES_CODE.key 0] (fun e => e.rd F.TG_RES_CODE = 4 ∧ e.gate = s.dev.gate))) ∧
  (∀ (who : Initiator) (k : Fin 16) (n : Fin 512) (c : Instr) (mode course : Nat) (s : State), (slotsOf who).contains k.val = true →
    s.dev.rd F.TG_SLOT_STS_STATE k = 1 →
    ((c = .commitImmediate who k ∧ mode = 0 ∧ course = 0) ∨ (c = .commitBoundary who k n ∧ mode = 1 ∧ course = n.val) ∨
      (c = .commitMarker who k n ∧ mode = 2 ∧ course = n.val)) →
    Runs c s [.TG] (fun e => e.rd F.TG_SLOT_STS_STATE k = 2 ∧ e.rd F.TG_SLOT_STS_MODE k = mode ∧ e.rd F.TG_SLOT_STS_COURSE k = course ∧
      (e.gateSlot k).staged = (s.dev.gateSlot k).staged ∧ (who = .host → e.rd F.TG_RES_CODE = 0))) ∧
  (∀ (who : Initiator) (k : Fin 16) (s : State), (slotsOf who).contains k.val = true →
    s.dev.rd F.TG_SLOT_STS_STATE k = 1 ∨ s.dev.rd F.TG_SLOT_STS_STATE k = 2 →
    Runs (.gateAbort who k) s [.MG, .SN, .TG, .UD] (fun e => e.rd F.TG_SLOT_STS_STATE k = 3 ∧ e.rd F.TG_SLOT_STS_OUTCOME k = 4 ∧
      (e.gateSlot k).staged = [] ∧ e.rd F.TG_CNT_ABORT_COUNT = min (s.dev.rd F.TG_CNT_ABORT_COUNT + 1) (2 ^ 32 - 1) ∧
      (who = .host → e.rd F.TG_RES_CODE = 0)))

/-- R261 to R267 and Table 10.6. -/
def Obligations.CommitInstants : Prop :=
  (∀ (k : Fin 16) (s : State), s.dev.commitDue k = false → Nothing (.commitApply k) s) ∧
  (∀ (k : Fin 16) (s : State), s.dev.commitDue k = true → (∀ j, j < k.val → s.dev.commitDue j = false) →
    s.dev.commitWaits (s.dev.stagedOf k) = [] →
    (∀ a, 8 ≤ k.val → s.dev.conflictOf k = some a →
      Runs (.commitApply k) s [.MG, .SN, .TG, .UD] (fun e => e.rd F.TG_SLOT_STS_STATE k = 3 ∧ e.rd F.TG_SLOT_STS_OUTCOME k = 3 ∧
        e.rd F.TG_SLOT_CONF_ADDR k = a % 2 ^ 24 ∧ e.rd F.TG_SLOT_CONF_VALID k = 1)) ∧
    (∀ a, 8 ≤ k.val → s.dev.conflictOf k = none → s.dev.valueAbort k (s.dev.stagedOf k) = some a →
      Runs (.commitApply k) s [.MG, .SN, .TG, .UD] (fun e => e.rd F.TG_SLOT_STS_STATE k = 3 ∧ e.rd F.TG_SLOT_STS_OUTCOME k = 7 ∧
        e.rd F.TG_SLOT_CONF_ADDR k = a % 2 ^ 24 ∧ e.rd F.TG_SLOT_CONF_VALID k = 1)) ∧
    (s.dev.conflictOf k = none → s.dev.valueAbort k (s.dev.stagedOf k) = none → s.dev.quotaAbort (s.dev.stagedOf k) = true →
      Runs (.commitApply k) s [.MG, .SN, .TG, .UD] (fun e => e.rd F.TG_SLOT_STS_STATE k = 3 ∧ e.rd F.TG_SLOT_STS_OUTCOME k = 6)) ∧
    (s.dev.conflictOf k = none → s.dev.valueAbort k (s.dev.stagedOf k) = none → s.dev.quotaAbort (s.dev.stagedOf k) = false →
      ∃ t, exec (.commitApply k) s = .next t ∧ t.pending = s.pending ∧ t.dev.rd F.TG_SLOT_STS_STATE k = 3 ∧ t.dev.rd F.TG_SLOT_STS_OUTCOME k = 1 ∧
        (t.dev.gateSlot k).staged = []) ∧
    (∀ w : StagedWrite, s.dev.stagedOf k = [w] → w.reg = .FB_WIN_BASE → (regDomain w.reg w.i = 0 ∨ s.dev.domOn (regDomain w.reg w.i) = true) →
      s.dev.conflictOf k = none → s.dev.valueAbort k [w] = none → s.dev.quotaAbort [w] = false →
      Runs (.commitApply k) s [.FB, .TG] (fun e => e.rd F.FB_WIN_BASE_BASE w.i = w.field F.FB_WIN_BASE_BASE (s.dev.rd F.FB_WIN_BASE_BASE w.i) ∧
        e.rd F.FB_WIN_BASE_EN w.i = w.field F.FB_WIN_BASE_EN (s.dev.rd F.FB_WIN_BASE_EN w.i) ∧
        e.rd F.TG_CNT_COMMIT_COUNT = min (s.dev.rd F.TG_CNT_COMMIT_COUNT + 1) (2 ^ 32 - 1)))) ∧
  (∀ (k : Fin 16) (s : State), s.dev.rd F.TG_SLOT_STS_STATE k = 2 → s.dev.rd F.TG_SLOT_STS_MODE k ≠ 0 → s.dev.commitDue k = false → 8 ≤ k.val →
    Runs (.boundaryTimeout k) s [.MG, .SN, .TG, .UD] (fun e => e.rd F.TG_SLOT_STS_STATE k = 3 ∧ e.rd F.TG_SLOT_STS_OUTCOME k = 2 ∧
      (e.gateSlot k).staged = [])) ∧
  (∀ (k : Fin 16) (s : State), (s.dev.rd F.TG_SLOT_STS_STATE k ≠ 2 ∨ s.dev.rd F.TG_SLOT_STS_MODE k = 0 ∨ s.dev.commitDue k = true) →
    Nothing (.boundaryTimeout k) s)

/-- R276 to R284 of spec/11_dormer.md, R239 of spec/09_memory_tier.md. -/
def Obligations.SealRecordCommands : Prop :=
  (∀ s : State, s.dev.dm.running = true →
    RunsOn .intervalEnd s [] (fun e => e.dm.running = true ∧ e.dm.startFree = s.dev.freeU ∧ e.dm.meters = [] ∧
      ∃ rs : List (List Byte), e.dm.recs = s.dev.dm.recs ++ rs ∧ e.dm.seq = s.dev.dm.seq + rs.length ∧
        rs.length = (if s.dev.dm.ring = true ∧ s.dev.dm.halted = false then partsOf s.dev.meterList.length else 0))) ∧
  (∀ s : State, s.dev.dm.running = false → Nothing .intervalEnd s) ∧
  (∀ (p : Bool) (s : State), (s.dev.dm.recs = [] ∨ s.dev.domOn rowM = false ∨ s.dev.on F.MT_STS_WIPING = true) → Nothing (.recordWrite p) s) ∧
  (∀ s : State, s.dev.dm.recs ≠ [] → s.dev.domOn rowM = true → s.dev.on F.MT_STS_WIPING = false → s.dev.dm.retry = false →
    RunsOn (.recordWrite true) s [] (fun e => e.dm.retry = true ∧ e.dm.recs = s.dev.dm.recs)) ∧
  (∀ s : State, s.dev.dm.recs ≠ [] → s.dev.domOn rowM = true → s.dev.on F.MT_STS_WIPING = false → s.dev.dm.retry = true →
    Runs (.recordWrite true) s [.DM, .MG, .PWV, .UD] (fun e => e.dm.retry = false ∧ e.dm.recs = [] ∧ e.dm.halted = true)) ∧
  (∀ (r : List Byte) (rs : List (List Byte)) (s : State), State.wf s → s.dev.dm.recs = r :: rs → r.length = 512 → s.dev.domOn rowM = true → s.dev.mt.ops = [] →
    s.dev.on F.MT_STS_WIPING = false →
    RunsWide (.recordWrite false) s (fun t => t.dev.dm.recs = rs ∧ t.dev.rd F.DM_SEQ_NEW_NEW = natLE ((r.drop 4).take 4) % 2 ^ 32 ∧
      Memory.read t.mem (s.dev.recAddr (natLE ((r.drop 4).take 4))) 512 = r ∧
      ∀ a, (a < s.dev.recAddr (natLE ((r.drop 4).take 4)) ∨ s.dev.recAddr (natLE ((r.drop 4).take 4)) + 512 ≤ a) →
        Memory.get t.mem a = Memory.get s.mem a)) ∧
  (∀ (q : BitVec 32) (seen : List EccSeen) (s : State), s.dev.domOn rowD = false →
    RunsOn (.dmSelWrite q seen) s [F.PW_STS_OFFACC.key 0] (fun e => e.on F.PW_STS_OFFACC = true)) ∧
  (∀ (q : BitVec 32) (seen : List EccSeen) (s : State), s.dev.domOn rowD = true →
    (s.dev.dm.shown = false ∨ q.toNat < s.dev.rd F.DM_SEQ_OLD_OLD ∨ s.dev.rd F.DM_SEQ_NEW_NEW < q.toNat ∨ s.dev.domOn rowM = false) →
    ∃ t, exec (.dmSelWrite q seen) s = .next t ∧ t.mem = s.mem ∧ t.pending = s.pending ∧
      Dev.SameFields [F.DM_SEL_SEQ.key 0, F.DM_RSTS_READY.key 0, F.DM_RSTS_GONE.key 0, F.DM_RSTS_BUSY.key 0] s.dev t.dev ∧
      t.dev.rd F.DM_SEL_SEQ = q.toNat ∧ t.dev.on F.DM_RSTS_BUSY = true ∧ t.dev.on F.DM_RSTS_READY = false ∧ t.dev.dm.copy = none) ∧
  (∀ (q : BitVec 32) (s : State), s.dev.domOn rowD = true → s.dev.domOn rowM = true → s.dev.dm.shown = true → s.dev.mt.bad = [] → s.dev.mt.ops = [] →
    s.dev.rd F.DM_SEQ_OLD_OLD ≤ q.toNat → q.toNat ≤ s.dev.rd F.DM_SEQ_NEW_NEW →
    RunsOn (.dmSelWrite q []) s [F.DM_SEL_SEQ.key 0, F.DM_RSTS_READY.key 0, F.DM_RSTS_GONE.key 0, F.DM_RSTS_BUSY.key 0, F.MT_INFLT_MAX_MAX.key 0] (fun e =>
      e.on F.DM_RSTS_BUSY = true ∧ e.dm.copy = some (Memory.read s.mem (s.dev.recAddr q.toNat) 512))) ∧
  (∀ s : State, s.dev.on F.DM_RSTS_BUSY = false → Nothing .recordCopyDone s) ∧
  (∀ (b : List Byte) (s : State), s.dev.on F.DM_RSTS_BUSY = true → s.dev.dm.copy = some b →
    Runs .recordCopyDone s [.DM] (fun e => e.on F.DM_RSTS_BUSY = false ∧ e.on F.DM_RSTS_READY = true ∧ e.on F.DM_RSTS_GONE = false ∧
      ∀ w, w < 128 → e.rd F.DM_REC_DATA w = natLE ((b.drop (4 * w)).take 4))) ∧
  (∀ s : State, s.dev.on F.DM_RSTS_BUSY = true → s.dev.dm.copy = none →
    Runs .recordCopyDone s [.DM] (fun e => e.on F.DM_RSTS_BUSY = false ∧ e.on F.DM_RSTS_READY = false ∧ e.on F.DM_RSTS_GONE = true ∧
      ∀ w, w < 128 → e.rd F.DM_REC_DATA w = 0))

/-- R276 to R284 of spec/11_dormer.md, R239 of spec/09_memory_tier.md. -/
def Obligations.TamperAndWipeCommands : Prop :=
  (∀ (c : Instr) (src : Nat) (s : State), ((c = .tamperNConfirm ∧ src = 0 ∧ s.dev.on F.DM_CFG_TMPEN = true) ∨ (c = .eavesSupplyGlitch ∧ src = 1)) →
    s.dev.pw.good = true → s.dev.fuse.life ≠ 0 → s.dev.fuse.life ≠ 4 → s.dev.on F.PW_STS_BUSY = false → s.dev.rd F.PW_STS_DEV = 1 →
    s.dev.fuse.tamper.at src 0 + s.dev.dm.latch.at src 0 < 255 →
    Runs c s [.CF, .DM, .MG, .MT, .PW, .PWV, .SN, .TG, .UD] (fun e => e.dm.latch.at src 0 = s.dev.dm.latch.at src 0 + 1 ∧ e.dm.ring = false ∧
      e.dm.tampered = true ∧ bit (e.rd F.MG_ALERT_ALERT) 1 = true ∧ (s.dev.domOn rowM = true → e.on F.MT_STS_WIPING = true) ∧
      (s.dev.domOn rowM = false → e.dm.wipeDue = true))) ∧
  (∀ (c : Instr) (src : Nat) (s : State), ((c = .tamperNConfirm ∧ src = 0 ∧ s.dev.on F.DM_CFG_TMPEN = true) ∨ (c = .eavesSupplyGlitch ∧ src = 1)) →
    s.dev.fuse.life ≠ 0 → s.dev.fuse.life ≠ 4 → s.dev.restful → 2 ≤ s.dev.rd F.PW_STS_DEV → s.dev.rd F.PW_STS_DEV ≤ 5 →
    Runs c s [.CF, .DM, .MG, .MT, .PW, .PWV, .SN, .TG, .UD] (fun e => e.rd F.PW_LASTWAKE_SRC = 6)) ∧
  (∀ (c : Instr) (s : State), c ∈ [Instr.tamperNConfirm, .eavesSupplyGlitch] →
    ((c = .tamperNConfirm ∧ s.dev.on F.DM_CFG_TMPEN = false) ∨ (c = .eavesSupplyGlitch ∧ s.dev.pw.good = false) ∨ s.dev.fuse.life = 0 ∨ s.dev.fuse.life = 4) → Nothing c s) ∧
  (∀ (t : Fin 4) (v : BitVec 12) (s : State), s.dev.pw.good = false → Nothing (.dieTemperatureSample t v) s) ∧
  (∀ (t : Fin 4) (v : BitVec 12) (s : State), s.dev.pw.good = true → ¬ (v.toInt < -400 ∨ 1000 < v.toInt) →
    RunsOn (.dieTemperatureSample t v) s [F.MG_TEMP_TEMP.key t, F.MG_TEMP_VALID.key t] (fun e => e.rd F.MG_TEMP_TEMP t = v.toNat ∧
      e.rd F.MG_TEMP_VALID t = 1 ∧ bit e.dm.hot t = false ∧ e.dm.latch = s.dev.dm.latch)) ∧
  (∀ (t : Fin 4) (v : BitVec 12) (s : State), s.dev.pw.good = true → (v.toInt < -400 ∨ 1000 < v.toInt) → bit s.dev.dm.hot t = false →
    RunsOn (.dieTemperatureSample t v) s [F.MG_TEMP_TEMP.key t, F.MG_TEMP_VALID.key t] (fun e => e.rd F.MG_TEMP_TEMP t = v.toNat ∧
      bit e.dm.hot t = true ∧ e.dm.latch = s.dev.dm.latch)) ∧
  (∀ (t : Fin 4) (v : BitVec 12) (s : State), s.dev.pw.good = true → (v.toInt < -400 ∨ 1000 < v.toInt) → bit s.dev.dm.hot t = true → bit s.dev.dm.hotDone t = false →
    s.dev.fuse.life ≠ 0 → s.dev.fuse.life ≠ 4 → s.dev.on F.PW_STS_BUSY = false → s.dev.rd F.PW_STS_DEV = 1 → s.dev.fuse.tamper.at 2 0 + s.dev.dm.latch.at 2 0 < 255 →
    Runs (.dieTemperatureSample t v) s [.CF, .DM, .MG, .MT, .PW, .PWV, .SN, .TG, .UD] (fun e =>
      e.dm.latch.at 2 0 = s.dev.dm.latch.at 2 0 + 1 ∧ e.rd F.MG_TEMP_TEMP t = v.toNat ∧ e.dm.ring = false)) ∧
  (∀ (t : Fin 4) (v : BitVec 12) (s : State), s.dev.pw.good = true → (v.toInt < -400 ∨ 1000 < v.toInt) → bit s.dev.dm.hot t = true → bit s.dev.dm.hotDone t = true →
    RunsOn (.dieTemperatureSample t v) s [F.MG_TEMP_TEMP.key t, F.MG_TEMP_VALID.key t] (fun e => e.rd F.MG_TEMP_TEMP t = v.toNat ∧
      bit e.dm.hot t = true ∧ e.dm.latch = s.dev.dm.latch)) ∧
  (∀ s : State, s.dev.domOn rowC = false → Nothing .tamperEfuseProgram s) ∧
  (∀ s : State, s.dev.domOn rowC = true →
    ∃ t, exec .tamperEfuseProgram s = .next t ∧ t.mem = s.mem ∧ t.pending = s.pending ∧ t.dev.regs = s.dev.regs ∧ t.dev.jtag = s.dev.jtag ∧
      t.dev.fuse = { s.dev.fuse with tamper := t.dev.fuse.tamper } ∧ t.dev.dm = { s.dev.dm with latch := [] } ∧
      ∀ k, k < 4 → t.dev.fuse.tamper.at k 0 = min 255 (s.dev.fuse.tamper.at k 0 + s.dev.dm.latch.at k 0)) ∧
  (∀ s : State, s.dev.on F.MT_STS_WIPING = false → Nothing .wipeComplete s) ∧
  (∀ s : State, s.dev.on F.MT_STS_WIPING = true → s.dev.pw.resetDue = false → State.wf s →
    RunsWide .wipeComplete s (fun t => t.dev.on F.MT_STS_WIPING = false ∧ t.dev.on F.MT_STS_WIPED = true ∧
      (∀ a, inSecure a = true → Memory.get t.mem a = Memory.blank) ∧
      (s.dev.mt.ops = [] → ∀ a, inSecure a = false → Memory.get t.mem a = Memory.get s.mem a))) ∧
  (∀ s : State, s.dev.on F.MT_STS_WIPING = true → s.dev.pw.resetDue = true →
    ∃ t, exec .wipeComplete s = .next t ∧ t.pending = s.pending ∧ t.mem = [] ∧ t.dev.regs = [] ∧ t.dev.pw.good = false ∧ t.dev.fuse = s.dev.fuse)

/-- R286 to R300 and Tables 12.1 to 12.5, 12.13 (kind 1, SLEW, where a clause names trims). -/
def Obligations.CalibrationCommands : Prop :=
  (∀ (c : Instr) (kind : Fin 8) (target : Fin 256) (nw ap : Bool) (rept : Fin 8) (param : Fin 32) (s : State),
    c ∈ [Instr.clMeasure kind target nw ap rept param, .clRead kind target param, .clWrite kind target param] →
    (s.dev.cal.phase ≠ .idle → RunsOn c s [F.CL_STS_WREJ.key 0] (fun e => e.on F.CL_STS_WREJ = true ∧ e.cal = s.dev.cal)) ∧
    (s.dev.cal.phase = .idle → calRangeOk kind target param = false →
      Runs c s [.CL, .MG] (fun e => e.rd F.CL_STS_CODE = 8 ∧ e.on F.CL_STS_DONE = true ∧ e.cal.phase = .idle ∧ e.cal.trims = s.dev.cal.trims ∧
        e.rd F.CL_STS_RUNS = 0 ∧ ∀ k, k < 4 → e.rd F.CL_RES_RES k = 0))) ∧
  (∀ (kind : Fin 8) (target : Fin 256) (param : Fin 32) (s : State), s.dev.cal.phase = .idle → calRangeOk kind target param = true →
    Runs (.clRead kind target param) s [.CL, .MG, .PWV] (fun e => e.rd F.CL_STS_CODE = 0 ∧ e.rd F.CL_STS_STATE = 0 ∧ e.on F.CL_STS_DONE = true ∧
      e.cal.phase = .idle ∧ e.cal.trims = s.dev.cal.trims ∧
      ∀ k, k < 4 → e.rd F.CL_RES_RES k = (s.dev.calValues kind target param).getD k 0 % 2 ^ 32)) ∧
  (∀ (t : Fin 8) (nw ap : Bool) (rept : Fin 8) (param : Fin 32) (s : State), s.dev.cal.phase = .idle → s.dev.calState 1 t param = true →
    Runs (.clMeasure 1 ⟨t.val, by omega⟩ nw ap rept param) s [.CL, .PWV] (fun e => e.rd F.CL_STS_STATE = 2 ∧ e.cal.phase = .measure ∧ e.cal.kind = 1 ∧
      e.cal.target = t.val ∧ e.cal.apply = ap ∧ e.cal.runsWanted = rept.val + 2 ∧ e.cal.runs = [] ∧ e.cal.trims = s.dev.cal.trims)) ∧
  (∀ (t : Fin 8) (nw ap : Bool) (rept : Fin 8) (param : Fin 32) (s : State), s.dev.cal.phase = .idle → s.dev.calState 1 t param = false →
    Runs (.clMeasure 1 ⟨t.val, by omega⟩ nw ap rept param) s [.CL, .MG, .PWV] (fun e => e.rd F.CL_STS_STATE = 0 ∧ e.rd F.CL_STS_CODE = 2 ∧
      e.rd F.CL_STS_PCOND = 1 ∧ e.on F.CL_STS_DONE = true ∧ e.cal.phase = .idle ∧ e.cal.trims = s.dev.cal.trims)) ∧
  (∀ (t : Fin 8) (param : Fin 32) (s : State), s.dev.cal.phase = .idle → s.dev.calState 1 t param = true →
    Runs (.clWrite 1 ⟨t.val, by omega⟩ param) s [.CL, .MG, .PWV] (fun e => e.rd F.CL_STS_CODE = 0 ∧ e.rd F.CL_STS_STATE = 0 ∧
      e.trimsOf 1 t 0 = s.dev.calWritten 1 ∧ ∀ k, k < 4 → e.rd F.CL_RES_RES k = s.dev.rd F.CL_RES_RES k)) ∧
  (∀ s : State, s.dev.cal.phase = .idle → Nothing .clCancel s) ∧
  (∀ s : State, s.dev.cal.phase = .measure → s.dev.cal.kind ≠ 2 →
    Runs .clCancel s [.CL, .MG, .PWV] (fun e => e.rd F.CL_STS_CODE = 5 ∧ e.rd F.CL_STS_STATE = 0 ∧ e.cal.phase = .idle ∧ e.cal.trims = s.dev.cal.trims ∧
      ∀ k, k < 4 → e.rd F.CL_RES_RES k = (s.dev.calValues s.dev.cal.kind s.dev.cal.target s.dev.cal.param).getD k 0 % 2 ^ 32)) ∧
  (∀ s : State, s.dev.cal.phase = .returning → RunsOn .clCancel s [] (fun e => e.cal = { s.dev.cal with code := 5 })) ∧
  (∀ s : State, s.dev.cal.phase ≠ .claim → Nothing .calSliceGrant s) ∧
  (∀ s : State, s.dev.cal.phase = .claim → s.dev.cal.kind = 2 → s.dev.cal.target < 128 → s.dev.cal.op = 1 → s.dev.ks s.dev.cal.target = 2 →
    s.dev.fsOwner (laneFs s.dev.cal.target) = 0 → s.dev.on F.LN_FS_STS_FAULT (laneFs s.dev.cal.target) = false →
    Runs .calSliceGrant s [.CL, .LNF] (fun e => e.fsOwner (laneFs s.dev.cal.target) = 2 ∧ e.on F.LN_FS_STS_SHADOW (laneFs s.dev.cal.target) = true ∧
      e.rd F.CL_STS_STATE = 2 ∧ e.cal.phase = .takeover ∧ (e.lane s.dev.cal.target).tShadow = true))

/-- R286 to R300 and Tables 12.1 to 12.5, 12.13 (kind 1, SLEW, where a clause names trims). -/
def Obligations.CalibrationRuns : Prop :=
  (∀ (r : CalRun) (s : State), s.dev.cal.phase ≠ .measure → Nothing (.calRunComplete r) s) ∧
  (∀ (r : CalRun) (s : State), s.dev.cal.phase = .measure → (s.dev.calMonitors r).calCond r = (0, 0) → r.before = true →
    Runs (.calRunComplete r) s [.CL] (fun e => e.cal = s.dev.cal ∧ e.rd F.CL_VCAL_VCAL = r.vcal.toNat ∧ e.rd F.CL_CALREF_PHASE = r.phase.toNat)) ∧
  (∀ (r : CalRun) (s : State), s.dev.cal.phase = .measure → (s.dev.calMonitors r).calCond r = (0, 0) → r.before = false →
    s.dev.cal.runs.length + 1 < s.dev.cal.runsWanted →
    Runs (.calRunComplete r) s [.CL] (fun e => e.cal = { s.dev.cal with runs := s.dev.cal.runs ++ [s.dev.runFields r] } ∧
      e.rd F.CL_STS_RUNS = (s.dev.cal.runs.length + 1) % 16)) ∧
  (∀ (r : CalRun) (s : State) (rs : List (List Int)) (vs : List Int), s.dev.cal.phase = .measure → (s.dev.calMonitors r).calCond r = (0, 0) →
    r.before = false → s.dev.cal.runsWanted ≤ s.dev.cal.runs.length + 1 → s.dev.cal.kind = 1 → rs = s.dev.cal.runs ++ [r.fields] → vs = calResult 1 rs →
    (widest 1 rs).1 ≤ 1 → (List.zipWith calInRange (calFields 1) vs).all id = true →
    Runs (.calRunComplete r) s [.CL, .MG, .PWV] (fun e => e.rd F.CL_STS_CODE = 0 ∧ e.on F.CL_STS_DONE = true ∧ e.cal.phase = .idle ∧
      (∀ k, k < 4 → e.rd F.CL_RES_RES k = (calPack 1 vs).getD k 0 % 2 ^ 32) ∧
      e.trimsOf 1 s.dev.cal.target 0 = (if s.dev.cal.apply = true then calPack 1 vs else s.dev.trimsOf 1 s.dev.cal.target 0))) ∧
  (∀ (r : CalRun) (s : State) (rs : List (List Int)), s.dev.cal.phase = .measure → (s.dev.calMonitors r).calCond r = (0, 0) →
    r.before = false → s.dev.cal.runsWanted ≤ s.dev.cal.runs.length + 1 → s.dev.cal.kind = 1 → rs = s.dev.cal.runs ++ [r.fields] → 1 < (widest 1 rs).1 →
    Runs (.calRunComplete r) s [.CL, .MG, .PWV] (fun e => e.rd F.CL_STS_CODE = 4 ∧ e.cal.phase = .idle ∧ e.cal.trims = s.dev.cal.trims ∧
      e.rd F.CL_SPREAD_SPREAD = (widest 1 rs).1 % 2 ^ 16 ∧ e.rd F.CL_SPREAD_FIELD = (widest 1 rs).2 % 2 ^ 5)) ∧
  (∀ (r : CalRun) (s : State) (o p : Nat), s.dev.cal.phase = .measure → (s.dev.calMonitors r).calCond r = (o, p) → o ≠ 0 → p ≠ 1 → s.dev.cal.kind ≠ 2 →
    Runs (.calRunComplete r) s [.CL, .MG, .PWV] (fun e => e.rd F.CL_STS_CODE = o % 16 ∧ e.rd F.CL_STS_PCOND = p % 16 ∧ e.cal.phase = .idle ∧
      e.cal.trims = s.dev.cal.trims)) ∧
  (∀ (r : CalRun) (s : State), s.dev.cal.phase = .measure → (s.dev.calMonitors r).calCond r = (2, 1) → s.dev.cal.kind ≠ 2 →
    Runs (.calRunComplete r) s [.CL, .MG, .PWV] (fun e => e.rd F.CL_STS_CODE = (if r.before = true ∧ s.dev.cal.runs = [] then 2 else 5) ∧ e.cal.phase = .idle ∧
      e.cal.trims = s.dev.cal.trims))

/-- R302 to R306 and Tables 13.1 to 13.11. -/
def Obligations.MemoryBistCommands : Prop :=
  (∀ (c : Instr) (b : Fin 512) (col : Bool) (ix : Fin 8192) (s : State), c ∈ [Instr.mbistStart, .mbistStop, .repairApply b col ix, .repairClear b] →
    s.dev.domOn rowM = false → RunsOn c s [F.PW_STS_OFFACC.key 0] (fun e => e.on F.PW_STS_OFFACC = true ∧ e.mb = s.dev.mb)) ∧
  (∀ s : State, s.dev.domOn rowM = true → s.dev.rd F.ST_MSTS_STATE ≠ 0 → Nothing .mbistStart s) ∧
  (∀ s : State, s.dev.domOn rowM = true → s.dev.rd F.ST_MSTS_STATE = 0 →
    Runs .mbistStart s [.PWV, .ST] (fun e => e.rd F.ST_MSTS_STATE = 1 ∧ e.rd F.ST_MSTS_RESULT = 0 ∧ e.rd F.ST_MSTS_PASSES = 0 ∧
      e.rd F.ST_MPROG_BLOCK = s.dev.rd F.ST_MSTART_FIRST ∧ e.mbNext = s.dev.mbFrom (s.dev.rd F.ST_MSTART_FIRST) ∧ e.mb.under = none ∧ e.mb.failed = false)) ∧
  (∀ s : State, s.dev.domOn rowM = true → s.dev.rd F.ST_MSTS_STATE = 0 → Nothing .mbistStop s) ∧
  (∀ (b : Nat) (s : State), s.dev.domOn rowM = true → s.dev.rd F.ST_MSTS_STATE ≠ 0 → s.dev.mb.under = some b →
    RunsOn .mbistStop s [] (fun e => e.mb = { s.dev.mb with stop := true })) ∧
  (∀ s : State, s.dev.domOn rowM = true → s.dev.rd F.ST_MSTS_STATE ≠ 0 → s.dev.mb.under = none →
    Runs .mbistStop s [.MG, .PWV, .ST] (fun e => e.rd F.ST_MSTS_STATE = 0 ∧ e.rd F.ST_MSTS_RESULT = 3 ∧ e.on F.ST_MSTS_DONE = true)) ∧
  (∀ s : State, (s.dev.rd F.ST_MSTS_STATE = 0 ∨ s.dev.mb.under.isSome = true ∨ s.dev.domOn rowM = false) → Nothing .mbistBlockStart s) ∧
  (∀ (b : Nat) (s : State), s.dev.rd F.ST_MSTS_STATE ≠ 0 → s.dev.mb.under = none → s.dev.domOn rowM = true → s.dev.mbNext = some b →
    RunsOn .mbistBlockStart s [F.ST_MSTS_STATE.key 0, F.ST_MPROG_BLOCK.key 0] (fun e => e.mb.under = some b ∧ e.rd F.ST_MSTS_STATE = 1 ∧
      e.rd F.ST_MPROG_BLOCK = b % 2 ^ 19)) ∧
  (∀ (s : State), s.dev.rd F.ST_MSTS_STATE ≠ 0 → s.dev.mb.under = none → s.dev.domOn rowM = true → s.dev.mbNext = none → s.dev.on F.ST_MCMD_LOOP = false →
    Runs .mbistBlockStart s [.MG, .PWV, .ST] (fun e => e.rd F.ST_MSTS_STATE = 0 ∧ e.rd F.ST_MSTS_RESULT = (if s.dev.mb.failed = true then 2 else 1) ∧
      e.on F.ST_MSTS_DONE = true ∧ e.rd F.ST_MSTS_PASSES = min (s.dev.rd F.ST_MSTS_PASSES + 1) 65535)) ∧
  (∀ (s : State), s.dev.rd F.ST_MSTS_STATE ≠ 0 → s.dev.mb.under = none → s.dev.domOn rowM = true → s.dev.mbNext = none → s.dev.on F.ST_MCMD_LOOP = true →
    Runs .mbistBlockStart s [.MG, .ST] (fun e => e.rd F.ST_MSTS_STATE = 1 ∧ e.rd F.ST_MSTS_RESULT = (if s.dev.mb.failed = true then 2 else 1) ∧
      e.rd F.ST_MSTS_PASSES = min (s.dev.rd F.ST_MSTS_PASSES + 1) 65535 ∧ e.mb.failed = false ∧
      e.mbNext = s.dev.mbFrom (s.dev.rd F.ST_MSTART_FIRST))) ∧
  (∀ (b c : Nat) (y : Bool) (s : State), s.dev.mb.under = some b → (y || s.dev.mb.touched) = true → s.dev.mb.stop = false → s.dev.mbNext = some c →
    s.dev.mb.yields.at b 0 = 7 →
    RunsOn (.mbistBlockDone y []) s [F.ST_MSKIP_COUNT.key 0, F.ST_MPROG_BLOCK.key 0] (fun e => e.mb.under = none ∧ e.mbNext = some c ∧
      e.rd F.ST_MSKIP_COUNT = min (s.dev.rd F.ST_MSKIP_COUNT + 1) (2 ^ 32 - 1) ∧ e.rd F.ST_MPROG_BLOCK = c % 2 ^ 19)) ∧
  (∀ (y : Bool) (fails : List BitFail) (s : State), s.dev.mb.under = none → Nothing (.mbistBlockDone y fails) s) ∧
  (∀ (b c : Nat) (s : State), s.dev.mb.under = some b → s.dev.mb.touched = false → s.dev.mb.stop = false → s.dev.mbNext = some c →
    RunsOn (.mbistBlockDone false []) s [F.ST_MPROG_BLOCK.key 0] (fun e => e.rd F.ST_MPROG_BLOCK = c % 2 ^ 19 ∧ e.mb = { s.dev.mb with under := none })) ∧
  (∀ (b c : Nat) (f : BitFail) (s : State), s.dev.mb.under = some b → s.dev.mb.touched = false → s.dev.mb.stop = false → s.dev.mbNext = some c → s.dev.on F.ST_MCMD_STOPFAIL = false →
    s.dev.on F.ST_MFAIL_ADDR_VALID = false →
    Runs (.mbistBlockDone false [f]) s [.MG, .SN, .ST, .UD] (fun e => e.rd F.ST_MFAIL_CNT_COUNT = min (s.dev.rd F.ST_MFAIL_CNT_COUNT + 1) (2 ^ 32 - 1) ∧
      e.on F.ST_MFAIL_ADDR_VALID = true ∧ e.rd F.ST_MFAIL_ADDR_ADDR = (256 * b + 32 * f.word.val) % 2 ^ 27 ∧ e.rd F.ST_MFAIL_BIT_BIT = f.bit.val ∧
      e.on F.ST_MFAIL_BIT_MULTI = false ∧ e.mb.failed = true ∧ e.mb.under = none)) ∧
  (∀ (b y : Nat) (s : State), s.dev.mb.under = some b → s.dev.mb.stop = false → s.dev.mb.todo = [] → s.dev.mb.ptr = some y → s.dev.mb.yields.at b 0 = 0 →
    RunsOn (.mbistBlockDone true []) s [F.ST_MSTS_STATE.key 0, F.ST_MPROG_BLOCK.key 0] (fun e => e.rd F.ST_MSTS_STATE = 2 ∧ e.mb.todo = [y, b] ∧
      e.mb.yields.at b 0 = 1 ∧ e.rd F.ST_MPROG_BLOCK = y % 2 ^ 19)) ∧
  (∀ (b y : Nat) (fails : List BitFail) (s : State), s.dev.mb.under = some b → s.dev.mb.touched = true → s.dev.mb.stop = false →
    s.dev.mb.todo = [] → s.dev.mb.ptr = some y → s.dev.mb.yields.at b 0 = 0 →
    RunsOn (.mbistBlockDone false fails) s [F.ST_MSTS_STATE.key 0, F.ST_MPROG_BLOCK.key 0] (fun e => e.rd F.ST_MSTS_STATE = 2 ∧ e.mb.todo = [y, b] ∧
      e.mb.yields.at b 0 = 1 ∧ e.rd F.ST_MPROG_BLOCK = y % 2 ^ 19))

/-- R302 to R306 and Tables 13.1 to 13.11. -/
def Obligations.SoftRepairCommands : Prop :=
  (∀ (b : Fin 512) (col : Bool) (ix : Fin 8192) (s : State), s.dev.domOn rowM = true → s.dev.on F.ST_MREP_STS_BUSY = true →
    RunsOn (.repairApply b col ix) s [F.ST_MREP_STS_RESULT.key 0] (fun e => e.rd F.ST_MREP_STS_RESULT = 4 ∧ e.mb = s.dev.mb)) ∧
  (∀ (b : Fin 512) (col : Bool) (ix : Fin 8192) (s : State), s.dev.domOn rowM = true → s.dev.on F.ST_MREP_STS_BUSY = false →
    RunsOn (.repairApply b col ix) s [F.ST_MREP_STS_RESULT.key 0, F.ST_MREP_STS_ROWS_LEFT.key 0, F.ST_MREP_STS_COLS_LEFT.key 0, F.ST_MREP_STS_BUSY.key 0]
      (fun e => if col = true ∧ 272 ≤ ix.val then e.rd F.ST_MREP_STS_RESULT = 3 ∧ e.mb = s.dev.mb
        else if (s.dev.repairsOf b).contains (col, ix.val) = true then e.rd F.ST_MREP_STS_RESULT = 2 ∧ e.mb = s.dev.mb
        else if s.dev.sparesLeft b col = 0 then e.rd F.ST_MREP_STS_RESULT = 1 ∧ e.mb = s.dev.mb
        else e.rd F.ST_MREP_STS_RESULT = 0 ∧ e.on F.ST_MREP_STS_BUSY = true ∧ e.mb = { s.dev.mb with copy := some (b.val, col, ix.val) })) ∧
  (∀ s : State, s.dev.mb.copy = none → Nothing .repairComplete s) ∧
  (∀ (b : Nat) (col : Bool) (ix : Nat) (s : State), s.dev.mb.copy = some (b, col, ix) →
    RunsOn .repairComplete s [F.ST_MREP_STS_ROWS_LEFT.key 0, F.ST_MREP_STS_COLS_LEFT.key 0, F.ST_MREP_STS_BUSY.key 0] (fun e => e.mb.copy = none ∧
      e.on F.ST_MREP_STS_BUSY = false ∧ e.mb.soft.at b [] = s.dev.mb.soft.at b [] ++ [(col, ix)] ∧ e.rd F.ST_MREP_STS_ROWS_LEFT = e.sparesLeft b false ∧
      e.rd F.ST_MREP_STS_COLS_LEFT = e.sparesLeft b true)) ∧
  (∀ (b : Fin 512) (s : State), s.dev.domOn rowM = true → s.dev.on F.ST_MREP_STS_BUSY = true →
    RunsOn (.repairClear b) s [F.ST_MREP_STS_RESULT.key 0] (fun e => e.rd F.ST_MREP_STS_RESULT = 4 ∧ e.mb = s.dev.mb)) ∧
  (∀ (b : Fin 512) (s : State), s.dev.domOn rowM = true → s.dev.on F.ST_MREP_STS_BUSY = false → s.dev.mb.soft.at b [] = [] →
    RunsOn (.repairClear b) s [F.ST_MREP_STS_RESULT.key 0, F.ST_MREP_STS_ROWS_LEFT.key 0, F.ST_MREP_STS_COLS_LEFT.key 0] (fun e =>
      e.rd F.ST_MREP_STS_RESULT = 0)) ∧
  (∀ (b : Fin 512) (row : Fin 8192) (s : State), s.dev.domOn rowM = true → s.dev.on F.ST_MREP_STS_BUSY = false → State.wf s →
    s.dev.mb.soft.at b [] = [(false, row.val)] →
    RunsWide (.repairClear b) s (fun t => t.dev.rd F.ST_MREP_STS_RESULT = 0 ∧ t.dev.mb.soft.at b [] = [] ∧
      ∀ a, (a < bankRow b row ∨ bankRow b row + 32 ≤ a) → Memory.get t.mem a = Memory.get s.mem a))

/-- R307 to R311 and Tables 13.12, 13.13. -/
def Obligations.LogicBistCommands : Prop :=
  (∀ (r : Fin 64) (n : Fin 32) (c : Instr) (s : State), c ∈ [Instr.lbistStart r n, .lbistStop] → s.dev.domOn rowM = false →
    RunsOn c s [F.PW_STS_OFFACC.key 0] (fun e => e.on F.PW_STS_OFFACC = true)) ∧
  (∀ (r : Fin 64) (n : Fin 32) (s : State), s.dev.domOn rowM = true →
    (s.dev.on F.ST_LSTS_BUSY = true ∨ s.dev.domOn (rowL r) = false ∨ n.val < 10 ∨ 20 < n.val ∨
      (s.dev.rd F.UD_STATE_KSTATE (0x080 + r) ≠ 1 ∧ s.dev.rd F.UD_STATE_KSTATE (0x080 + r) ≠ 2)) →
    RunsOn (.lbistStart r n) s [F.ST_LSTS_RESULT.key 0] (fun e => e.rd F.ST_LSTS_RESULT = 5 ∧ e.fb = s.dev.fb)) ∧
  (∀ (r : Fin 64) (n : Fin 32) (s : State), s.dev.domOn rowM = true → s.dev.on F.ST_LSTS_BUSY = false → s.dev.domOn (rowL r) = true →
    (s.dev.rd F.UD_STATE_KSTATE (0x080 + r) = 1 ∨ s.dev.rd F.UD_STATE_KSTATE (0x080 + r) = 2) → 10 ≤ n.val → n.val ≤ 20 →
    Runs (.lbistStart r n) s [.PWV, .ST, .UD] (fun e => e.on F.ST_LSTS_BUSY = true ∧ e.rd F.ST_LSTS_RESULT = 0 ∧ e.rd F.ST_LSTS_REGION = r.val ∧
      e.rd F.ST_LCNT_COUNT = 0 ∧ (e.fbx r).bist = true ∧ e.rd F.UD_STATE_KSTATE (0x080 + r) = 3)) ∧
  (∀ s : State, s.dev.domOn rowM = true → s.dev.lbRegion = none → Nothing .lbistStop s) ∧
  (∀ (r : Nat) (s : State), s.dev.domOn rowM = true → s.dev.lbRegion = some r → (s.dev.fbx r).bist = true →
    Runs .lbistStop s [.MG, .PWV, .SN, .ST, .UD] (fun e => e.on F.ST_LSTS_BUSY = false ∧ e.rd F.ST_LSTS_RESULT = 4 ∧ e.on F.ST_LSTS_DONE = true ∧
      (e.fbx r).bist = false)) ∧
  (∀ (c : Instr) (sig : BitVec 32) (n : BitVec 21) (s : State), c ∈ [Instr.lbistEnd sig n, .lbistWatchdog sig n] →
    (s.dev.lbRegion = none → Nothing c s) ∧
    (∀ r, s.dev.lbRegion = some r →
      Runs c s [.MG, .PWV, .SN, .ST, .UD] (fun e => e.on F.ST_LSTS_BUSY = false ∧ e.on F.ST_LSTS_DONE = true ∧ e.rd F.ST_LSIG_SIG = sig.toNat ∧
        e.rd F.ST_LCNT_COUNT = n.toNat ∧ (e.fbx r).bist = false ∧
        e.rd F.ST_LSTS_RESULT = (if sig.toNat ≠ s.dev.rd F.ST_LEXP_EXP then 2 else if n.toNat = 2 ^ s.dev.rd F.ST_LCMD_NPAT then 1 else 3))))

/-- R307 to R311 and Tables 13.12, 13.13. -/
def Obligations.LaneTestCommands : Prop :=
  (∀ (tp : Fin 64) (side : Side) (w : BitVec 32) (c : Instr) (s : State), c ∈ [Instr.laneTestStart tp side w, .laneTestStop tp side] →
    s.dev.domOn (rowA (tp / 8)) = false → RunsOn c s [F.PW_STS_OFFACC.key 0] (fun e => e.on F.PW_STS_OFFACC = true)) ∧
  (∀ (tp : Fin 64) (side : Side) (w : BitVec 32) (s : State), s.dev.domOn (rowA (tp / 8)) = true → (s.dev.lane (laneIx tp side)).testing = false →
    s.dev.ks (laneIx tp side) ≠ 0 → (s.dev.ks (laneIx tp side) = 7 → bits w.toNat F.LN_PT_CTL_LOOP.lo F.LN_PT_CTL_LOOP.w ≠ 2) →
    Runs (.laneTestStart tp side w) s [.CS, .LN, .LNT, .MG, .PWV, .UD] (fun e => e.rd F.LN_PT_STS_STATE (laneIx tp side) = 0 ∧
      e.rd F.LN_PT_STS_RESULT (laneIx tp side) = 3 ∧ e.on F.LN_PT_STS_DONE (laneIx tp side) = true ∧ (e.lane (laneIx tp side)).testing = false)) ∧
  (∀ (tp : Fin 64) (side : Side) (w : BitVec 32) (rate l : Nat) (s : State), l = laneIx tp side → s.dev.domOn (rowA (tp / 8)) = true →
    (s.dev.lane l).testing = false → s.dev.ks l = 0 →
    rate = (match s.dev.laneCourse tp with
      | some n => s.dev.rd F.CS_RATE_RATE n
      | none => bits w.toNat F.LN_PT_CTL_RATE.lo F.LN_PT_CTL_RATE.w) →
    Runs (.laneTestStart tp side w) s [.CS, .LN, .LNT, .MG, .PWV, .UD] (fun e => e.rd F.LN_PT_CTL_PAT l = bits w.toNat 1 3 ∧
      if (s.dev.pllHolding (tp / 8) (rateFamily rate)).isNone = true then e.rd F.LN_PT_STS_RESULT l = 4 ∧ (e.lane l).testing = false
      else if patternSuits (bits w.toNat 1 3) (ratePam4 rate) = false then e.rd F.LN_PT_STS_RESULT l = 5 ∧ (e.lane l).testing = false
      else e.rd F.LN_PT_STS_STATE l = 1 ∧ e.rd F.LN_PT_STS_RESULT l = 0 ∧ e.rd F.LN_PT_ERR_ERR l = 0 ∧ e.ks l = 8 ∧ (e.lane l).testing = true)) ∧
  (∀ (tp : Fin 64) (side : Side) (s : State), s.dev.domOn (rowA (tp / 8)) = true → (s.dev.lane (laneIx tp side)).testing = true →
    Runs (.laneTestStop tp side) s [.CS, .LN, .LNT, .MG, .PWV, .UD] (fun e => e.rd F.LN_PT_STS_STATE (laneIx tp side) = 0 ∧
      e.rd F.LN_PT_STS_RESULT (laneIx tp side) = 1 ∧ e.on F.LN_PT_CTL_EN (laneIx tp side) = false ∧ (e.lane (laneIx tp side)).testing = false)) ∧
  (∀ (tp : Fin 64) (side : Side) (ev : CheckEvent) (s : State), (s.dev.lane (laneIx tp side)).testing = false → Nothing (.patternCheckerLock tp side ev) s) ∧
  (∀ (tp : Fin 64) (side : Side) (s : State), (s.dev.lane (laneIx tp side)).testing = true →
    (s.dev.on F.LN_PT_CTL_CHK (laneIx tp side) = true →
      RunsOn (.patternCheckerLock tp side .lock) s [F.LN_PT_STS_STATE.key (laneIx tp side)] (fun e => e.rd F.LN_PT_STS_STATE (laneIx tp side) = 2)) ∧
    (s.dev.rd F.LN_PT_STS_STATE (laneIx tp side) = 2 →
      RunsOn (.patternCheckerLock tp side .lost) s [F.LN_PT_STS_STATE.key (laneIx tp side), F.LN_PT_STS_RESYNC.key (laneIx tp side)] (fun e =>
        e.rd F.LN_PT_STS_STATE (laneIx tp side) = 1 ∧
        e.rd F.LN_PT_STS_RESYNC (laneIx tp side) = min (s.dev.rd F.LN_PT_STS_RESYNC (laneIx tp side) + 1) 255)) ∧
    (∀ n, s.dev.rd F.LN_PT_STS_STATE (laneIx tp side) = 2 →
      RunsOn (.patternCheckerLock tp side (.bits n 0)) s [F.LN_PT_BITS_LO_V.key (laneIx tp side), F.LN_PT_BITS_HI_V.key (laneIx tp side)] (fun e =>
        e.rd F.LN_PT_BITS_LO_V (laneIx tp side) + e.rd F.LN_PT_BITS_HI_V (laneIx tp side) * 2 ^ 32 =
          (s.dev.rd F.LN_PT_BITS_LO_V (laneIx tp side) + s.dev.rd F.LN_PT_BITS_HI_V (laneIx tp side) * 2 ^ 32 + n) % 2 ^ 64)) ∧
    (∀ n errors, s.dev.rd F.LN_PT_STS_STATE (laneIx tp side) = 2 →
      Runs (.patternCheckerLock tp side (.bits n errors)) s [.LNT, .MG, .SN, .UD] (fun e =>
        e.rd F.LN_PT_ERR_ERR (laneIx tp side) = min (s.dev.rd F.LN_PT_ERR_ERR (laneIx tp side) + errors) (2 ^ 32 - 1))) ∧
    (s.dev.rd F.LN_PT_CTL_LOOP (laneIx tp side) = 3 →
      RunsOn (.patternCheckerLock tp side .slip) s [F.LN_PT_STS_SLIP.key (laneIx tp side)] (fun e => e.on F.LN_PT_STS_SLIP (laneIx tp side) = true)))

/-- R312 to R318 and R366. -/
def Obligations.TriggerAndSnapshotCommands : Prop :=
  (∀ (c : Instr) (src : Nat) (s : State),
    (c = .snapInEdge true ∧ src = 1 ∧ s.dev.on F.SN_CTL_INPOL = false ∨ c = .snapInEdge false ∧ src = 1 ∧ s.dev.on F.SN_CTL_INPOL = true ∨
      c = .snFire ∧ src = 2) →
    (bit (s.dev.rd F.SN_SRCEN_EN) (src - 1) = false ∨ s.dev.pw.good = false → Nothing c s) ∧
    (s.dev.pw.good = true → bit (s.dev.rd F.SN_SRCEN_EN) (src - 1) = true → (∀ t, s.dev.trig.last = some t → t + 16 ≤ s.dev.now) →
      Runs c s [.MG, .SN, .UD] (fun e => e.rd F.SN_CNT_EVT_COUNT = min (s.dev.rd F.SN_CNT_EVT_COUNT + 1) (2 ^ 32 - 1) ∧
        e.rd F.SN_LAST_SEQ = (s.dev.rd F.SN_LAST_SEQ + 1) % 2 ^ 15 ∧ e.rd F.SN_LAST_MASK = 2 ^ (src - 1) ∧ e.rd F.SN_LAST_LATE = 0 ∧
        e.trig.last = some s.dev.now ∧
        (∀ r, r < 64 → e.trig.trigIn.find? r = if s.dev.domOn (rowL r) then
            some (if s.dev.domOn rowAT then some (s.dev.time, s.dev.free) else none)
          else s.dev.trig.trigIn.find? r) ∧
        (s.dev.domOn rowAT = true → e.on F.SN_TAG_S_HI_NOTB = false ∧ e.rd F.SN_TAG_S_LO_V = timeSec s.dev.time % 2 ^ 32 ∧
          e.rd F.SN_TAG_NS_V = timeNs s.dev.time % 2 ^ 30) ∧
        (s.dev.domOn rowAT = false → e.on F.SN_TAG_S_HI_NOTB = true) ∧
        (∀ id, id < 4096 → s.dev.on F.UD_SNAP_ARMED id = true →
          e.on F.UD_SNAP_ARMED id = false ∧ e.on F.UD_SNAP_VALID id = true ∧ e.rd F.UD_SNAP_SRC id = src) ∧
        (∀ b, b < 7 → s.dev.on F.SN_BSLOT_ARMED b = true →
          e.on F.SN_BSLOT_ARMED b = false ∧ e.on F.SN_BSLOT_VALID b = true ∧ e.rd F.SN_BSLOT_SRC b = src))) ∧
    (∀ t, s.dev.pw.good = true → bit (s.dev.rd F.SN_SRCEN_EN) (src - 1) = true → s.dev.trig.last = some t → t < s.dev.now → s.dev.now < t + 16 →
      RunsOn c s [F.SN_CNT_MERGED_COUNT.key 0, F.SN_LAST_LATE.key 0] (fun e =>
        e.rd F.SN_CNT_MERGED_COUNT = min (s.dev.rd F.SN_CNT_MERGED_COUNT + 1) (2 ^ 32 - 1) ∧ bit (e.rd F.SN_LAST_LATE) (src - 1) = true)) ∧
    (s.dev.pw.good = true → bit (s.dev.rd F.SN_SRCEN_EN) (src - 1) = true → s.dev.trig.last = some s.dev.now →
      Runs c s [.SN, .UD] (fun e => bit (e.rd F.SN_LAST_MASK) (src - 1) = true ∧ e.rd F.SN_CNT_EVT_COUNT = s.dev.rd F.SN_CNT_EVT_COUNT))) ∧
  (∀ (b : Bool) (s : State), s.dev.on F.SN_CTL_INPOL = b → Nothing (.snapInEdge b) s) ∧
  (∀ s : State, (s.dev.on F.SN_CTL_MATCH_EN = false ∨ s.dev.domOn rowAT = false ∨ s.dev.time < s.dev.matchTime) → Nothing .timeMatch s) ∧
  (∀ s : State, s.dev.on F.SN_CTL_MATCH_EN = true → s.dev.domOn rowAT = true → s.dev.matchTime ≤ s.dev.time →
    s.dev.pw.good = true → bit (s.dev.rd F.SN_SRCEN_EN) 2 = true → (∀ t, s.dev.trig.last = some t → t + 16 ≤ s.dev.now) →
    Runs .timeMatch s [.MG, .SN, .UD] (fun e => e.on F.SN_CTL_MATCH_EN = false ∧ e.rd F.SN_LAST_MASK = 4 ∧ e.trig.last = some s.dev.now)) ∧
  (∀ (id : Fin 4096) (s : State), (s.dev.rd F.UD_IDENT_KIND id = 0 ∨ s.dev.pw.good = false → Nothing (.udSnapArm id) s) ∧
    (s.dev.pw.good = false → Nothing .snArmall s)) ∧
  (∀ (id : Fin 4096) (s : State), s.dev.pw.good = true → s.dev.rd F.UD_IDENT_KIND id ≠ 0 →
    (s.dev.trig.last ≠ some s.dev.now →
      RunsOn (.udSnapArm id) s [F.UD_SNAP_ARMED.key id, F.UD_SNAP_VALID.key id] (fun e => e.on F.UD_SNAP_ARMED id = true ∧ e.on F.UD_SNAP_VALID id = false)) ∧
    (s.dev.trig.last = some s.dev.now →
      RunsOn (.udSnapArm id) s [F.UD_SNAP_ARMED.key id, F.UD_SNAP_VALID.key id, F.UD_SNAP_SRC.key id] (fun e => e.on F.UD_SNAP_ARMED id = false ∧
        e.on F.UD_SNAP_VALID id = true))) ∧
  (∀ s : State, s.dev.pw.good = true → s.dev.trig.last = some s.dev.now →
    Runs .snArmall s [.SN, .UD] (fun e => (∀ id, id < 4096 → s.dev.rd F.UD_IDENT_KIND id ≠ 0 → e.on F.UD_SNAP_ARMED id = false ∧ e.on F.UD_SNAP_VALID id = true) ∧
      ∀ b, b < 7 → e.on F.SN_BSLOT_ARMED b = false ∧ e.on F.SN_BSLOT_VALID b = true)) ∧
  (∀ s : State, s.dev.pw.good = true → s.dev.trig.last ≠ some s.dev.now →
    Runs .snArmall s [.SN, .UD] (fun e => (∀ id, id < 4096 → s.dev.rd F.UD_IDENT_KIND id ≠ 0 → e.on F.UD_SNAP_ARMED id = true ∧ e.on F.UD_SNAP_VALID id = false) ∧
      ∀ b, b < 7 → e.on F.SN_BSLOT_ARMED b = true ∧ e.on F.SN_BSLOT_VALID b = false)) ∧
  (∀ s : State, RunsOn .snapOutPulseEnd s [] (fun e => e.trig.snapOut = false))

/-- R378 to R381 and Table 17.2. -/
def Obligations.UnlockCommands : Prop :=
  (∀ (c : Instr) (s : State), c ∈ [Instr.challenge, .verify, .gkeyprog] → s.dev.on F.TG_UL_STS_BUSY = true → Nothing c s) ∧
  (∀ (c : Instr) (s : State), c ∈ [Instr.challenge, .verify] → s.dev.on F.TG_UL_STS_BUSY = false → s.dev.gateKeyBlank = true →
    RunsOn c s [F.TG_UL_STS_RESULT.key 0] (fun e => e.rd F.TG_UL_STS_RESULT = 4)) ∧
  (∀ s : State, s.dev.on F.TG_UL_STS_BUSY = false → s.dev.gateKeyBlank = false → s.dev.mg.ulWait ≠ 0 →
    RunsOn .challenge s [F.TG_UL_STS_RESULT.key 0] (fun e => e.rd F.TG_UL_STS_RESULT = 3)) ∧
  (∀ s : State, s.dev.on F.TG_UL_STS_BUSY = false → s.dev.gateKeyBlank = false → s.dev.mg.ulWait = 0 →
    Runs .challenge s [.TG] (fun e => e.rd F.TG_UL_STS_RESULT = 0 ∧ e.rd F.TG_UL_STS_STATE = 1 ∧ e.mg.ulExpired = false ∧
      ∀ j, j < 8 → e.rd F.TG_UL_CHAL_NONCE j = (Config.random s.dev.draws j).toNat)) ∧
  (∀ s : State, s.dev.on F.TG_UL_STS_BUSY = false → s.dev.gateKeyBlank = false → s.dev.rd F.TG_UL_STS_STATE ≠ 1 →
    RunsOn .verify s [F.TG_UL_STS_RESULT.key 0] (fun e => e.rd F.TG_UL_STS_RESULT = (if s.dev.mg.ulExpired = true then 5 else 1))) ∧
  (∀ s : State, s.dev.on F.TG_UL_STS_BUSY = false → s.dev.gateKeyBlank = false → s.dev.rd F.TG_UL_STS_STATE = 1 → s.dev.ulAnswer = s.dev.ulTag →
    Runs .verify s [.TG] (fun e => e.rd F.TG_UL_STS_STATE = 2 ∧ e.rd F.TG_UL_STS_RESULT = 0 ∧ e.rd F.TG_UL_STS_FAILS = 0 ∧
      e.rd F.TG_UL_LEFT_LEFT = s.dev.rd F.TG_UL_REQ_DUR ∧ e.mg.ulTimed = decide (s.dev.rd F.TG_UL_REQ_DUR ≠ 0) ∧
      ∀ j, j < 8 → e.rd F.TG_UL_CHAL_NONCE j = 0)) ∧
  (∀ s : State, s.dev.on F.TG_UL_STS_BUSY = false → s.dev.gateKeyBlank = false → s.dev.rd F.TG_UL_STS_STATE = 1 → s.dev.ulAnswer ≠ s.dev.ulTag →
    Runs .verify s [.TG] (fun e => e.rd F.TG_UL_STS_STATE = 0 ∧ e.rd F.TG_UL_STS_RESULT = 2 ∧
      e.rd F.TG_UL_STS_FAILS = min (s.dev.rd F.TG_UL_STS_FAILS + 1) 255 ∧
      e.mg.ulWait = 2 ^ (min (min (s.dev.rd F.TG_UL_STS_FAILS + 1) 255) 10 - 1) * 1000000000 ∧ ∀ j, j < 8 → e.rd F.TG_UL_CHAL_NONCE j = 0)) ∧
  (∀ (c : Instr) (s : State), (c = .relock ∨ c = .unlockExpiry) → s.dev.ulState ≠ 2 → Nothing c s) ∧
  (∀ s : State, s.dev.mg.ulTimed = false → Nothing .unlockExpiry s) ∧
  (∀ (c : Instr) (s : State), (c = .relock ∨ c = .unlockExpiry ∧ s.dev.mg.ulTimed = true) → s.dev.ulState = 2 →
    Runs c s [.MG, .SN, .TG, .UD] (fun e => e.rd F.TG_UL_STS_STATE = 0 ∧ e.rd F.TG_UL_LEFT_LEFT = 0 ∧ bit (e.rd F.MG_ALERT_ALERT) 11 = true ∧
      (∀ k, 9 ≤ k → k < 16 → s.dev.rd F.TG_SLOT_STS_STATE k = 1 → e.rd F.TG_SLOT_STS_STATE k = 3 ∧ e.rd F.TG_SLOT_STS_OUTCOME k = 5) ∧
      (∀ k, k < 9 → e.rd F.TG_SLOT_STS_STATE k = s.dev.rd F.TG_SLOT_STS_STATE k))) ∧
  (∀ s : State, s.dev.ulState ≠ 1 → Nothing .challengeExpiry s) ∧
  (∀ s : State, s.dev.ulState = 1 →
    Runs .challengeExpiry s [.TG] (fun e => e.rd F.TG_UL_STS_STATE = 0 ∧ e.mg.ulExpired = true ∧ ∀ j, j < 8 → e.rd F.TG_UL_CHAL_NONCE j = 0)) ∧
  (∀ s : State, s.dev.on F.TG_UL_STS_BUSY = false → s.dev.gateKeyBlank = true →
    RunsOn .gkeyprog s [F.TG_UL_STS_BUSY.key 0] (fun e => e.on F.TG_UL_STS_BUSY = true ∧ e.mg.gkey = true ∧ e.fuse = s.dev.fuse)) ∧
  (∀ s : State, s.dev.on F.TG_UL_STS_BUSY = false → s.dev.gateKeyBlank = false →
    RunsOn .gkeyprog s [F.TG_UL_STS_RESULT.key 0] (fun e => e.rd F.TG_UL_STS_RESULT = 6))

/-- R382, R383 and Table 17.5. -/
def Obligations.TestPortInstructions : Prop :=
  (∀ s : State, exec .idcode s = .next { s with dev := { s.dev with jtag :=
    { s.dev.jtag with ir := 1, bypassed := false, idcode := s.dev.rd F.MG_ID_REV * 2 ^ 28 + 0x6408 * 2 ^ 12 + s.dev.rd F.MG_MFR_JEP106 * 2 + 1 } } }) ∧
  (∀ (a b : List Bool) (s : State), exec (.samplePreload a b) s =
    .next { s with dev := { s.dev with jtag := { s.dev.jtag with ir := 2, bypassed := false, captured := a, boundary := b } } }) ∧
  (∀ (k : BitVec 8) (s : State),
    (k.toNat ∈ [0, 1, 2, 8, 9, 14, 15] → Nothing (.bypass k) s) ∧
    (k.toNat ∉ [0, 1, 2, 8, 9, 14, 15] →
      exec (.bypass k) s = .next { s with dev := { s.dev with jtag := { s.dev.jtag with ir := k.toNat, bypassed := true } } })) ∧
  (∀ (c : Instr) (ir : Nat) (by_ : Bool) (s : State),
    (c = .extest ∧ ir = 0 ∧ by_ = false) ∨ (c = .extestPulse ∧ ir = 8 ∧ by_ = false) ∨ (c = .extestTrain ∧ ir = 9 ∧ by_ = false) ∨
      (c = .clamp ∧ ir = 14 ∧ by_ = true) ∨ (c = .highz ∧ ir = 15 ∧ by_ = true) →
    ∃ t, exec c s = .next t ∧ t.mem = s.mem ∧ t.pending = s.pending ∧ t.dev.fuse = s.dev.fuse ∧
      t.dev.jtag = { s.dev.jtag with ir := ir, bypassed := by_, out := true } ∧
      (s.dev.jtag.out = false → ∀ l, l < 128 → t.dev.on F.LN_STS_SIGDET l = false) ∧
      (s.dev.jtag.out = true → t.dev.regs = s.dev.regs) ∧
      ∀ (f : Fld) (i : Nat), blk f.reg f.lo = .HOST → t.dev.rd f i = s.dev.rd f i)

/-- R343 to R358 and Tables 15.1, 15.2, 15.8, 15.10. -/
def Obligations.ImageReadingCommands : Prop :=
  (∀ (b : BitVec 32) (s : State), (s.dev.on F.CF_STS_LOADING = false ∨ s.dev.boot.applying = true ∨ (s.dev.boot.image ≠ 1 ∧ s.dev.boot.image ≠ 2)) →
    Nothing (.flashIoTimeout b) s) ∧
  (∀ (b : BitVec 32) (n : Nat) (rest : List Nat) (s : State), s.dev.on F.CF_STS_LOADING = true → s.dev.boot.applying = false →
    (s.dev.boot.image = 1 ∨ s.dev.boot.image = 2) → s.dev.boot.next = n :: rest →
    RunsOn (.flashIoTimeout b) s [F.CF_RES_CODE.key (s.dev.boot.image - 1), F.CF_RES_YEALM.key (s.dev.boot.image - 1)] (fun e =>
      e.rd F.CF_RES_CODE (s.dev.boot.image - 1) = 0x0B ∧
      e.boot = { s.dev.boot with image := n, next := rest, header := none, yealms := [], offset := 512 })) ∧
  (∀ (b : BitVec 32) (s : State), s.dev.on F.CF_STS_LOADING = true → s.dev.boot.applying = false → (s.dev.boot.image = 1 ∨ s.dev.boot.image = 2) →
    s.dev.boot.next = [] → s.dev.on F.PW_STS_BUSY = false → s.dev.rd F.PW_STS_PEND = 0 →
    Runs (.flashIoTimeout b) s [.CF, .MG, .PW, .PWV] (fun e => e.rd F.CF_STATUS_CODE = 0x0B ∧ e.rd F.CF_STATUS_IMAGE = 0 ∧
      e.rd F.CF_ITEM_ITEM = b.toNat ∧ e.on F.CF_STS_LOADING = false ∧ e.rd F.CF_RES_CODE (s.dev.boot.image - 1) = 0x0B ∧ e.boot.image = 0 ∧
      bit (e.rd F.MG_ALERT_ALERT) 5 = true)) ∧
  (∀ (hb : List (BitVec 8)) (yb : YealmBytes) (s : State), (s.dev.on F.CF_STS_LOADING = false ∨ s.dev.boot.applying = true ∨ s.dev.boot.image = 0) →
    Nothing (.yealmRead hb yb) s) ∧
  (∀ (hb : List (BitVec 8)) (yb : YealmBytes) (h : ImageHeader) (y : Yealm) (s : State), h = s.dev.boot.header.getD (readHeader (s.dev.boot.headerBytes hb)) →
    y = readYealm (s.dev.boot.yealmBytes yb) → s.dev.on F.CF_STS_LOADING = true → s.dev.boot.applying = false → s.dev.boot.image ≠ 0 →
    (s.dev.boot.short s.dev.boot.lead = true → Nothing (.yealmRead hb yb) s) ∧
    (s.dev.boot.short s.dev.boot.lead = false → (s.dev.boot.header = none → (headerCode h s.dev.imageRoom).1 = 0) →
      s.dev.boot.short (s.dev.boot.lead + yealmSize y) = true → Nothing (.yealmRead hb yb) s) ∧
    (s.dev.boot.short s.dev.boot.lead = false → s.dev.boot.short (s.dev.boot.lead + yealmSize y) = false →
      (s.dev.boot.header = none → (headerCode h s.dev.imageRoom).1 = 0) → (yealmCode s.dev.boot.yealms y).1 = 0 →
      RunsOn (.yealmRead hb yb) s [] (fun e => e.boot = { s.dev.boot.consume (s.dev.boot.lead + yealmSize y) with
        header := some h, yealms := s.dev.boot.yealms ++ [y], offset := s.dev.boot.offset + yealmSize y })) ∧
    (s.dev.boot.next = [] → s.dev.on F.PW_STS_BUSY = false → s.dev.rd F.PW_STS_PEND = 0 → s.dev.boot.short s.dev.boot.lead = false →
      s.dev.boot.header = none → (headerCode h s.dev.imageRoom).1 ≠ 0 →
      Runs (.yealmRead hb yb) s [.CF, .MG, .PW, .PWV] (fun e => e.rd F.CF_STATUS_CODE = (headerCode h s.dev.imageRoom).1 % 256 ∧
        e.on F.CF_STS_LOADING = false ∧ e.boot.image = 0))) ∧
  (∀ (hb : List (BitVec 8)) (yb : YealmBytes) (n : Nat) (rest : List Nat) (s : State), s.dev.on F.CF_STS_LOADING = true → s.dev.boot.applying = false →
    (s.dev.boot.image = 1 ∨ s.dev.boot.image = 2) → s.dev.boot.next = n :: rest →
    (s.dev.boot.header = none → (headerCode (readHeader hb) s.dev.imageRoom).1 ≠ 0 →
      RunsOn (.yealmRead hb yb) s [F.CF_RES_CODE.key (s.dev.boot.image - 1), F.CF_RES_YEALM.key (s.dev.boot.image - 1)] (fun e =>
        e.rd F.CF_RES_CODE (s.dev.boot.image - 1) = (headerCode (readHeader hb) s.dev.imageRoom).1 % 256 ∧ e.boot.image = n ∧ e.boot.yealms = [])) ∧
    (∀ g, s.dev.boot.header = some g → (yealmCode s.dev.boot.yealms (readYealm yb)).1 ≠ 0 →
      RunsOn (.yealmRead hb yb) s [F.CF_RES_CODE.key (s.dev.boot.image - 1), F.CF_RES_YEALM.key (s.dev.boot.image - 1)] (fun e =>
        e.rd F.CF_RES_CODE (s.dev.boot.image - 1) = (yealmCode s.dev.boot.yealms (readYealm yb)).1 % 256 ∧
        e.rd F.CF_RES_YEALM (s.dev.boot.image - 1) = s.dev.boot.yealms.length % 1024 ∧ e.boot.image = n ∧ e.boot.yealms = []))) ∧
  (∀ (g : SigBytes) (s : State), (s.dev.boot.header = none ∨ s.dev.on F.CF_STS_LOADING = false ∨ s.dev.boot.applying = true ∨ s.dev.boot.short 256 = true) →
    Nothing (.imageLastByte g) s) ∧
  (∀ (g : SigBytes) (h : ImageHeader) (n : Nat) (rest : List Nat) (s : State), s.dev.boot.header = some h → s.dev.on F.CF_STS_LOADING = true →
    s.dev.boot.applying = false → (s.dev.boot.image = 1 ∨ s.dev.boot.image = 2) → s.dev.boot.next = n :: rest →
    ((endCode h s.dev.boot.yealms s.dev.boot.offset).1 ≠ 0 →
      RunsOn (.imageLastByte g) s [F.CF_RES_CODE.key (s.dev.boot.image - 1), F.CF_RES_YEALM.key (s.dev.boot.image - 1)] (fun e =>
        e.rd F.CF_RES_CODE (s.dev.boot.image - 1) = (endCode h s.dev.boot.yealms s.dev.boot.offset).1 % 256 ∧ e.boot.image = n)) ∧
    ((endCode h s.dev.boot.yealms s.dev.boot.offset).1 = 0 → (s.dev.boot.sigCode (readSig g)).1 ≠ 0 →
      RunsWide (.imageLastByte g) s (fun t => t.mem = (s.stageImage s.dev.boot.yealms).mem ∧ t.dev.boot.image = n ∧
        t.dev.rd F.CF_RES_CODE (s.dev.boot.image - 1) = (s.dev.boot.sigCode (readSig g)).1 % 256))) ∧
  (∀ (g sg : SigBytes) (h : ImageHeader) (s : State), s.dev.boot.header = some h → s.dev.on F.CF_STS_LOADING = true → s.dev.boot.applying = false →
    s.dev.boot.short 256 = false → sg = (if s.dev.boot.image = 3 then { g with bytes := s.dev.boot.received.take 256 } else g) →
    (endCode h s.dev.boot.yealms s.dev.boot.offset).1 = 0 → (s.dev.boot.sigCode (readSig sg)).1 = 0 → ruleBroken s.dev.boot.yealms = none →
    (∀ y, y ∈ s.dev.boot.yealms → ∀ z, Setting.dormer z ∉ y.settings) → s.dev.on F.PW_STS_BUSY = false → s.dev.rd F.PW_STS_DEV = 1 →
    s.dev.rd F.PW_STS_PEND = 0 →
    ∃ t, exec (.imageLastByte g) s = .next t ∧ t.pending = s.pending ∧ t.dev.fuse = s.dev.fuse ∧ t.dev.jtag = s.dev.jtag ∧
      t.dev.rd F.CF_VERSION_V = h.version.toNat ∧ t.dev.rd F.CF_BUILD_LO_V = h.build.toNat % 2 ^ 32 ∧
      (t.dev.boot.applying = true ∨ t.dev.on F.CF_STS_FULL = true)) ∧
  (∀ s : State, s.dev.boot.applying = false → Nothing .handoverDeadline s) ∧
  (∀ s : State, s.dev.boot.applying = true → s.dev.boot.hand ≠ [] → s.dev.on F.PW_STS_BUSY = false → s.dev.rd F.PW_STS_DEV = 1 →
    s.dev.rd F.PW_STS_PEND = 0 →
    RunsWide .handoverDeadline s (fun t => t.mem = s.mem ∧ t.dev.boot.hand = [] ∧ t.dev.boot.applying = false ∧ t.dev.on F.CF_STS_FULL = true))

/-- R343 to R358 and Tables 15.1, 15.2, 15.8, 15.10. -/
def Obligations.LoadAndRecoveryCommands : Prop :=
  (∀ (c : Instr) (flash : Option FlashFound) (s : State), (c = .reload flash ∨ c = .recover) →
    (s.dev.on F.CF_STS_LOADING = true ∨ s.dev.on F.CF_STS_FULL = true) →
    RunsOn c s [F.CF_CMDSTS_RESULT.key 0] (fun e => e.rd F.CF_CMDSTS_RESULT = 1)) ∧
  (∀ (f : FlashFound) (s : State), s.dev.loadFree = true → s.dev.loaderCan = true → s.dev.rd F.CF_STS_BOOT_SEL < 2 → flashUsable f = true →
    Runs (.reload (some f)) s [.CF, .PW, .PWV] (fun e => e.rd F.CF_CMDSTS_RESULT = 0 ∧ e.on F.CF_STS_LOADING = true ∧
      e.boot.image = s.dev.rd F.CF_STS_BOOT_SEL + 1 ∧ e.boot.next = [2 - s.dev.rd F.CF_STS_BOOT_SEL] ∧ e.rd F.CF_RES_CODE 0 = 0x0D ∧
      e.rd F.CF_RES_CODE 1 = 0x0D ∧ e.rd F.CF_FLASH_MODE = f.mode.val ∧ e.rd F.CF_FLASH_DENSITY = f.density.toNat)) ∧
  (∀ s : State, s.dev.loadFree = true → s.dev.loaderCan = true → s.dev.rd F.CF_STS_BOOT_SEL < 2 →
    s.dev.on F.PW_STS_BUSY = false → s.dev.rd F.PW_STS_PEND = 0 →
    Runs (.reload none) s [.CF, .MG, .PW, .PWV] (fun e => e.rd F.CF_STATUS_CODE = 1 ∧ e.rd F.CF_RES_CODE 0 = 1 ∧ e.rd F.CF_RES_CODE 1 = 1 ∧
      e.on F.CF_STS_LOADING = false)) ∧
  (∀ (c : Instr) (flash : Option FlashFound) (s : State), (c = .reload flash ∧ s.dev.rd F.CF_STS_BOOT_SEL ≠ 3) ∨ c = .recover → s.dev.loadFree = true →
    s.dev.loaderCan = false → s.dev.on F.PW_STS_BUSY = false → s.dev.rd F.PW_STS_PEND = 0 →
    Runs c s [.CF, .MG, .PW, .PWV] (fun e => e.rd F.CF_CMDSTS_RESULT = 0 ∧ e.rd F.CF_STATUS_CODE = 0x0E ∧ e.on F.CF_STS_LOADING = false)) ∧
  (∀ s : State, s.dev.loadFree = true → s.dev.loaderCan = true →
    Runs .recover s [.CF, .PWV] (fun e => e.rd F.CF_CMDSTS_RESULT = 0 ∧ e.on F.CF_STS_LOADING = true ∧ e.on F.CF_RCV_STS_ACTIVE = true ∧
      e.rd F.CF_RCV_CNT_COUNT = 0 ∧ e.boot.image = 3 ∧ e.boot.rcv = [])) ∧
  (∀ s : State, s.dev.on F.CF_RCV_STS_ACTIVE = false → RunsOn .rcvabort s [F.CF_CMDSTS_RESULT.key 0] (fun e => e.rd F.CF_CMDSTS_RESULT = 1)) ∧
  (∀ s : State, s.dev.on F.CF_RCV_STS_ACTIVE = true → s.dev.boot.next = [] → s.dev.on F.PW_STS_BUSY = false → s.dev.rd F.PW_STS_PEND = 0 →
    Runs .rcvabort s [.CF, .MG, .PW, .PWV] (fun e => e.rd F.CF_CMDSTS_RESULT = 0 ∧ e.rd F.CF_STATUS_CODE = 0x20 ∧ e.on F.CF_STS_LOADING = false ∧
      e.on F.CF_RCV_STS_ACTIVE = false ∧ e.rd F.CF_ITEM_ITEM = s.dev.rd F.CF_RCV_CNT_COUNT)) ∧
  (∀ (w : BitVec 32) (s : State), s.dev.on F.CF_RCV_STS_ACTIVE = false → Nothing (.recoveryDataWrite w) s) ∧
  (∀ (w : BitVec 32) (s : State), s.dev.on F.CF_RCV_STS_ACTIVE = true → s.dev.boot.rcv.length < 1024 →
    RunsOn (.recoveryDataWrite w) s [F.CF_RCV_CNT_COUNT.key 0] (fun e => e.boot = { s.dev.boot with rcv := s.dev.boot.rcv ++ [w.toNat] } ∧
      e.rd F.CF_RCV_CNT_COUNT = (s.dev.rd F.CF_RCV_CNT_COUNT + 4) % 2 ^ 32)) ∧
  (∀ (w : BitVec 32) (s : State), s.dev.on F.CF_RCV_STS_ACTIVE = true → 1024 ≤ s.dev.boot.rcv.length → s.dev.boot.next = [] →
    s.dev.on F.PW_STS_BUSY = false → s.dev.rd F.PW_STS_PEND = 0 →
    Runs (.recoveryDataWrite w) s [.CF, .MG, .PW, .PWV] (fun e => e.rd F.CF_STATUS_CODE = 0x21 ∧ e.on F.CF_RCV_STS_ACTIVE = false ∧
      e.rd F.CF_RCV_CNT_COUNT = s.dev.rd F.CF_RCV_CNT_COUNT))

/-- R343 to R358 and Tables 15.1, 15.2, 15.8, 15.10. -/
def Obligations.KeyCommands : Prop :=
  (∀ (k : Fin 4) (c : Instr) (op : Nat) (s : State), (c = .keyprog k ∧ op = 3 ∨ c = .keyrevoke k ∧ op = 4) →
    (s.dev.ulState ≠ 2 → RunsOn c s [F.CF_CMDSTS_RESULT.key 0] (fun e => e.rd F.CF_CMDSTS_RESULT = 2 ∧ e.boot = s.dev.boot)) ∧
    (s.dev.ulState = 2 → (s.dev.on F.CF_CMDSTS_BUSY = true ∨ s.dev.domOn rowC = false) →
      RunsOn c s [F.CF_CMDSTS_RESULT.key 0] (fun e => e.rd F.CF_CMDSTS_RESULT = 1 ∧ e.boot = s.dev.boot)) ∧
    (s.dev.ulState = 2 → s.dev.on F.CF_CMDSTS_BUSY = false → s.dev.domOn rowC = true → op = 3 →
      ((s.dev.fuse.imgKeys.find? k).isSome = true ∨ bit s.dev.fuse.imgRevoked k = true) →
      RunsOn c s [F.CF_CMDSTS_RESULT.key 0] (fun e => e.rd F.CF_CMDSTS_RESULT = 3 ∧ e.boot = s.dev.boot)) ∧
    (s.dev.ulState = 2 → s.dev.on F.CF_CMDSTS_BUSY = false → s.dev.domOn rowC = true →
      (op = 4 ∨ (s.dev.fuse.imgKeys.find? k = none ∧ bit s.dev.fuse.imgRevoked k = false)) →
      RunsOn c s [F.CF_CMDSTS_BUSY.key 0] (fun e => e.on F.CF_CMDSTS_BUSY = true ∧ e.boot = { s.dev.boot with key := some (op, k.val, s.dev.stagedKey) }))) ∧
  (∀ s : State, s.dev.boot.key = none → s.dev.mg.gkey = false → Nothing .keyProgrammingDone s) ∧
  (∀ (op slot hash : Nat) (s : State), s.dev.boot.key = some (op, slot, hash) → s.dev.mg.gkey = false →
    ∃ t, exec .keyProgrammingDone s = .next t ∧ t.mem = s.mem ∧ t.pending = s.pending ∧ t.dev.jtag = s.dev.jtag ∧ t.dev.boot.key = none ∧
      t.dev.on F.CF_CMDSTS_BUSY = false ∧ t.dev.rd F.CF_CMDSTS_RESULT = 0 ∧
      (op = 3 → t.dev.fuse = { s.dev.fuse with imgKeys := s.dev.fuse.imgKeys.put slot hash }) ∧
      (op = 4 → bit t.dev.fuse.imgRevoked slot = true ∧ t.dev.fuse = { s.dev.fuse with imgRevoked := t.dev.fuse.imgRevoked }) ∧
      ∀ (f : Fld) (i : Nat), f.key i ∉ [F.CF_CMDSTS_BUSY.key 0, F.CF_CMDSTS_RESULT.key 0] → t.dev.rd f i = s.dev.rd f i) ∧
  (∀ s : State, s.dev.boot.key = none → s.dev.mg.gkey = true →
    ∃ t, exec .keyProgrammingDone s = .next t ∧ t.mem = s.mem ∧ t.pending = s.pending ∧ t.dev.jtag = s.dev.jtag ∧ t.dev.mg.gkey = false ∧
      t.dev.fuse = { s.dev.fuse with kGate := ((List.range 8).map (fun j => bytesLE (s.dev.rd F.TG_UL_GKEY_KEY j) 4)).flatten } ∧
      t.dev.on F.TG_UL_STS_BUSY = false ∧ t.dev.rd F.TG_UL_STS_RESULT = 0 ∧ ∀ j, j < 8 → t.dev.rd F.TG_UL_GKEY_KEY j = 0)

/-- R341, R369 to R373, R375, R377 and Tables 17.1, 17.9. -/
def Obligations.PrivateTransfers : Prop :=
  (∀ (c : Instr) (i3c : Bool) (bs : List BusByte) (full co : List Nat) (fl : Option FlashFound) (seen : List EccSeen) (w r : Nat) (s : State),
    c ∈ [Instr.privateWrite i3c bs full fl seen, .privateRead i3c w r co seen] →
    (s.dev.pw.good = false ∨ (i3c = false ∧ s.dev.on F.MG_BUS_I3C = true)) → Nothing c s) ∧
  (∀ (i3c : Bool) (a b c d0 d1 d2 d3 : Byte) (fl : Option FlashFound) (seen : List EccSeen) (A : Nat) (W : BitVec 32) (s s1 t : State),
    s.dev.answers i3c = true → 7 ≤ s.dev.rd F.MG_BUS_MWL → c.toNat % 4 = 0 →
    A = a.toNat * 65536 + b.toNat * 256 + c.toNat → W.toNat = natLE [d0, d1, d2, d3] →
    s1 = { s with dev := { s.dev.addressMatch with mg := { s.dev.addressMatch.mg with nack := false, curAddr := A } } } →
    exec (.registerWrite (BitVec.ofNat 24 A) W fl seen) s1 = .next t →
    exec (.privateWrite i3c ([a, b, c, d0, d1, d2, d3].map (fun v => { val := v, parityOk := true })) [] fl seen) s =
      .next { t with dev := { t.dev with mg := { t.dev.mg with curAddr := (t.dev.mg.curAddr + 4) % 2 ^ 24 } } }) ∧
  (∀ (v : Byte) (rest : List BusByte) (full : List Nat) (fl : Option FlashFound) (seen : List EccSeen) (s : State), s.dev.pw.good = true →
    s.dev.awake = true → rest.length + 1 ≤ s.dev.rd F.MG_BUS_MWL →
    Runs (.privateWrite true ({ val := v, parityOk := false } :: rest) full fl seen) s [.MG] (fun e => e.on F.MG_BUSSTS_PARITY = true)) ∧
  (∀ (i3c : Bool) (a b c d0 d1 d2 d3 : Byte) (extra : List BusByte) (fl : Option FlashFound) (seen : List EccSeen) (A : Nat) (W : BitVec 32)
    (d : Dev) (s s1 t : State),
    s.dev.answers i3c = true → s.dev.rd F.MG_BUS_MWL = 7 → extra ≠ [] → c.toNat % 4 = 0 →
    A = a.toNat * 65536 + b.toNat * 256 + c.toNat → W.toNat = natLE [d0, d1, d2, d3] →
    d = s.dev.addressMatch.busSts F.MG_BUSSTS_MWLOVF →
    s1 = { s with dev := { d with mg := { d.mg with nack := ! i3c, curAddr := A } } } →
    exec (.registerWrite (BitVec.ofNat 24 A) W fl seen) s1 = .next t →
    exec (.privateWrite i3c ([a, b, c, d0, d1, d2, d3].map (fun v => { val := v, parityOk := true }) ++ extra) [] fl seen) s =
      .next { t with dev := { t.dev with mg := { t.dev.mg with curAddr := (t.dev.mg.curAddr + 4) % 2 ^ 24 } } }) ∧
  (∀ (i3c : Bool) (seen : List EccSeen) (r : Reg) (i : Nat) (s : State), s.dev.answers i3c = true → s.dev.awake = true →
    s.dev.regAt s.dev.mg.curAddr = some (r, i) → s.dev.served (regDomain r i) = true → r.fields.all (fun f => decide (f.acc ≠ .RC)) = true →
    r ≠ .TG_SLOT_STS →
    RunsOn (.privateRead i3c 1 1 [] seen) s [] (fun e => e.mg.readWords = [s.dev.word r i] ∧ e.mg.curAddr = (s.dev.mg.curAddr + 4) % 2 ^ 24 ∧
      e.mg.nack = false)) ∧
  (∀ (w : Nat) (co : List Nat) (seen : List EccSeen) (s : State), s.dev.pw.good = true → s.dev.awake = true → 0 < w →
    RunsOn (.privateRead true w 0 co seen) s [F.MG_CNT_NOTRDY_COUNT.key 0] (fun e => e.mg.readWords = [] ∧ e.mg.nack = true ∧
      e.rd F.MG_CNT_NOTRDY_COUNT = min (s.dev.rd F.MG_CNT_NOTRDY_COUNT + 1) (2 ^ 32 - 1)))

/-- R341, R369 to R373, R375, R377 and Tables 17.1, 17.9. -/
def Obligations.CommonCommandCodes : Prop :=
  (∀ (c : Instr) (dir ei : Bool) (n : BitVec 16) (sa da : BitVec 7) (ac : BitVec 8) (s : State), s.dev.pw.good = false →
    c ∈ [Instr.enec dir ei, .disec dir ei, .rstdaa, .entdaa da, .setmwl dir n, .setdasa sa da, .getmwl, .getpid, .getbcr, .getdcr, .getstatus,
      .rstact dir ac, .targetResetPattern] → Nothing c s) ∧
  (∀ (dir : Bool) (s : State), s.dev.pw.good = true → (dir = true → s.dev.awake = true) →
    RunsOn (.enec dir true) s [F.MG_BUS_ENINT.key 0] (fun e => e.on F.MG_BUS_ENINT = true) ∧
    RunsOn (.disec dir true) s [F.MG_BUS_ENINT.key 0] (fun e => e.on F.MG_BUS_ENINT = false) ∧
    RunsOn (.enec dir false) s [] (fun e => e.mg = s.dev.mg) ∧ RunsOn (.disec dir false) s [] (fun e => e.mg = s.dev.mg) ∧
    (∀ n : BitVec 16, RunsOn (.setmwl dir n) s [F.MG_BUS_MWL.key 0] (fun e =>
      e.rd F.MG_BUS_MWL = if 7 ≤ n.toNat ∧ n.toNat ≤ 1027 then n.toNat else s.dev.rd F.MG_BUS_MWL)) ∧
    (∀ a : BitVec 8, RunsOn (.rstact dir a) s [] (fun e => e.mg = { s.dev.mg with rstact := if a.toNat = 1 ∨ a.toNat = 2 then a.toNat else 0 }))) ∧
  (∀ s : State, s.dev.pw.good = true →
    RunsOn .rstdaa s [F.MG_BUS_I3C.key 0, F.MG_BUS_DA.key 0] (fun e => e.on F.MG_BUS_I3C = false ∧ e.rd F.MG_BUS_DA = 0)) ∧
  (∀ (da : BitVec 7) (s : State), s.dev.pw.good = true →
    (s.dev.on F.MG_BUS_I3C = true → Nothing (.entdaa da) s) ∧
    (s.dev.on F.MG_BUS_I3C = false →
      RunsOn (.entdaa da) s [F.MG_BUS_I3C.key 0, F.MG_BUS_DA.key 0] (fun e => e.on F.MG_BUS_I3C = true ∧ e.rd F.MG_BUS_DA = da.toNat))) ∧
  (∀ (sa da : BitVec 7) (s : State), (s.dev.on F.MG_BUS_I3C = true ∨ sa.toNat ≠ s.dev.rd F.MG_BUS_SA) → Nothing (.setdasa sa da) s) ∧
  (∀ (sa da : BitVec 7) (s : State), s.dev.pw.good = true → s.dev.awake = true → s.dev.on F.MG_BUS_I3C = false →
    sa.toNat = s.dev.rd F.MG_BUS_SA →
    RunsOn (.setdasa sa da) s [F.MG_BUS_I3C.key 0, F.MG_BUS_DA.key 0] (fun e => e.on F.MG_BUS_I3C = true ∧ e.rd F.MG_BUS_DA = da.toNat)) ∧
  (∀ (c : Instr) (l : List Byte) (s : State), s.dev.pw.good = true → s.dev.awake = true →
    (c = .getmwl ∧ l = bytesBE (s.dev.rd F.MG_BUS_MWL) 2 ∨ c = .getbcr ∧ l = [0x06] ∨ c = .getdcr ∧ l = [0x00] ∨
      c = .getpid ∧ l = bytesBE (s.dev.rd F.MG_MFR_MIPI * 2 ^ 33 + 0x6408 * 2 ^ 16 + s.dev.rd F.CF_STS_ADDR_SEL * 2 ^ 12 + s.dev.rd F.MG_ID_REV) 6) →
    RunsOn c s [] (fun e => e.mg = { s.dev.mg with cccData := l })) ∧
  (∀ s : State, s.dev.pw.good = true → s.dev.awake = true →
    RunsOn .getstatus s [F.MG_BUSSTS_PARITY.key 0] (fun e => e.mg.cccData = bytesBE s.dev.statusWord 2 ∧ e.on F.MG_BUSSTS_PARITY = false)) ∧
  (∀ (c : Instr) (s : State), c ∈ [Instr.getmwl, .getpid, .getbcr, .getdcr] → s.dev.restful → s.dev.on F.PW_WAKEEN_ADDR = true →
    2 ≤ s.dev.rd F.PW_STS_DEV → s.dev.rd F.PW_STS_DEV ≤ 5 →
    Runs c s [.CF, .DM, .MG, .PW, .PWV, .SN, .TG, .UD] (fun e => e.rd F.PW_LASTWAKE_SRC = 1 ∧ e.goingTo 1))

/-- R341, R369 to R373, R375, R377 and Tables 17.1, 17.9. -/
def Obligations.BusResetsAndInterrupts : Prop :=
  (∀ s : State, s.dev.pw.good = true → s.dev.mg.rstact = 1 →
    RunsOn .targetResetPattern s [F.MG_BUS_ENINT.key 0, F.MG_BUS_MWL.key 0, F.MG_CNT_NOTRDY_COUNT.key 0, F.MG_BUSSTS_WBOVF.key 0,
      F.MG_BUSSTS_MISALIGN.key 0, F.MG_BUSSTS_PARTIAL.key 0, F.MG_BUSSTS_MWLOVF.key 0, F.MG_BUSSTS_UNMAPPED.key 0, F.MG_BUSSTS_PARITY.key 0] (fun e =>
      e.on F.MG_BUS_ENINT = true ∧ e.rd F.MG_BUS_MWL = 259 ∧ e.rd F.MG_CNT_NOTRDY_COUNT = 0 ∧ e.on F.MG_BUSSTS_PARITY = false ∧ e.mg.rstact = 1)) ∧
  (∀ s : State, s.dev.pw.good = true → s.dev.mg.rstact = 0 → RunsOn .targetResetPattern s [] (fun e => e.mg = { s.dev.mg with rstact := 1 })) ∧
  (∀ (c : Instr) (s : State), (c = .resetNLow ∨ c = .targetResetPattern ∧ s.dev.pw.good = true ∧ s.dev.mg.rstact = 2) →
    (s.dev.on F.MT_STS_WIPING = false →
      ∃ t, exec c s = .next t ∧ t.pending = s.pending ∧ t.mem = [] ∧ t.dev.fuse = s.dev.fuse ∧ t.dev.pw.good = false ∧
        t.dev.jtag.ir = s.dev.jtag.ir ∧ t.dev.dm.latch = s.dev.dm.latch ∧ ∀ (f : Fld) (i : Nat), t.dev.rd f i = State.reset.dev.rd f i) ∧
    (s.dev.on F.MT_STS_WIPING = true → RunsOn c s [] (fun e => e.pw.resetDue = true))) ∧
  (∀ (a : Bool) (s : State), (s.dev.mg.ibi = 0 ∨ s.dev.on F.MG_BUS_ENINT = false ∨ s.dev.on F.MG_BUS_I3C = false) → Nothing (.ibiRequest a) s) ∧
  (∀ (a : Bool) (s : State), s.dev.mg.ibi ≠ 0 → s.dev.on F.MG_BUS_ENINT = true → s.dev.on F.MG_BUS_I3C = true →
    RunsOn (.ibiRequest a) s [] (fun e => e.mg =
      { s.dev.mg with ibiByte := some (lowBit s.dev.mg.ibi), nack := ! a, ibi := if a = true then 0 else s.dev.mg.ibi }))

/-- R6 of spec/00_scope.md.  Its second sentence is an instruction to the host. -/
def Obligations.ReservedBitsReadZero : Prop :=
  ∀ (a : BitVec 24) (coin : Bool) (seen : EccSeen) (r : Reg) (i : Nat) (s : State), s.dev.regAt (a.toNat / 4 * 4) = some (r, i) →
    ∃ t v, exec (.counterRead a coin seen) s = .next t ∧ t.dev.mg.readWords = [v] ∧ v < 2 ^ 32 ∧
      ∀ b, b < 32 → (∀ f, f ∈ r.fields → b < f.lo ∨ f.lo + f.w ≤ b) → bit v b = false

/-- R7 of spec/00_scope.md, with Table 0.5. -/
def Obligations.IgnoredWrites : Prop :=
  (∀ (a : BitVec 24) (w : BitVec 32) (fl : Option FlashFound) (seen : List EccSeen) (r : Reg) (i : Nat) (s : State),
    s.dev.regAt (a.toNat / 4 * 4) = some (r, i) → r.fields.all (fun f => decide (f.acc = .RO ∨ f.acc = .RC)) = true →
    RunsOn (.registerWrite a w fl seen) s [F.PW_STS_OFFACC.key 0] (fun e => e.rd F.MG_ALERT_ALERT = s.dev.rd F.MG_ALERT_ALERT ∧ e.mg = s.dev.mg ∧
      (s.dev.served (regDomain r i) = true → e = s.dev))) ∧
  (∀ (a : BitVec 24) (w : BitVec 32) (fl : Option FlashFound) (seen : List EccSeen) (r : Reg) (i : Nat) (s : State),
    s.dev.regAt (a.toNat / 4 * 4) = some (r, i) → s.dev.served (regDomain r i) = true →
    r ∈ [Reg.MG_FAULT_ID, .MG_BUSSTS, .PW_STS, .PW_HELD, .CF_STS, .ST_MSTS, .ST_MFAIL_ADDR, .ST_LSTS, .CL_STS, .UD_FAULT, .LN_PLL_STS, .LN_STS,
      .LN_PT_STS, .TB_STS, .FB_STS, .MT_STS, .MT_WINSTS, .MT_ECCLOG_ADDR, .MT_COLLIDE, .MT_POISON, .MT_CTL, .PU_PTSEL, .TSU_CTL] →
    ∃ t, exec (.registerWrite a w fl seen) s = .next t ∧ t.mem = s.mem ∧ t.pending = s.pending ∧ t.dev.rd F.MG_ALERT_ALERT = s.dev.rd F.MG_ALERT_ALERT ∧
      ∀ f, f ∈ r.fields → f.acc = .RO ∨ f.acc = .RC → t.dev.rd f i = s.dev.rd f i)

/-- R322 of spec/14_power.md. -/
def Obligations.AccessesToDomainsNotOn : Prop :=
  (∀ (a : BitVec 24) (w : BitVec 32) (fl : Option FlashFound) (seen : List EccSeen) (coin : Bool) (e1 : EccSeen) (r : Reg) (i : Nat) (s : State),
    s.dev.pw.good = true → s.dev.regAt (a.toNat / 4 * 4) = some (r, i) → regDomain r i ≠ 0 → s.dev.domOn (regDomain r i) = false →
    RunsOn (.registerWrite a w fl seen) s [F.PW_STS_OFFACC.key 0] (fun e => e.on F.PW_STS_OFFACC = true ∧ e.mg = s.dev.mg) ∧
    RunsOn (.counterRead a coin e1) s [F.PW_STS_OFFACC.key 0] (fun e => e.on F.PW_STS_OFFACC = true ∧ e.mg.readWords = [0])) ∧
  (∀ (r : Reg) (i : Nat), r.block ∈ [Block.mg, .pw, .cf, .tg, .sn, .cl, .ud, .cs] → regDomain r i = 0) ∧
  (∀ (a : BitVec 24) (coin : Bool) (e1 : EccSeen) (r : Reg) (i : Nat) (s : State),
    s.dev.pw.good = true → s.dev.regAt (a.toNat / 4 * 4) = some (r, i) → regDomain r i = 0 →
    ∃ t, exec (.counterRead a coin e1) s = .next t ∧ t.mem = s.mem ∧ t.pending = s.pending ∧ t.dev.mg.readWords = [s.dev.word r i] ∧
      t.dev.on F.PW_STS_OFFACC = s.dev.on F.PW_STS_OFFACC)

/-- R5 to R7, R68, R261, R371, R372, R374 and Table 0.5. -/
def Obligations.RegisterAccesses : Prop :=
  (∀ (a : BitVec 24) (w : BitVec 32) (fl : Option FlashFound) (seen : List EccSeen) (r : Reg) (i : Nat) (s : State),
    s.dev.pw.good = true → s.dev.regAt (a.toNat / 4 * 4) = some (r, i) → s.dev.served (regDomain r i) = true →
    r ∈ [Reg.MG_SCRATCH, .PW_HOLDREP, .PW_WAKEEN, .PW_NAPSET, .CF_KEYH, .TG_UL_REQ, .TG_ADDR, .TG_DATA, .TG_MASK, .SN_CTL, .SN_SRCEN, .SN_MATCH_S_LO,
      .SN_MATCH_S_HI, .SN_MATCH_NS, .SN_LOLMASK, .SN_SEL, .ST_MSTART, .ST_MEND, .CL_RES, .CL_PDT_SEL, .LN_IDLE_TQ, .LN_RX_FFE_SEL, .TSU_CTL, .TS_SERVO,
      .TS_PPS_IN, .TS_OUT_CTL, .TS_PPS_OFS, .TS_CLKOUT_CTL, .TS_CLKOUT_FREQ, .TS_CLS_KEY, .TS_CLS_ACT, .TS_IE_CTL, .MT_WINBASE, .PU_PTSEL] →
    RunsOn (.registerWrite a w fl seen) s ((r.fields.filter (fun f => decide (f.acc = .RW))).map (fun f => f.key i)) (fun e =>
      ∀ f, f ∈ r.fields → f.acc = .RW → e.rd f i = bits w.toNat f.lo f.w)) ∧
  (∀ (w : BitVec 32) (fl : Option FlashFound) (seen : List EccSeen) (s : State), s.dev.pw.good = true →
    RunsOn (.registerWrite 0x20 w fl seen) s [F.MG_ALERT_ALERT.key 0] (fun e =>
      ∀ b, b < 14 → bit (e.rd F.MG_ALERT_ALERT) b = (bit (s.dev.rd F.MG_ALERT_ALERT) b && ! bit w.toNat b))) ∧
  (∀ (a : BitVec 24) (w : BitVec 32) (fl : Option FlashFound) (seen : List EccSeen) (coin : Bool) (e1 : EccSeen) (s : State),
    s.dev.pw.good = true → inWindowSpace (a.toNat / 4 * 4) = false → blockAt (a.toNat / 4 * 4) = none →
    Runs (.registerWrite a w fl seen) s [.MG] (fun e => e.on F.MG_BUSSTS_UNMAPPED = true) ∧
    Runs (.counterRead a coin e1) s [.MG] (fun e => e.on F.MG_BUSSTS_UNMAPPED = true ∧ e.mg.readWords = [0])) ∧
  (∀ (a : BitVec 24) (w : BitVec 32) (fl : Option FlashFound) (seen : List EccSeen) (coin : Bool) (e1 : EccSeen) (s : State),
    (blockAt (a.toNat / 4 * 4)).isSome = true → s.dev.regAt (a.toNat / 4 * 4) = none → s.dev.served (blockDomain (a.toNat / 4 * 4)) = true →
    Nothing (.registerWrite a w fl seen) s ∧ RunsOn (.counterRead a coin e1) s [] (fun e => e.mg.readWords = [0])) ∧
  (∀ (a : BitVec 24) (coin : Bool) (e1 : EccSeen) (r : Reg) (i : Nat) (s : State),
    s.dev.pw.good = true → s.dev.regAt (a.toNat / 4 * 4) = some (r, i) → s.dev.served (regDomain r i) = true → r ≠ .TG_SLOT_STS →
    RunsOn (.counterRead a coin e1) s ((r.fields.filter (fun f => decide (f.acc = .RC))).map (fun f => f.key i)) (fun e =>
      e.mg.readWords = [s.dev.word r i] ∧ ∀ f, f ∈ r.fields → f.acc = .RC → e.rd f i = b2n coin)) ∧
  (∀ (a : BitVec 24) (coin : Bool) (e1 : EccSeen) (i : Nat) (s : State), s.dev.pw.good = true → s.dev.regAt (a.toNat / 4 * 4) = some (.TG_SLOT_STS, i) →
    s.dev.rd F.TG_SLOT_STS_STATE i = 3 →
    RunsOn (.counterRead a coin e1) s [F.TG_SLOT_STS_STATE.key i] (fun e => e.rd F.TG_SLOT_STS_STATE i = 0 ∧ e.mg.readWords = [s.dev.word .TG_SLOT_STS i]))

/-- R5 to R7, R68, R261, R371, R372, R374 and Table 0.5. -/
def Obligations.CommandRegisters : Prop :=
  (∀ (w : BitVec 32) (fl : Option FlashFound) (seen : List EccSeen) (s : State), s.dev.pw.good = true →
    (bits w.toNat 0 3 = 1 → exec (.registerWrite 0x3000 w fl seen) s = exec (.gateOpen .host) s ∧ exec (.registerWrite 0x2040 w fl seen) s = exec (.reload fl) s ∧
      exec (.registerWrite 0x3100 w fl seen) s = exec .challenge s) ∧
    (bits w.toNat 0 3 = 2 → exec (.registerWrite 0x2040 w fl seen) s = exec .recover s ∧ exec (.registerWrite 0x3100 w fl seen) s = exec .verify s) ∧
    (bits w.toNat 0 3 = 3 → exec (.registerWrite 0x3100 w fl seen) s = exec .relock s) ∧
    (bits w.toNat 0 3 = 4 → exec (.registerWrite 0x3100 w fl seen) s = exec .gkeyprog s ∧ exec (.registerWrite 0x6000 w fl seen) s = exec .clCancel s) ∧
    (bits w.toNat 0 3 = 5 → exec (.registerWrite 0x2040 w fl seen) s = exec .rcvabort s) ∧
    (bits w.toNat 0 1 = 1 → exec (.registerWrite 0x4008 w fl seen) s = exec .snFire s ∧ exec (.registerWrite 0x4050 w fl seen) s = exec .snArmall s))
end

