-- ==== Sys2Proof/Laws/Frame.lean ====
section
/-! SUPPORT. What every shared operation leaves alone: eFuse, the test port, the clock, and every register outside the named
blocks of the register map. One lemma per operation. -/

set_option linter.unusedVariables false
namespace Sys2Proof.Machine

/-- The fields of the blocks not in `M`, with eFuse, the test port and the clock. -/
def Dev.kept (d : Dev) (M : Blk → Bool) : FuseX × JtagX × Nat × RegFile :=
  (d.fuse, d.jtag, d.now, d.regs.filter (fun p => ! M (blk p.1.reg p.1.lo)))

theorem filter_put (M : Blk → Bool) (m : RegFile) (k : Key) (v : Nat) (h : M (blk k.reg k.lo) = true) :
    (m.put k v).filter (fun p => ! M (blk p.1.reg p.1.lo)) = m.filter (fun p => ! M (blk p.1.reg p.1.lo)) := by
  induction m with
  | nil => simp [RegFile.put, h]
  | cons x t ih =>
    simp only [RegFile.put]
    split
    · rename_i e; subst e; simp [h]
    · split
      · simp [h]
      · simp [List.filter_cons, ih]
@[simp] theorem keptIte (M : Blk → Bool) (c : Prop) [Decidable c] (a b : Dev) : (if c then a else b).kept M = if c then a.kept M else b.kept M := by split <;> rfl
theorem keptFoldl {α : Type} (M : Blk → Bool) (g : Dev → α → Dev) (h : ∀ d x, (g d x).kept M = d.kept M) (l : List α) (d : Dev) : (l.foldl g d).kept M = d.kept M := by
  induction l generalizing d with
  | nil => rfl
  | cons x t ih => simp only [List.foldl_cons, ih, h]
theorem keptEach (M : Blk → Bool) (l : List Nat) (g : Nat → Dev → Dev) (h : ∀ n d, (g n d).kept M = d.kept M) (d : Dev) : (d.each l g).kept M = d.kept M :=
  keptFoldl M (fun d n => g n d) (fun d n => h n d) l d
@[simp] theorem keptMk (M : Blk → Bool) (e : Dev) (watched0 : List Watch) (lanes0 : NMap LaneX) (segs0 : NMap SegX) (courses0 : NMap CourseX) (refs0 : NMap RefX) (tb0 : TbX) (mg0 : MgX) (trig0 : TrigX) (pw0 : PwX) (cal0 : CalX) (boot0 : BootX) (bnd0 : NMap Nat) (svcTurn0 : NMap Nat) (marks0 : NMap Nat) (standQ0 : List Nat) (eaves0 : EavesX) (eng0 : EngX) (mt0 : MtX) (pu0 : PuX) (fb0 : NMap FbX) (gut0 : NMap GutX) (img0 : ImgX) (gate0 : NMap GateX) (mb0 : MbX) (points0 : NMap PointX) (cls0 : Option ClsX) (dm0 : DmX) (draws0 : Nat) :
    (Dev.mk e.regs watched0 lanes0 segs0 courses0 refs0 tb0 mg0 trig0 pw0 cal0 boot0 bnd0 svcTurn0 marks0 standQ0 eaves0 eng0 mt0 pu0 fb0 gut0 img0 gate0 mb0 e.fuse points0 cls0 dm0 e.jtag e.now draws0).kept M = e.kept M := rfl
@[simp] theorem kept_wr (M : Blk → Bool) (d : Dev) (f : Fld) (i v : Nat) (h : M (blk f.reg f.lo) = true) : (d.wr f i v).kept M = d.kept M := by
  simp only [Dev.kept, Dev.wr, filter_put M d.regs ⟨f.reg, f.lo, i⟩ _ h]
@[simp] theorem kept_wr0 (M : Blk → Bool) (d : Dev) (f : Fld) (v : Nat) (h : M (blk f.reg f.lo) = true) : (d.wr0 f v).kept M = d.kept M :=
  kept_wr M d f 0 v h
@[simp] theorem kept_wrc (M : Blk → Bool) (d : Dev) (f : Fld) (i v : Nat) (h : M (blk f.reg f.lo) = true) : (d.wrc f i v).kept M = d.kept M := by
  unfold Dev.wrc; split
  · rfl
  · exact kept_wr M d f i v h
@[simp] theorem kept_bump (M : Blk → Bool) (d : Dev) (f : Fld) (i : Nat) (h : M (blk f.reg f.lo) = true) : (d.bump f i).kept M = d.kept M :=
  kept_wr M d f i _ h
@[simp] theorem kept_bumpBy (M : Blk → Bool) (d : Dev) (f : Fld) (i n : Nat) (h : M (blk f.reg f.lo) = true) : (d.bumpBy f i n).kept M = d.kept M := by
  unfold Dev.bumpBy; split
  · rfl
  · exact kept_wr M d f i _ h
theorem fields_reg (r : Reg) : ∀ f ∈ r.fields, f.reg = r := by cases r <;> decide
theorem keptFoldlMem {α : Type} (M : Blk → Bool) (g : Dev → α → Dev) (l : List α) (h : ∀ d, ∀ x ∈ l, (g d x).kept M = d.kept M) (d : Dev) : (l.foldl g d).kept M = d.kept M := by
  induction l generalizing d with
  | nil => rfl
  | cons x t ih =>
    simp only [List.foldl_cons]
    rw [ih (fun d y hy => h d y (List.mem_cons_of_mem _ hy)), h d x (List.mem_cons_self ..)]
@[simp] theorem kept_putWord (M : Blk → Bool) (d : Dev) (r : Reg) (i w : Nat) (h : ∀ lo, M (blk r lo) = true) : (d.putWord r i w).kept M = d.kept M :=
  keptFoldlMem M _ _ (fun d f hf => kept_wrc M d f i _ (by rw [fields_reg r f hf]; exact h f.lo)) d
theorem keptElim (M : Blk → Bool) (o : Option Nat) (a : Dev) (g : Nat → Dev) (d : Dev) (ha : a.kept M = d.kept M) (hg : ∀ x, (g x).kept M = d.kept M) : (o.elim a g).kept M = d.kept M := by
  cases o <;> simp [ha, hg]
theorem blkIte (c : Prop) [Decidable c] (a b : Fld) : blk (if c then a else b).reg (if c then a else b).lo = if c then blk a.reg a.lo else blk b.reg b.lo := by split <;> rfl
theorem optIte {α : Type} {c : Prop} [Decidable c] {a b : Option α} {x : α} {P : Prop} (h : (if c then a else b) = some x)
    (h1 : a = some x → P) (h2 : b = some x → P) : P := by
  split at h
  · exact h1 h
  · exact h2 h
theorem optIte' {α : Type} {c : Prop} [Decidable c] {a b : Option α} {x : α} {P : Prop}
    (h1 : a = some x → P) (h2 : b = some x → P) : (if c then a else b) = some x → P := by
  split
  · exact h1
  · exact h2
@[simp] theorem blkF_hfnFld (s : Side) : blk (hfnFld s).reg (hfnFld s).lo = .CS := by cases s <;> rfl
@[simp] theorem blkF_ltssmFld (s : Side) : blk (ltssmFld s).reg (ltssmFld s).lo = .CS := by cases s <;> rfl
@[simp] theorem blkF_refuseFld (s : Side) : blk (refuseFld s).reg (refuseFld s).lo = .CS := by cases s <;> rfl
@[simp] theorem blkF_rxRateFld (s : Side) : blk (rxRateFld s).reg (rxRateFld s).lo = .CS := by cases s <;> rfl
@[simp] theorem blkF_segFld (s : Side) : blk (segFld s).reg (segFld s).lo = .CS := by cases s <;> rfl
@[simp] theorem blkR_CF_CMDSTS (lo : Nat) : blk .CF_CMDSTS lo = .CF := rfl
@[simp] theorem blkR_CF_FLASH (lo : Nat) : blk .CF_FLASH lo = .CF := rfl
@[simp] theorem blkR_CF_ITEM (lo : Nat) : blk .CF_ITEM lo = .CF := rfl
@[simp] theorem blkR_CF_RCV_CNT (lo : Nat) : blk .CF_RCV_CNT lo = .CF := rfl
@[simp] theorem blkR_CF_RCV_STS (lo : Nat) : blk .CF_RCV_STS lo = .CF := rfl
@[simp] theorem blkR_CF_RES (lo : Nat) : blk .CF_RES lo = .CF := rfl
@[simp] theorem blkR_CF_STATUS (lo : Nat) : blk .CF_STATUS lo = .CF := rfl
@[simp] theorem blkR_CF_STS (lo : Nat) : blk .CF_STS lo = .CF := rfl
@[simp] theorem blkR_CF_TBARE (lo : Nat) : blk .CF_TBARE lo = .CF := rfl
@[simp] theorem blkR_CF_TFULL (lo : Nat) : blk .CF_TFULL lo = .CF := rfl
@[simp] theorem blkR_CL_CALREF (lo : Nat) : blk .CL_CALREF lo = .CL := rfl
@[simp] theorem blkR_CL_RES (lo : Nat) : blk .CL_RES lo = .CL := rfl
@[simp] theorem blkR_CL_SPREAD (lo : Nat) : blk .CL_SPREAD lo = .CL := rfl
@[simp] theorem blkR_CL_STS (lo : Nat) : blk .CL_STS lo = .CL := rfl
@[simp] theorem blkR_CL_VCAL (lo : Nat) : blk .CL_VCAL lo = .CL := rfl
@[simp] theorem blkR_CS_CNT_DEG (lo : Nat) : blk .CS_CNT_DEG lo = .CS := rfl
@[simp] theorem blkR_CS_CNT_TRAIN (lo : Nat) : blk .CS_CNT_TRAIN lo = .CS := rfl
@[simp] theorem blkR_CS_CPRI_CFG (lo : Nat) : blk .CS_CPRI_CFG lo = .CS := rfl
@[simp] theorem blkR_CS_CPRI_CNT_RATE (lo : Nat) : blk .CS_CPRI_CNT_RATE lo = .CS := rfl
@[simp] theorem blkR_CS_CTL (lo : Nat) : blk .CS_CTL lo = .CS := rfl
@[simp] theorem blkR_CS_CTX (lo : Nat) : blk .CS_CTX lo = .CS := rfl
@[simp] theorem blkR_CS_ETH_CFG (lo : Nat) : blk .CS_ETH_CFG lo = .CS := rfl
@[simp] theorem blkR_CS_ETH_CNT_AN (lo : Nat) : blk .CS_ETH_CNT_AN lo = .CS := rfl
@[simp] theorem blkR_CS_ETH_PG_HI (lo : Nat) : blk .CS_ETH_PG_HI lo = .CS := rfl
@[simp] theorem blkR_CS_ETH_PG_LO (lo : Nat) : blk .CS_ETH_PG_LO lo = .CS := rfl
@[simp] theorem blkR_CS_ETH_RES (lo : Nat) : blk .CS_ETH_RES lo = .CS := rfl
@[simp] theorem blkR_CS_ETH_TR (lo : Nat) : blk .CS_ETH_TR lo = .CS := rfl
@[simp] theorem blkR_CS_LANES (lo : Nat) : blk .CS_LANES lo = .CS := rfl
@[simp] theorem blkR_CS_LAT (lo : Nat) : blk .CS_LAT lo = .CS := rfl
@[simp] theorem blkR_CS_PCI_CNT_NAK (lo : Nat) : blk .CS_PCI_CNT_NAK lo = .CS := rfl
@[simp] theorem blkR_CS_PCI_CNT_REC (lo : Nat) : blk .CS_PCI_CNT_REC lo = .CS := rfl
@[simp] theorem blkR_CS_PCI_CNT_SPD (lo : Nat) : blk .CS_PCI_CNT_SPD lo = .CS := rfl
@[simp] theorem blkR_CS_PCI_MRG (lo : Nat) : blk .CS_PCI_MRG lo = .CS := rfl
@[simp] theorem blkR_CS_PCI_STS (lo : Nat) : blk .CS_PCI_STS lo = .CS := rfl
@[simp] theorem blkR_CS_RATE (lo : Nat) : blk .CS_RATE lo = .CS := rfl
@[simp] theorem blkR_CS_SEL (lo : Nat) : blk .CS_SEL lo = .CS := rfl
@[simp] theorem blkR_CS_STS (lo : Nat) : blk .CS_STS lo = .CS := rfl
@[simp] theorem blkR_CS_TCHG_NS (lo : Nat) : blk .CS_TCHG_NS lo = .CS := rfl
@[simp] theorem blkR_CS_TCHG_S (lo : Nat) : blk .CS_TCHG_S lo = .CS := rfl
@[simp] theorem blkR_DM_CFG (lo : Nat) : blk .DM_CFG lo = .DM := rfl
@[simp] theorem blkR_DM_MLIST (lo : Nat) : blk .DM_MLIST lo = .DM := rfl
@[simp] theorem blkR_DM_RING_ID_HI (lo : Nat) : blk .DM_RING_ID_HI lo = .DM := rfl
@[simp] theorem blkR_DM_RING_ID_LO (lo : Nat) : blk .DM_RING_ID_LO lo = .DM := rfl
@[simp] theorem blkR_DM_SEQ_NEW (lo : Nat) : blk .DM_SEQ_NEW lo = .DM := rfl
@[simp] theorem blkR_DM_SEQ_OLD (lo : Nat) : blk .DM_SEQ_OLD lo = .DM := rfl
@[simp] theorem blkR_DM_STS (lo : Nat) : blk .DM_STS lo = .DM := rfl
@[simp] theorem blkR_FB_CNT_DENY (lo : Nat) : blk .FB_CNT_DENY lo = .FB := rfl
@[simp] theorem blkR_FB_CNT_GOVF (lo : Nat) : blk .FB_CNT_GOVF lo = .FB := rfl
@[simp] theorem blkR_FB_CNT_GUNF (lo : Nat) : blk .FB_CNT_GUNF lo = .FB := rfl
@[simp] theorem blkR_FB_CNT_LATE (lo : Nat) : blk .FB_CNT_LATE lo = .FB := rfl
@[simp] theorem blkR_FB_CNT_PGIN (lo : Nat) : blk .FB_CNT_PGIN lo = .FB := rfl
@[simp] theorem blkR_FB_CNT_SW (lo : Nat) : blk .FB_CNT_SW lo = .FB := rfl
@[simp] theorem blkR_FB_PACE (lo : Nat) : blk .FB_PACE lo = .FB := rfl
@[simp] theorem blkR_FB_PACE_STS (lo : Nat) : blk .FB_PACE_STS lo = .FB := rfl
@[simp] theorem blkR_FB_PGSTS (lo : Nat) : blk .FB_PGSTS lo = .FB := rfl
@[simp] theorem blkR_FB_SLOT (lo : Nat) : blk .FB_SLOT lo = .FB := rfl
@[simp] theorem blkR_FB_STS (lo : Nat) : blk .FB_STS lo = .FB := rfl
@[simp] theorem blkR_LN_CNT_DISP (lo : Nat) : blk .LN_CNT_DISP lo = .LN := rfl
@[simp] theorem blkR_LN_CNT_FECSYM (lo : Nat) : blk .LN_CNT_FECSYM lo = .LN := rfl
@[simp] theorem blkR_LN_CNT_IDLE (lo : Nat) : blk .LN_CNT_IDLE lo = .LN := rfl
@[simp] theorem blkR_LN_CNT_INV (lo : Nat) : blk .LN_CNT_INV lo = .LN := rfl
@[simp] theorem blkR_LN_CNT_LOL (lo : Nat) : blk .LN_CNT_LOL lo = .LN := rfl
@[simp] theorem blkR_LN_CNT_RESCUE (lo : Nat) : blk .LN_CNT_RESCUE lo = .LN := rfl
@[simp] theorem blkR_LN_CNT_SHDR (lo : Nat) : blk .LN_CNT_SHDR lo = .LN := rfl
@[simp] theorem blkR_LN_CTL (lo : Nat) : blk .LN_CTL lo = .LN := rfl
@[simp] theorem blkR_LN_FS_STS (lo : Nat) : blk .LN_FS_STS lo = .LNF := rfl
@[simp] theorem blkR_LN_PLL_CTL (lo : Nat) : blk .LN_PLL_CTL lo = .LNP := rfl
@[simp] theorem blkR_LN_PLL_STS (lo : Nat) : blk .LN_PLL_STS lo = .LNP := rfl
@[simp] theorem blkR_LN_PT_BITS_HI (lo : Nat) : blk .LN_PT_BITS_HI lo = .LNT := rfl
@[simp] theorem blkR_LN_PT_BITS_LO (lo : Nat) : blk .LN_PT_BITS_LO lo = .LNT := rfl
@[simp] theorem blkR_LN_PT_CTL (lo : Nat) : blk .LN_PT_CTL lo = .LNT := rfl
@[simp] theorem blkR_LN_PT_ERR (lo : Nat) : blk .LN_PT_ERR lo = .LNT := rfl
@[simp] theorem blkR_LN_PT_STS (lo : Nat) : blk .LN_PT_STS lo = .LNT := rfl
@[simp] theorem blkR_LN_RX_EQ (lo : Nat) : blk .LN_RX_EQ lo = .LN := rfl
@[simp] theorem blkR_LN_STS (lo : Nat) : blk .LN_STS lo = .LN := rfl
@[simp] theorem blkR_LN_TX_FFE (lo : Nat) : blk .LN_TX_FFE lo = .LN := rfl
@[simp] theorem blkR_MG_ALERT (lo : Nat) : blk .MG_ALERT lo = .MG := rfl
@[simp] theorem blkR_MG_ALERTEN (lo : Nat) : blk .MG_ALERTEN lo = .HOST := rfl
@[simp] theorem blkR_MG_BUSSTS (lo : Nat) : blk .MG_BUSSTS lo = .MG := rfl
@[simp] theorem blkR_MG_FAULT_ID (lo : Nat) : blk .MG_FAULT_ID lo = .MG := rfl
@[simp] theorem blkR_MT_CNT_DENY (lo : Nat) : blk .MT_CNT_DENY lo = .MT := rfl
@[simp] theorem blkR_MT_CNT_POISON (lo : Nat) : blk .MT_CNT_POISON lo = .MT := rfl
@[simp] theorem blkR_MT_CNT_UE (lo : Nat) : blk .MT_CNT_UE lo = .MT := rfl
@[simp] theorem blkR_MT_COLLIDE (lo : Nat) : blk .MT_COLLIDE lo = .MT := rfl
@[simp] theorem blkR_MT_COLLIDE_ADDR (lo : Nat) : blk .MT_COLLIDE_ADDR lo = .MT := rfl
@[simp] theorem blkR_MT_CONF (lo : Nat) : blk .MT_CONF lo = .MT := rfl
@[simp] theorem blkR_MT_CTL (lo : Nat) : blk .MT_CTL lo = .MT := rfl
@[simp] theorem blkR_MT_ECCLOG_ADDR (lo : Nat) : blk .MT_ECCLOG_ADDR lo = .MT := rfl
@[simp] theorem blkR_MT_ECCLOG_INFO (lo : Nat) : blk .MT_ECCLOG_INFO lo = .MT := rfl
@[simp] theorem blkR_MT_INFLT (lo : Nat) : blk .MT_INFLT lo = .MT := rfl
@[simp] theorem blkR_MT_INFLT_MAX (lo : Nat) : blk .MT_INFLT_MAX lo = .MT := rfl
@[simp] theorem blkR_MT_POISON (lo : Nat) : blk .MT_POISON lo = .MT := rfl
@[simp] theorem blkR_MT_POISON_ADDR (lo : Nat) : blk .MT_POISON_ADDR lo = .MT := rfl
@[simp] theorem blkR_MT_STS (lo : Nat) : blk .MT_STS lo = .MT := rfl
@[simp] theorem blkR_MT_WINSTS (lo : Nat) : blk .MT_WINSTS lo = .MT := rfl
@[simp] theorem blkR_PU_CNT_DROPCAP (lo : Nat) : blk .PU_CNT_DROPCAP lo = .PU := rfl
@[simp] theorem blkR_PU_CNT_DROPPOOL (lo : Nat) : blk .PU_CNT_DROPPOOL lo = .PU := rfl
@[simp] theorem blkR_PU_CNT_PTCE (lo : Nat) : blk .PU_CNT_PTCE lo = .PU := rfl
@[simp] theorem blkR_PU_CNT_PTUE (lo : Nat) : blk .PU_CNT_PTUE lo = .PU := rfl
@[simp] theorem blkR_PU_GUSED (lo : Nat) : blk .PU_GUSED lo = .PU := rfl
@[simp] theorem blkR_PU_QCFG (lo : Nat) : blk .PU_QCFG lo = .PU := rfl
@[simp] theorem blkR_PU_QDEPTH (lo : Nat) : blk .PU_QDEPTH lo = .PU := rfl
@[simp] theorem blkR_PU_QDROP (lo : Nat) : blk .PU_QDROP lo = .PU := rfl
@[simp] theorem blkR_PU_QHEAD (lo : Nat) : blk .PU_QHEAD lo = .PU := rfl
@[simp] theorem blkR_PU_QPAGES (lo : Nat) : blk .PU_QPAGES lo = .PU := rfl
@[simp] theorem blkR_PU_QSTS (lo : Nat) : blk .PU_QSTS lo = .PU := rfl
@[simp] theorem blkR_PU_QTAIL (lo : Nat) : blk .PU_QTAIL lo = .PU := rfl
@[simp] theorem blkR_PU_STS (lo : Nat) : blk .PU_STS lo = .PU := rfl
@[simp] theorem blkR_PW_ACTSET (lo : Nat) : blk .PW_ACTSET lo = .HOST := rfl
@[simp] theorem blkR_PW_ETIM_CNT (lo : Nat) : blk .PW_ETIM_CNT lo = .PW := rfl
@[simp] theorem blkR_PW_ETIM_CTL (lo : Nat) : blk .PW_ETIM_CTL lo = .PW := rfl
@[simp] theorem blkR_PW_HELD (lo : Nat) : blk .PW_HELD lo = .PW := rfl
@[simp] theorem blkR_PW_HELD_CHI (lo : Nat) : blk .PW_HELD_CHI lo = .PW := rfl
@[simp] theorem blkR_PW_HELD_CLO (lo : Nat) : blk .PW_HELD_CLO lo = .PW := rfl
@[simp] theorem blkR_PW_HVOTE (lo : Nat) : blk .PW_HVOTE lo = .HOST := rfl
@[simp] theorem blkR_PW_LASTWAKE (lo : Nat) : blk .PW_LASTWAKE lo = .PW := rfl
@[simp] theorem blkR_PW_PADREL (lo : Nat) : blk .PW_PADREL lo = .PW := rfl
@[simp] theorem blkR_PW_STS (lo : Nat) : blk .PW_STS lo = .PW := rfl
@[simp] theorem blkR_PW_VB_HI (lo : Nat) : blk .PW_VB_HI lo = .PWV := rfl
@[simp] theorem blkR_PW_VB_LO (lo : Nat) : blk .PW_VB_LO lo = .PWV := rfl
@[simp] theorem blkR_SN_BSLOT (lo : Nat) : blk .SN_BSLOT lo = .SN := rfl
@[simp] theorem blkR_SN_CNT_EVT (lo : Nat) : blk .SN_CNT_EVT lo = .SN := rfl
@[simp] theorem blkR_SN_CNT_MERGED (lo : Nat) : blk .SN_CNT_MERGED lo = .SN := rfl
@[simp] theorem blkR_SN_CTL (lo : Nat) : blk .SN_CTL lo = .SN := rfl
@[simp] theorem blkR_SN_LAST (lo : Nat) : blk .SN_LAST lo = .SN := rfl
@[simp] theorem blkR_SN_TAG_FRAC (lo : Nat) : blk .SN_TAG_FRAC lo = .SN := rfl
@[simp] theorem blkR_SN_TAG_NS (lo : Nat) : blk .SN_TAG_NS lo = .SN := rfl
@[simp] theorem blkR_SN_TAG_S_HI (lo : Nat) : blk .SN_TAG_S_HI lo = .SN := rfl
@[simp] theorem blkR_SN_TAG_S_LO (lo : Nat) : blk .SN_TAG_S_LO lo = .SN := rfl
@[simp] theorem blkR_ST_LCMD (lo : Nat) : blk .ST_LCMD lo = .ST := rfl
@[simp] theorem blkR_ST_LCNT (lo : Nat) : blk .ST_LCNT lo = .ST := rfl
@[simp] theorem blkR_ST_LEXP (lo : Nat) : blk .ST_LEXP lo = .ST := rfl
@[simp] theorem blkR_ST_LSIG (lo : Nat) : blk .ST_LSIG lo = .ST := rfl
@[simp] theorem blkR_ST_LSTS (lo : Nat) : blk .ST_LSTS lo = .ST := rfl
@[simp] theorem blkR_ST_MFAIL_ADDR (lo : Nat) : blk .ST_MFAIL_ADDR lo = .ST := rfl
@[simp] theorem blkR_ST_MFAIL_BIT (lo : Nat) : blk .ST_MFAIL_BIT lo = .ST := rfl
@[simp] theorem blkR_ST_MFAIL_CNT (lo : Nat) : blk .ST_MFAIL_CNT lo = .ST := rfl
@[simp] theorem blkR_ST_MPROG (lo : Nat) : blk .ST_MPROG lo = .ST := rfl
@[simp] theorem blkR_ST_MREP_STS (lo : Nat) : blk .ST_MREP_STS lo = .ST := rfl
@[simp] theorem blkR_ST_MSKIP (lo : Nat) : blk .ST_MSKIP lo = .ST := rfl
@[simp] theorem blkR_ST_MSTS (lo : Nat) : blk .ST_MSTS lo = .ST := rfl
@[simp] theorem blkR_TB_ADJ (lo : Nat) : blk .TB_ADJ lo = .TB := rfl
@[simp] theorem blkR_TB_CAP_FRAC (lo : Nat) : blk .TB_CAP_FRAC lo = .TB := rfl
@[simp] theorem blkR_TB_CAP_FREE_HI (lo : Nat) : blk .TB_CAP_FREE_HI lo = .TB := rfl
@[simp] theorem blkR_TB_CAP_FREE_LO (lo : Nat) : blk .TB_CAP_FREE_LO lo = .TB := rfl
@[simp] theorem blkR_TB_CAP_NS (lo : Nat) : blk .TB_CAP_NS lo = .TB := rfl
@[simp] theorem blkR_TB_CAP_S_HI (lo : Nat) : blk .TB_CAP_S_HI lo = .TB := rfl
@[simp] theorem blkR_TB_CAP_S_LO (lo : Nat) : blk .TB_CAP_S_LO lo = .TB := rfl
@[simp] theorem blkR_TB_CTL (lo : Nat) : blk .TB_CTL lo = .TB := rfl
@[simp] theorem blkR_TB_SET_NS (lo : Nat) : blk .TB_SET_NS lo = .TB := rfl
@[simp] theorem blkR_TB_SET_S_HI (lo : Nat) : blk .TB_SET_S_HI lo = .TB := rfl
@[simp] theorem blkR_TB_SET_S_LO (lo : Nat) : blk .TB_SET_S_LO lo = .TB := rfl
@[simp] theorem blkR_TB_STEP_FRAC (lo : Nat) : blk .TB_STEP_FRAC lo = .TB := rfl
@[simp] theorem blkR_TB_STEP_NS (lo : Nat) : blk .TB_STEP_NS lo = .TB := rfl
@[simp] theorem blkR_TB_STS (lo : Nat) : blk .TB_STS lo = .TB := rfl
@[simp] theorem blkR_TG_CNT_ABORT (lo : Nat) : blk .TG_CNT_ABORT lo = .TG := rfl
@[simp] theorem blkR_TG_CNT_COMMIT (lo : Nat) : blk .TG_CNT_COMMIT lo = .TG := rfl
@[simp] theorem blkR_TG_RES (lo : Nat) : blk .TG_RES lo = .TG := rfl
@[simp] theorem blkR_TG_SLOT_CONF (lo : Nat) : blk .TG_SLOT_CONF lo = .TG := rfl
@[simp] theorem blkR_TG_SLOT_STS (lo : Nat) : blk .TG_SLOT_STS lo = .TG := rfl
@[simp] theorem blkR_TG_UL_CHAL (lo : Nat) : blk .TG_UL_CHAL lo = .TG := rfl
@[simp] theorem blkR_TG_UL_LEFT (lo : Nat) : blk .TG_UL_LEFT lo = .TG := rfl
@[simp] theorem blkR_TG_UL_STS (lo : Nat) : blk .TG_UL_STS lo = .TG := rfl
@[simp] theorem blkR_TSU_CNT_CORR (lo : Nat) : blk .TSU_CNT_CORR lo = .TSU := rfl
@[simp] theorem blkR_TSU_CNT_SAT (lo : Nat) : blk .TSU_CNT_SAT lo = .TSU := rfl
@[simp] theorem blkR_TSU_CNT_UNCORR (lo : Nat) : blk .TSU_CNT_UNCORR lo = .TSU := rfl
@[simp] theorem blkR_TSU_LAST_INFO (lo : Nat) : blk .TSU_LAST_INFO lo = .TSU := rfl
@[simp] theorem blkR_TSU_LAST_RES (lo : Nat) : blk .TSU_LAST_RES lo = .TSU := rfl
@[simp] theorem blkR_TSU_STS (lo : Nat) : blk .TSU_STS lo = .TSU := rfl
@[simp] theorem blkR_TS_CLS_STS (lo : Nat) : blk .TS_CLS_STS lo = .TS := rfl
@[simp] theorem blkR_TS_CTL (lo : Nat) : blk .TS_CTL lo = .TS := rfl
@[simp] theorem blkR_TS_HOLD_T (lo : Nat) : blk .TS_HOLD_T lo = .TS := rfl
@[simp] theorem blkR_TS_IE_CNT_DROP (lo : Nat) : blk .TS_IE_CNT_DROP lo = .TS := rfl
@[simp] theorem blkR_TS_IE_STS (lo : Nat) : blk .TS_IE_STS lo = .TS := rfl
@[simp] theorem blkR_TS_LREF_CTL (lo : Nat) : blk .TS_LREF_CTL lo = .TS := rfl
@[simp] theorem blkR_TS_LREF_FOFS (lo : Nat) : blk .TS_LREF_FOFS lo = .TS := rfl
@[simp] theorem blkR_TS_LREF_STAB (lo : Nat) : blk .TS_LREF_STAB lo = .TS := rfl
@[simp] theorem blkR_TS_LREF_STS (lo : Nat) : blk .TS_LREF_STS lo = .TS := rfl
@[simp] theorem blkR_TS_STS (lo : Nat) : blk .TS_STS lo = .TS := rfl
@[simp] theorem blkR_TS_SVC_STS (lo : Nat) : blk .TS_SVC_STS lo = .TS := rfl
@[simp] theorem blkR_TS_TE (lo : Nat) : blk .TS_TE lo = .TS := rfl
@[simp] theorem blkR_UD_EVENTS (lo : Nat) : blk .UD_EVENTS lo = .UD := rfl
@[simp] theorem blkR_UD_FAULT (lo : Nat) : blk .UD_FAULT lo = .UD := rfl
@[simp] theorem blkR_UD_IDENT (lo : Nat) : blk .UD_IDENT lo = .UD := rfl
@[simp] theorem blkR_UD_LINKS (lo : Nat) : blk .UD_LINKS lo = .UD := rfl
@[simp] theorem blkR_UD_SNAP (lo : Nat) : blk .UD_SNAP lo = .UD := rfl
@[simp] theorem blkR_UD_STATE (lo : Nat) : blk .UD_STATE lo = .UD := rfl
@[simp] theorem blkP_0 : blk .PW_DOM 0 = .PWS := rfl
@[simp] theorem blkP_2 : blk .PW_DOM 2 = .PWV := rfl
@[simp] theorem blkP_3 : blk .PW_DOM 3 = .PWV := rfl
@[simp] theorem blkP_4 : blk .PW_DOM 4 = .PWV := rfl
@[simp] theorem blkP_16 : blk .PW_DOM 16 = .PWV := rfl
@[simp] theorem blkP_24 : blk .PW_DOM 24 = .PWV := rfl
@[simp] theorem blk_proto (p : Proto) (lo : Nat) : blk (protoCfgReg p) lo = .CS := by cases p <;> rfl
@[simp] theorem kept_modLane (M : Blk → Bool) (d : Dev) (l : Nat) (g : LaneX → LaneX)  : (Dev.modLane d l g).kept M = d.kept M := by
  unfold Dev.modLane
  rfl

@[simp] theorem kept_modSeg (M : Blk → Bool) (d : Dev) (k : Nat) (g : SegX → SegX)  : (Dev.modSeg d k g).kept M = d.kept M := by
  unfold Dev.modSeg
  rfl

@[simp] theorem kept_modCourse (M : Blk → Bool) (d : Dev) (n : Nat) (g : CourseX → CourseX)  : (Dev.modCourse d n g).kept M = d.kept M := by
  unfold Dev.modCourse
  rfl

@[simp] theorem kept_modRef (M : Blk → Bool) (d : Dev) (r : Nat) (g : RefX → RefX)  : (Dev.modRef d r g).kept M = d.kept M := by
  unfold Dev.modRef
  rfl

@[simp] theorem kept_alert (M : Blk → Bool) (d : Dev) (b : Nat) (hMG : M .MG = true) : (Dev.alert d b).kept M = d.kept M := by
  unfold Dev.alert
  simp only [↓kept_wr0, blkR_MG_ALERT, hMG, ↓keptIte, ↓keptMk, ite_self]

@[simp] theorem kept_unitFault (M : Blk → Bool) (d : Dev) (id code : Nat) (hMG : M .MG = true) (hUD : M .UD = true) : (Dev.unitFault d id code).kept M = d.kept M := by
  unfold Dev.unitFault
  simp only [↓kept_wr, ↓kept_alert, ↓kept_wr0, blkR_UD_FAULT, blkR_MG_FAULT_ID, hMG, hUD, ↓keptIte, ite_self]

@[simp] theorem kept_publish (M : Blk → Bool) (d : Dev) (id ks health : Nat) (hUD : M .UD = true) : (Dev.publish d id ks health).kept M = d.kept M := by
  unfold Dev.publish
  simp only [↓kept_wrc, ↓kept_wr, ↓kept_bump, blkR_UD_STATE, blkR_UD_EVENTS, hUD, ↓keptIte, ite_self]

@[simp] theorem kept_draw (M : Blk → Bool) (d : Dev)  : (Dev.draw d).kept M = d.kept M := by
  unfold Dev.draw
  rfl

@[simp] theorem kept_latchSlot (M : Blk → Bool) (d : Dev) (slot src : Nat) (hSN : M .SN = true) (hUD : M .UD = true) : (Dev.latchSlot d slot src).kept M = d.kept M := by
  unfold Dev.latchSlot
  simp only [↓kept_wr, blkR_UD_SNAP, blkR_SN_BSLOT, hSN, hUD, ↓keptIte, ↓keptMk, ite_self]

@[simp] theorem kept_fireEvent (M : Blk → Bool) (d : Dev) (b : Nat) (hMG : M .MG = true) (hSN : M .SN = true) (hUD : M .UD = true) : (Dev.fireEvent d b).kept M = d.kept M := by
  unfold Dev.fireEvent
  simp only [↓kept_bump, ↓kept_wr0, ↓kept_alert, ↓kept_latchSlot, blkR_SN_CNT_EVT, blkR_SN_LAST, blkR_SN_TAG_S_LO, blkR_SN_TAG_S_HI, blkR_SN_TAG_NS, blkR_SN_TAG_FRAC, hMG, hSN, hUD, ↓keptIte, ↓keptEach, ↓keptMk, ite_self, implies_true]

@[simp] theorem kept_fire (M : Blk → Bool) (d : Dev) (src : Nat) (hMG : M .MG = true) (hSN : M .SN = true) (hUD : M .UD = true) : (Dev.fire d src).kept M = d.kept M := by
  unfold Dev.fire
  dsimp only; (repeat' split) <;> first | with_reducible rfl | (simp only [↓kept_wr0, ↓kept_wr, ↓kept_bump, ↓kept_fireEvent, blkR_SN_LAST, blkR_UD_SNAP, blkR_SN_BSLOT, blkR_SN_CNT_MERGED, hMG, hSN, hUD, ↓keptIte, ↓keptEach, ↓keptMk, ite_self, implies_true]; done)

@[simp] theorem kept_armSlot (M : Blk → Bool) (d : Dev) (slot : Nat) (hSN : M .SN = true) (hUD : M .UD = true) : (Dev.armSlot d slot).kept M = d.kept M := by
  unfold Dev.armSlot
  simp only [↓kept_wr, ↓kept_latchSlot, blkR_UD_SNAP, blkR_SN_BSLOT, hSN, hUD, ↓keptIte, ite_self]

@[simp] theorem kept_modDom (M : Blk → Bool) (d : Dev) (row : Nat) (g : DomX → DomX)  : (Dev.modDom d row g).kept M = d.kept M := by
  unfold Dev.modDom
  rfl

@[simp] theorem kept_modPw (M : Blk → Bool) (d : Dev) (g : PwX → PwX)  : (Dev.modPw d g).kept M = d.kept M := by
  unfold Dev.modPw
  rfl

@[simp] theorem kept_domStart (M : Blk → Bool) (d : Dev) (row : Nat) (ph : DomPhase) (off : Bool) (hPWV : M .PWV = true) : (Dev.domStart d row ph off).kept M = d.kept M := by
  unfold Dev.domStart
  simp only [↓kept_modDom, ↓kept_wr, blkP_2, hPWV]

@[simp] theorem kept_domEval (M : Blk → Bool) (d : Dev) (row : Nat) (hPWV : M .PWV = true) : (Dev.domEval d row).kept M = d.kept M := by
  unfold Dev.domEval
  dsimp only; (repeat' split) <;> first | with_reducible rfl | (simp only [↓kept_modDom, ↓kept_wr, ↓kept_domStart, blkP_2, hPWV]; done)

@[simp] theorem kept_vote (M : Blk → Bool) (d : Dev) (col row : Nat) (on : Bool) (hPWV : M .PWV = true) : (Dev.vote d col row on).kept M = d.kept M := by
  unfold Dev.vote
  simp only [↓kept_wr, ↓kept_domEval, blkR_PW_VB_LO, blkR_PW_VB_HI, hPWV, ↓keptIte, ↓keptEach, ite_self, implies_true]

@[simp] theorem kept_setTrims (M : Blk → Bool) (d : Dev) (kind target param : Nat) (ws : List Nat)  : (Dev.setTrims d kind target param ws).kept M = d.kept M := by
  unfold Dev.setTrims
  rfl

@[simp] theorem kept_setRes (M : Blk → Bool) (d : Dev) (ws : List Nat) (hCL : M .CL = true) : (Dev.setRes d ws).kept M = d.kept M := by
  unfold Dev.setRes
  simp only [↓kept_wr, blkR_CL_RES, hCL, ↓keptEach, implies_true]

@[simp] theorem kept_calApply (M : Blk → Bool) (d : Dev) (kind target param : Nat) (ws : List Nat)  : (Dev.calApply d kind target param ws).kept M = d.kept M := by
  unfold Dev.calApply
  simp only [↓kept_setTrims, ↓keptIte, ite_self]

@[simp] theorem kept_calEnd (M : Blk → Bool) (d : Dev) (code : Nat) (hMG : M .MG = true) (hPWV : M .PWV = true) (hCL : M .CL = true) : (Dev.calEnd d code).kept M = d.kept M := by
  unfold Dev.calEnd
  simp only [↓kept_calApply, ↓kept_setRes, ↓kept_wr0, ↓kept_alert, ↓kept_vote, blkR_CL_STS, hMG, hPWV, hCL, ↓keptIte, ↓keptMk, ite_self]

@[simp] theorem kept_courseLaneStatus (M : Blk → Bool) (d : Dev) (n : Nat) (hCS : M .CS = true) : (Dev.courseLaneStatus d n).kept M = d.kept M := by
  unfold Dev.courseLaneStatus
  simp only [↓kept_wrc, ↓kept_modCourse, blkR_CS_STS, hCS, ↓keptIte, ite_self]

@[simp] theorem kept_laneRefresh (M : Blk → Bool) (d : Dev) (tp : Nat) (hUD : M .UD = true) (hCS : M .CS = true) : (Dev.laneRefresh d tp).kept M = d.kept M := by
  unfold Dev.laneRefresh
  dsimp only; (repeat' split) <;> first | with_reducible rfl | (simp only [↓kept_publish, ↓kept_courseLaneStatus, hUD, hCS]; done)

@[simp] theorem kept_adaptHold (M : Blk → Bool) (d : Dev) (l : Nat) (hLN : M .LN = true) : (Dev.adaptHold d l).kept M = d.kept M := by
  unfold Dev.adaptHold
  extract_lets taps d1
  have h1 : d1.kept M = d.kept M := by
    refine (keptFoldlMem M _ _ (fun e p hp => kept_wr M e p.1 p.2 _ ?_) _).trans (kept_wr M d _ l _ hLN)
    simp only [taps, List.mem_flatMap, List.mem_map] at hp
    obtain ⟨j, _, f, hf, rfl⟩ := hp
    rw [fields_reg .LN_RX_DFE f hf]; exact hLN
  clear_value d1
  rw [keptIte]; split
  · rfl
  · rw [keptIte]; split
    · simp only [↓kept_modLane]; exact h1
    · exact h1

@[simp] theorem kept_setKs (M : Blk → Bool) (d : Dev) (l ks : Nat) (hUD : M .UD = true) (hLN : M .LN = true) (hCS : M .CS = true) : (Dev.setKs d l ks).kept M = d.kept M := by
  unfold Dev.setKs
  simp only [↓kept_adaptHold, ↓kept_wr, ↓kept_laneRefresh, blkR_LN_STS, hUD, hLN, hCS, ↓keptIte, ite_self]

@[simp] theorem kept_laneFault (M : Blk → Bool) (d : Dev) (tp code : Nat) (hMG : M .MG = true) (hUD : M .UD = true) : (Dev.laneFault d tp code).kept M = d.kept M := by
  unfold Dev.laneFault
  simp only [↓kept_unitFault, hMG, hUD]

@[simp] theorem kept_setTxIdle (M : Blk → Bool) (d : Dev) (l : Nat) (b : Bool)  : (Dev.setTxIdle d l b).kept M = d.kept M := by
  unfold Dev.setTxIdle
  simp only [↓kept_modLane, ↓keptIte, ite_self]

@[simp] theorem kept_setOnFs (M : Blk → Bool) (d : Dev) (l : Nat) (b : Bool) (hLN : M .LN = true) (hTSU : M .TSU = true) : (Dev.setOnFs d l b).kept M = d.kept M := by
  unfold Dev.setOnFs
  simp only [↓kept_wrc, ↓kept_modLane, blkR_LN_STS, blkR_TSU_STS, hLN, hTSU, ↓keptIte, ite_self]

@[simp] theorem kept_onSlice (M : Blk → Bool) (d : Dev) (l : Nat) (hLN : M .LN = true) (hTSU : M .TSU = true) : (Dev.onSlice d l).kept M = d.kept M := by
  unfold Dev.onSlice
  simp only [↓kept_setOnFs, ↓kept_bump, ↓kept_modLane, ↓kept_draw, blkR_LN_CNT_RESCUE, hLN, hTSU]

@[simp] theorem kept_fsSet (M : Blk → Bool) (d : Dev) (fs owner : Nat) (shadow carry : Bool) (pad : Nat) (hLNF : M .LNF = true) : (Dev.fsSet d fs owner shadow carry pad).kept M = d.kept M := by
  unfold Dev.fsSet
  simp only [↓kept_wrc, blkR_LN_FS_STS, hLNF]

@[simp] theorem kept_fsRelease (M : Blk → Bool) (d : Dev) (fs : Nat) (hLNF : M .LNF = true) : (Dev.fsRelease d fs).kept M = d.kept M := by
  unfold Dev.fsRelease
  simp only [↓kept_fsSet, hLNF]

@[simp] theorem kept_marginStop (M : Blk → Bool) (d : Dev) (l : Nat) (release : Bool) (hLNF : M .LNF = true) (hCS : M .CS = true) : (Dev.marginStop d l release).kept M = d.kept M := by
  unfold Dev.marginStop
  dsimp only; (repeat' split) <;> first | with_reducible rfl | (simp only [↓kept_modLane, ↓kept_fsRelease, ↓kept_wrc, blkR_CS_PCI_MRG, hLNF, hCS]; done)

theorem kept_fsClaim (M : Blk → Bool) (d : Dev) (l : Nat) (hMG : M .MG = true) (hPWV : M .PWV = true) (hCL : M .CL = true) (hLNF : M .LNF = true) (hCS : M .CS = true) (d' : Dev) (e : Dev.fsClaim d l = some d') : d'.kept M = d.kept M := by
  unfold Dev.fsClaim at e; dsimp only at e
  (repeat' split at e) <;> cases e <;> simp only [↓kept_calEnd, ↓kept_fsSet, ↓kept_marginStop, hMG, hPWV, hCL, hLNF, hCS]

@[simp] theorem kept_calAbortNow (M : Blk → Bool) (d : Dev) (l : Nat) (hMG : M .MG = true) (hPWV : M .PWV = true) (hCL : M .CL = true) (hLNF : M .LNF = true) : (Dev.calAbortNow d l).kept M = d.kept M := by
  unfold Dev.calAbortNow
  simp only [↓kept_modLane, ↓kept_fsRelease, ↓kept_calEnd, hMG, hPWV, hCL, hLNF, ↓keptIte, ite_self]

@[simp] theorem kept_calPreempt (M : Blk → Bool) (d : Dev) (l : Nat) (hMG : M .MG = true) (hPWV : M .PWV = true) (hCL : M .CL = true) (hLNF : M .LNF = true) : (Dev.calPreempt d l).kept M = d.kept M := by
  unfold Dev.calPreempt
  simp only [↓kept_modLane, ↓kept_calAbortNow, hMG, hPWV, hCL, hLNF, ↓keptIte, ↓keptMk, ite_self]

@[simp] theorem kept_toPrimary (M : Blk → Bool) (d : Dev) (l : Nat) (hMG : M .MG = true) (hPWV : M .PWV = true) (hCL : M .CL = true) (hLN : M .LN = true) (hLNF : M .LNF = true) (hTSU : M .TSU = true) : (Dev.toPrimary d l).kept M = d.kept M := by
  unfold Dev.toPrimary
  simp only [↓kept_calAbortNow, ↓kept_fsRelease, ↓kept_setOnFs, hMG, hPWV, hCL, hLN, hLNF, hTSU, ↓keptIte, ite_self]

@[simp] theorem kept_stopSeq (M : Blk → Bool) (d : Dev) (l : Nat) (hMG : M .MG = true) (hPWV : M .PWV = true) (hCL : M .CL = true) (hLN : M .LN = true) (hLNF : M .LNF = true) (hTSU : M .TSU = true) : (Dev.stopSeq d l).kept M = d.kept M := by
  unfold Dev.stopSeq
  simp only [↓kept_modLane, ↓kept_toPrimary, hMG, hPWV, hCL, hLN, hLNF, hTSU]

@[simp] theorem kept_ptVote (M : Blk → Bool) (d : Dev) (bay : Nat) (hPWV : M .PWV = true) : (Dev.ptVote d bay).kept M = d.kept M := by
  unfold Dev.ptVote
  simp only [↓kept_vote, hPWV]

@[simp] theorem kept_ptEnd (M : Blk → Bool) (d : Dev) (l result : Nat) (hMG : M .MG = true) (hPWV : M .PWV = true) (hUD : M .UD = true) (hLN : M .LN = true) (hLNT : M .LNT = true) (hCS : M .CS = true) : (Dev.ptEnd d l result).kept M = d.kept M := by
  unfold Dev.ptEnd
  simp only [↓kept_wr, ↓kept_alert, ↓kept_modLane, ↓kept_setKs, ↓kept_ptVote, blkR_LN_PT_STS, hMG, hPWV, hUD, hLN, hLNT, hCS, ↓keptIte, ite_self]

@[simp] theorem kept_ptAbort (M : Blk → Bool) (d : Dev) (l : Nat) (hMG : M .MG = true) (hPWV : M .PWV = true) (hUD : M .UD = true) (hLN : M .LN = true) (hLNT : M .LNT = true) (hCS : M .CS = true) : (Dev.ptAbort d l).kept M = d.kept M := by
  unfold Dev.ptAbort
  simp only [↓kept_ptEnd, hMG, hPWV, hUD, hLN, hLNT, hCS, ↓keptIte, ite_self]

@[simp] theorem kept_squelch (M : Blk → Bool) (d : Dev) (l : Nat) (hMG : M .MG = true) (hPWV : M .PWV = true) (hCL : M .CL = true) (hUD : M .UD = true) (hLN : M .LN = true) (hLNF : M .LNF = true) (hCS : M .CS = true) (hTSU : M .TSU = true) : (Dev.squelch d l).kept M = d.kept M := by
  unfold Dev.squelch
  simp only [↓kept_modLane, ↓kept_toPrimary, ↓kept_setTxIdle, ↓kept_setKs, ↓kept_laneFault, hMG, hPWV, hCL, hUD, hLN, hLNF, hCS, hTSU, ↓keptIte, ite_self]

@[simp] theorem kept_setTaps (M : Blk → Bool) (d : Dev) (l : Nat) (t : Taps) (hLN : M .LN = true) : (Dev.setTaps d l t).kept M = d.kept M := by
  unfold Dev.setTaps
  simp only [↓kept_putWord, blkR_LN_TX_FFE, hLN, implies_true]

@[simp] theorem kept_pllRefresh (M : Blk → Bool) (d : Dev) (p : Nat) (hLNP : M .LNP = true) : (Dev.pllRefresh d p).kept M = d.kept M := by
  unfold Dev.pllRefresh
  simp only [↓kept_wrc, blkR_LN_PLL_STS, hLNP]

@[simp] theorem kept_retune (M : Blk → Bool) (d : Dev) (p fam ref : Nat) (hLNP : M .LNP = true) : (Dev.retune d p fam ref).kept M = d.kept M := by
  unfold Dev.retune
  simp only [↓kept_wrc, ↓kept_pllRefresh, blkR_LN_PLL_CTL, blkR_LN_PLL_STS, hLNP, ↓keptIte, ite_self]

@[simp] theorem kept_bayTakes (M : Blk → Bool) (d : Dev) (n bay fam : Nat) (hLNP : M .LNP = true) : (Dev.bayTakes d n bay fam).kept M = d.kept M := by
  unfold Dev.bayTakes
  (repeat' split) <;> first | with_reducible rfl | (simp only [↓kept_retune, hLNP]; done)

@[simp] theorem kept_laneToPll (M : Blk → Bool) (d : Dev) (n l rate : Nat) (hLN : M .LN = true) (hLNP : M .LNP = true) : (Dev.laneToPll d n l rate).kept M = d.kept M := by
  unfold Dev.laneToPll
  dsimp only; (repeat' split) <;> first | with_reducible rfl | (simp only [↓kept_bayTakes, ↓kept_wrc, blkR_LN_STS, hLN, hLNP]; done)

@[simp] theorem kept_rxToRate (M : Blk → Bool) (d : Dev) (n l rate : Nat) (hLN : M .LN = true) (hLNP : M .LNP = true) : (Dev.rxToRate d n l rate).kept M = d.kept M := by
  unfold Dev.rxToRate
  simp only [↓kept_laneToPll, ↓kept_wrc, ↓kept_modLane, blkR_LN_RX_EQ, hLN, hLNP]

@[simp] theorem kept_laneToRate (M : Blk → Bool) (d : Dev) (n l rate : Nat) (hLN : M .LN = true) (hLNP : M .LNP = true) : (Dev.laneToRate d n l rate).kept M = d.kept M := by
  unfold Dev.laneToRate
  simp only [↓kept_rxToRate, ↓kept_modLane, hLN, hLNP]

@[simp] theorem kept_calCheck (M : Blk → Bool) (d : Dev) (hMG : M .MG = true) (hPWV : M .PWV = true) (hCL : M .CL = true) : (Dev.calCheck d).kept M = d.kept M := by
  unfold Dev.calCheck
  simp only [↓kept_calEnd, hMG, hPWV, hCL, ↓keptIte, ite_self]

@[simp] theorem kept_shellRaise (M : Blk → Bool) (d : Dev) (n : Nat)  : (Dev.shellRaise d n).kept M = d.kept M := by
  unfold Dev.shellRaise
  simp only [↓kept_modPw, ↓keptEach, implies_true]

@[simp] theorem kept_shellRelease (M : Blk → Bool) (d : Dev) (bay : Nat) (hPWV : M .PWV = true) : (Dev.shellRelease d bay).kept M = d.kept M := by
  unfold Dev.shellRelease
  simp only [↓kept_wrc, ↓kept_modPw, blkP_4, hPWV, ↓keptIte, ite_self]

@[simp] theorem kept_refuseRef (M : Blk → Bool) (d : Dev) (n rate : Nat) (hMG : M .MG = true) (hUD : M .UD = true) (hLNP : M .LNP = true) : (Dev.refuseRef d n rate).kept M = d.kept M := by
  unfold Dev.refuseRef
  simp only [↓kept_laneFault, ↓kept_wr, blkR_LN_PLL_STS, hMG, hUD, hLNP, ↓keptEach, implies_true]

@[simp] theorem kept_setSeg (M : Blk → Bool) (d : Dev) (n : Nat) (s : Side) (v : Nat) (hCS : M .CS = true) : (Dev.setSeg d n s v).kept M = d.kept M := by
  unfold Dev.setSeg
  simp only [↓kept_wrc, blkF_segFld, hCS]

@[simp] theorem kept_setSegs (M : Blk → Bool) (d : Dev) (n v : Nat) (hCS : M .CS = true) : (Dev.setSegs d n v).kept M = d.kept M := by
  unfold Dev.setSegs
  simp only [↓kept_setSeg, hCS]

@[simp] theorem kept_modSegs (M : Blk → Bool) (d : Dev) (n : Nat) (g : SegX → SegX)  : (Dev.modSegs d n g).kept M = d.kept M := by
  unfold Dev.modSegs
  simp only [↓kept_modSeg]

@[simp] theorem kept_setCourse (M : Blk → Bool) (d : Dev) (n ks : Nat) (hMG : M .MG = true) (hPWV : M .PWV = true) (hUD : M .UD = true) (hLN : M .LN = true) (hLNT : M .LNT = true) (hCS : M .CS = true) : (Dev.setCourse d n ks).kept M = d.kept M := by
  unfold Dev.setCourse
  simp only [↓kept_ptAbort, ↓kept_wr, ↓kept_publish, ↓kept_courseLaneStatus, blkR_CS_STS, blkR_CS_TCHG_S, blkR_CS_TCHG_NS, hMG, hPWV, hUD, hLN, hLNT, hCS, ↓keptIte, ↓keptEach, ite_self, implies_true]

@[simp] theorem kept_courseFault (M : Blk → Bool) (d : Dev) (n code : Nat) (hMG : M .MG = true) (hUD : M .UD = true) (hCS : M .CS = true) : (Dev.courseFault d n code).kept M = d.kept M := by
  unfold Dev.courseFault
  simp only [↓kept_wr, ↓kept_unitFault, blkR_CS_STS, hMG, hUD, hCS]

@[simp] theorem kept_courseTxIdle (M : Blk → Bool) (d : Dev) (n : Nat) (b : Bool)  : (Dev.courseTxIdle d n b).kept M = d.kept M := by
  unfold Dev.courseTxIdle
  simp only [↓kept_setTxIdle, ↓keptEach, implies_true]

@[simp] theorem kept_sideTxIdle (M : Blk → Bool) (d : Dev) (n : Nat) (s : Side) (b : Bool)  : (Dev.sideTxIdle d n s b).kept M = d.kept M := by
  unfold Dev.sideTxIdle
  simp only [↓kept_setTxIdle, ↓keptEach, implies_true]

@[simp] theorem kept_courseVotes (M : Blk → Bool) (d : Dev) (n : Nat) (hPWV : M .PWV = true) : (Dev.courseVotes d n).kept M = d.kept M := by
  unfold Dev.courseVotes
  simp only [↓kept_vote, hPWV, ↓keptIte, ↓keptEach, ite_self, implies_true]

@[simp] theorem kept_pciClear (M : Blk → Bool) (d : Dev) (n : Nat) (hLNF : M .LNF = true) (hCS : M .CS = true) : (Dev.pciClear d n).kept M = d.kept M := by
  unfold Dev.pciClear; dsimp only; split
  · rw [keptEach, keptEach]
    · intro l d; simp only [↓kept_marginStop, hLNF, hCS]
    · intro lo d; split
      · rename_i f hf
        exact kept_wrc M d f n 0 (by rw [fields_reg .CS_PCI_STS f (List.mem_of_find?_eq_some hf)]; exact hCS)
      · rfl
  · rfl

@[simp] theorem kept_enterDisabled (M : Blk → Bool) (d : Dev) (n : Nat) (hMG : M .MG = true) (hPWV : M .PWV = true) (hCL : M .CL = true) (hUD : M .UD = true) (hLN : M .LN = true) (hLNF : M .LNF = true) (hLNT : M .LNT = true) (hCS : M .CS = true) (hTSU : M .TSU = true) : (Dev.enterDisabled d n).kept M = d.kept M := by
  unfold Dev.enterDisabled
  simp only [↓kept_marginStop, ↓kept_stopSeq, ↓kept_setKs, ↓kept_courseTxIdle, ↓kept_wrc, ↓kept_setSegs, ↓kept_modSegs, ↓kept_modCourse, ↓kept_setCourse, ↓kept_shellRelease, ↓kept_courseVotes, blkR_CS_STS, hMG, hPWV, hCL, hUD, hLN, hLNF, hLNT, hCS, hTSU, ↓keptEach, implies_true]

@[simp] theorem kept_pcieTaps (M : Blk → Bool) (d : Dev) (l : Nat) (hLN : M .LN = true) : (Dev.pcieTaps d l).kept M = d.kept M := by
  unfold Dev.pcieTaps
  simp only [↓kept_setTaps, hLN, ↓keptIte, ite_self]

@[simp] theorem kept_laneAcquire (M : Blk → Bool) (d : Dev) (n l : Nat) (hMG : M .MG = true) (hUD : M .UD = true) (hLN : M .LN = true) (hCS : M .CS = true) : (Dev.laneAcquire d n l).kept M = d.kept M := by
  unfold Dev.laneAcquire
  dsimp only; (repeat' split) <;> first | with_reducible rfl | (simp only [↓kept_wrc, ↓kept_pcieTaps, ↓kept_setKs, ↓kept_laneFault, blkR_LN_STS, hMG, hUD, hLN, hCS]; done)

@[simp] theorem kept_enterDetect (M : Blk → Bool) (d : Dev) (n : Nat) (hMG : M .MG = true) (hPWV : M .PWV = true) (hCL : M .CL = true) (hUD : M .UD = true) (hLN : M .LN = true) (hLNF : M .LNF = true) (hLNT : M .LNT = true) (hCS : M .CS = true) (hTSU : M .TSU = true) : (Dev.enterDetect d n).kept M = d.kept M := by
  unfold Dev.enterDetect
  simp only [↓kept_pciClear, ↓kept_ptAbort, ↓kept_stopSeq, ↓kept_setKs, ↓kept_laneAcquire, ↓kept_setSegs, ↓kept_modSegs, ↓kept_modCourse, ↓kept_wrc, ↓kept_setCourse, ↓kept_courseVotes, blkR_CS_ETH_RES, hMG, hPWV, hCL, hUD, hLN, hLNF, hLNT, hCS, hTSU, ↓keptIte, ↓keptEach, ite_self, implies_true]

@[simp] theorem kept_spanDetect (M : Blk → Bool) (d : Dev) (n : Nat) (hMG : M .MG = true) (hPWV : M .PWV = true) (hCL : M .CL = true) (hUD : M .UD = true) (hLN : M .LN = true) (hLNF : M .LNF = true) (hLNT : M .LNT = true) (hCS : M .CS = true) (hTSU : M .TSU = true) : (Dev.spanDetect d n).kept M = d.kept M := by
  unfold Dev.spanDetect
  simp only [↓kept_enterDisabled, ↓kept_enterDetect, hMG, hPWV, hCL, hUD, hLN, hLNF, hLNT, hCS, hTSU, ↓keptIte, ↓keptEach, ite_self, implies_true]

@[simp] theorem kept_backoffStep (M : Blk → Bool) (d : Dev) (n : Nat)  : (Dev.backoffStep d n).kept M = d.kept M := by
  unfold Dev.backoffStep
  simp only [↓kept_courseTxIdle, ↓kept_modCourse, ↓keptIte, ite_self]

@[simp] theorem kept_segNegotiate (M : Blk → Bool) (d : Dev) (n : Nat) (s : Side) (hCS : M .CS = true) : (Dev.segNegotiate d n s).kept M = d.kept M := by
  unfold Dev.segNegotiate; dsimp only
  (repeat' split) <;> simp only [↓kept_setSeg, ↓kept_modSeg, ↓kept_wrc, blkR_CS_ETH_PG_HI, blkR_CS_ETH_RES, hCS]

@[simp] theorem kept_forwardIdle (M : Blk → Bool) (d : Dev) (n : Nat) (s : Side) (idle : Bool)  : (Dev.forwardIdle d n s idle).kept M = d.kept M := by
  unfold Dev.forwardIdle
  (repeat' split) <;> first | with_reducible rfl | (simp only [↓kept_setTxIdle]; done)

@[simp] theorem kept_enterNegotiate (M : Blk → Bool) (d : Dev) (n : Nat) (hMG : M .MG = true) (hPWV : M .PWV = true) (hUD : M .UD = true) (hLN : M .LN = true) (hLNP : M .LNP = true) (hLNT : M .LNT = true) (hCS : M .CS = true) : (Dev.enterNegotiate d n).kept M = d.kept M := by
  unfold Dev.enterNegotiate; dsimp only
  (repeat' split) <;> simp only [↓kept_segNegotiate, ↓kept_courseTxIdle, ↓kept_forwardIdle, ↓kept_bump, ↓kept_laneToRate, ↓kept_setCourse, blkR_CS_ETH_CNT_AN, hMG, hPWV, hUD, hLN, hLNP, hLNT, hCS, ↓keptEach, implies_true]

@[simp] theorem kept_trClear (M : Blk → Bool) (d : Dev) (k : Nat) (hCS : M .CS = true) : (Dev.trClear d k).kept M = d.kept M := by
  exact keptFoldlMem M _ _ (fun d f hf => kept_wrc M d f k 0 (by rw [fields_reg .CS_ETH_TR f hf]; exact hCS)) d

@[simp] theorem kept_pciIdleState (M : Blk → Bool) (d : Dev) (n : Nat) (hCS : M .CS = true) : (Dev.pciIdleState d n).kept M = d.kept M := by
  unfold Dev.pciIdleState
  simp only [↓kept_wrc, blkF_ltssmFld, hCS, ↓keptIte, ite_self]

@[simp] theorem kept_laneIdleShown (M : Blk → Bool) (d : Dev) (l : Nat) (hCS : M .CS = true) : (Dev.laneIdleShown d l).kept M = d.kept M := by
  unfold Dev.laneIdleShown
  (repeat' split) <;> first | with_reducible rfl | (simp only [↓kept_pciIdleState, hCS]; done)

@[simp] theorem kept_segTrain (M : Blk → Bool) (d : Dev) (n : Nat) (s : Side) (hCS : M .CS = true) : (Dev.segTrain d n s).kept M = d.kept M := by
  unfold Dev.segTrain
  simp only [↓kept_trClear, ↓kept_setSeg, ↓kept_modSeg, hCS, ↓keptIte, ite_self]

@[simp] theorem kept_enterTrain (M : Blk → Bool) (d : Dev) (n : Nat) (hMG : M .MG = true) (hPWV : M .PWV = true) (hUD : M .UD = true) (hLN : M .LN = true) (hLNP : M .LNP = true) (hLNT : M .LNT = true) (hCS : M .CS = true) : (Dev.enterTrain d n).kept M = d.kept M := by
  unfold Dev.enterTrain
  simp only [↓kept_segTrain, ↓kept_wrc, ↓kept_laneToRate, ↓kept_modLane, ↓kept_shellRelease, ↓kept_courseTxIdle, ↓kept_setCourse, blkR_LN_STS, hMG, hPWV, hUD, hLN, hLNP, hLNT, hCS, ↓keptIte, ↓keptEach, ite_self, implies_true]

@[simp] theorem kept_leaveService (M : Blk → Bool) (d : Dev) (n : Nat) (hMG : M .MG = true) (hPWV : M .PWV = true) (hCL : M .CL = true) (hUD : M .UD = true) (hLN : M .LN = true) (hLNF : M .LNF = true) (hCS : M .CS = true) (hTSU : M .TSU = true) : (Dev.leaveService d n).kept M = d.kept M := by
  unfold Dev.leaveService
  simp only [↓kept_marginStop, ↓kept_stopSeq, ↓kept_setKs, ↓kept_modCourse, hMG, hPWV, hCL, hUD, hLN, hLNF, hCS, hTSU, ↓keptIte, ↓keptEach, ite_self, implies_true]

@[simp] theorem kept_writeLat (M : Blk → Bool) (d : Dev) (n : Nat) (lat : Option (BitVec 24 × BitVec 24)) (hCS : M .CS = true) : (Dev.writeLat d n lat).kept M = d.kept M := by
  unfold Dev.writeLat
  simp only [↓kept_draw, ↓kept_wr, ↓kept_wrc, blkR_CS_LAT, hCS, ↓keptIte, ite_self]

@[simp] theorem kept_enterRun (M : Blk → Bool) (d : Dev) (n : Nat) (lat : Option (BitVec 24 × BitVec 24)) (hMG : M .MG = true) (hPWV : M .PWV = true) (hUD : M .UD = true) (hLN : M .LN = true) (hLNT : M .LNT = true) (hCS : M .CS = true) : (Dev.enterRun d n lat).kept M = d.kept M := by
  unfold Dev.enterRun
  simp only [↓kept_wrc, ↓kept_writeLat, ↓kept_setTxIdle, ↓kept_setKs, ↓kept_setSegs, ↓kept_modSegs, ↓kept_modCourse, ↓kept_setCourse, blkR_CS_STS, blkR_LN_STS, hMG, hPWV, hUD, hLN, hLNT, hCS, ↓keptIte, ↓keptEach, ite_self, implies_true]

@[simp] theorem kept_segLost (M : Blk → Bool) (d : Dev) (n : Nat) (s : Side) (partner : Bool) (hCS : M .CS = true) : (Dev.segLost d n s partner).kept M = d.kept M := by
  unfold Dev.segLost
  simp only [↓kept_wrc, ↓kept_segNegotiate, ↓kept_sideTxIdle, ↓kept_setSeg, ↓kept_modSeg, ↓kept_modCourse, blkR_CS_ETH_TR, hCS, ↓keptIte, ite_self]

@[simp] theorem kept_segReady (M : Blk → Bool) (d : Dev) (n : Nat) (s : Side) (hCS : M .CS = true) : (Dev.segReady d n s).kept M = d.kept M := by
  unfold Dev.segReady
  simp only [↓kept_setSeg, ↓kept_modSeg, hCS, ↓keptIte, ite_self]

@[simp] theorem kept_segsReady (M : Blk → Bool) (d : Dev) (n : Nat) (hCS : M .CS = true) : (Dev.segsReady d n).kept M = d.kept M := by
  unfold Dev.segsReady
  simp only [↓kept_segReady, hCS]

@[simp] theorem kept_receiverReady (M : Blk → Bool) (d : Dev) (n : Nat) (hCS : M .CS = true) : (Dev.receiverReady d n).kept M = d.kept M := by
  unfold Dev.receiverReady
  simp only [↓kept_wr, ↓kept_modSegs, blkR_CS_ETH_TR, hCS, ↓keptIte, ite_self]

@[simp] theorem kept_skewFault (M : Blk → Bool) (d : Dev) (n : Nat) (s : Side) (hMG : M .MG = true) (hUD : M .UD = true) : (Dev.skewFault d n s).kept M = d.kept M := by
  unfold Dev.skewFault
  simp only [↓kept_laneFault, hMG, hUD, ↓keptIte, ite_self]

@[simp] theorem kept_noPll (M : Blk → Bool) (d : Dev) (n : Nat) (hMG : M .MG = true) (hUD : M .UD = true) : (Dev.noPll d n).kept M = d.kept M := by
  unfold Dev.noPll
  simp only [↓kept_laneFault, hMG, hUD, ↓keptEach, implies_true]

@[simp] theorem kept_resolve (M : Blk → Bool) (d : Dev) (n : Nat) (hMG : M .MG = true) (hPWV : M .PWV = true) (hCL : M .CL = true) (hUD : M .UD = true) (hLN : M .LN = true) (hLNF : M .LNF = true) (hLNP : M .LNP = true) (hLNT : M .LNT = true) (hCS : M .CS = true) (hTSU : M .TSU = true) : (Dev.resolve d n).kept M = d.kept M := by
  unfold Dev.resolve
  dsimp only; (repeat' split) <;> first | with_reducible rfl | (simp only [↓kept_wrc, ↓kept_wr, ↓kept_bump, ↓kept_enterTrain, ↓kept_courseFault, ↓kept_noPll, ↓kept_refuseRef, ↓kept_backoffStep, ↓kept_enterDetect, blkR_CS_ETH_CFG, blkR_CS_RATE, blkR_CS_CPRI_CNT_RATE, hMG, hPWV, hCL, hUD, hLN, hLNF, hLNP, hLNT, hCS, hTSU]; done)

theorem kept_whenShell (M : Blk → Bool) (d : Dev) (n rate : Nat) (r : Option (Dev × CourseEv))  (hr : ∀ a b, r = some (a, b) → a.kept M = d.kept M) (d' : Dev) (e' : CourseEv) (e : Dev.whenShell d n rate r = some (d', e')) : d'.kept M = d.kept M := by
  unfold Dev.whenShell at e; dsimp only at e
  (repeat' split at e) <;> first | exact hr _ _ e | (cases e <;> simp only [↓kept_shellRaise])

theorem kept_courseRow (M : Blk → Bool) (d : Dev) (n : Nat) (e : CourseEv) (hMG : M .MG = true) (hPWV : M .PWV = true) (hCL : M .CL = true) (hUD : M .UD = true) (hLN : M .LN = true) (hLNF : M .LNF = true) (hLNP : M .LNP = true) (hLNT : M .LNT = true) (hCS : M .CS = true) (hTSU : M .TSU = true) (d' : Dev) (e' : CourseEv) (e0 : Dev.courseRow d n e = some (d', e')) : d'.kept M = d.kept M := by
  unfold Dev.courseRow at e0; dsimp only at e0; revert e0
  (repeat' with_reducible refine optIte' ?_ ?_) <;> intro e0 <;> first
    | (have e1 := congrArg Prod.fst (Option.some.inj e0); dsimp only at e1; subst e1; simp only [↓kept_enterDisabled, ↓kept_spanDetect, ↓kept_courseFault, ↓kept_setCourse, ↓kept_enterDetect, ↓kept_enterNegotiate, ↓kept_enterTrain, ↓kept_refuseRef, ↓kept_backoffStep, ↓kept_courseTxIdle, ↓kept_enterRun, ↓kept_skewFault, ↓kept_bump, ↓kept_leaveService, ↓kept_writeLat, blkR_CS_CNT_TRAIN, blkR_CS_CNT_DEG, hMG, hPWV, hCL, hUD, hLN, hLNF, hLNP, hLNT, hCS, hTSU, ↓keptIte, ite_self]; done)
    | (with_reducible refine kept_whenShell M d n _ _  (fun a b ab => ?_) d' e' e0; have e1 := congrArg Prod.fst (Option.some.inj ab); dsimp only at e1; subst e1; simp only [↓kept_enterNegotiate, ↓kept_enterTrain, ↓kept_resolve, hMG, hPWV, hCL, hUD, hLN, hLNF, hLNP, hLNT, hCS, hTSU])
    | (exact absurd e0 (by simp only [reduceCtorEq, not_false_eq_true]))

@[simp] theorem kept_courseRun (M : Blk → Bool) (d : Dev) (fuel n : Nat) (e : CourseEv) (hMG : M .MG = true) (hPWV : M .PWV = true) (hCL : M .CL = true) (hUD : M .UD = true) (hLN : M .LN = true) (hLNF : M .LNF = true) (hLNP : M .LNP = true) (hLNT : M .LNT = true) (hCS : M .CS = true) (hTSU : M .TSU = true) : (Dev.courseRun d fuel n e).kept M = d.kept M := by
  induction fuel generalizing d e with
  | zero => rfl
  | succ k ih =>
    unfold Dev.courseRun; split
    · rfl
    · rename_i h; rw [ih]; exact kept_courseRow M d n e hMG hPWV hCL hUD hLN hLNF hLNP hLNT hCS hTSU _ _ h

@[simp] theorem kept_aggregateSwitch (M : Blk → Bool) (d : Dev) (n : Nat) (hUD : M .UD = true) (hCS : M .CS = true) : (Dev.aggregateSwitch d n).kept M = d.kept M := by
  unfold Dev.aggregateSwitch
  dsimp only; (repeat' split) <;> first | with_reducible rfl | (simp only [↓kept_wr, blkR_CS_SEL, blkR_UD_STATE, hUD, hCS]; done)

@[simp] theorem kept_aggregateEval (M : Blk → Bool) (d : Dev) (n : Nat) (hMG : M .MG = true) (hPWV : M .PWV = true) (hUD : M .UD = true) (hLN : M .LN = true) (hLNT : M .LNT = true) (hCS : M .CS = true) : (Dev.aggregateEval d n).kept M = d.kept M := by
  unfold Dev.aggregateEval
  simp only [↓kept_aggregateSwitch, ↓kept_setCourse, hMG, hPWV, hUD, hLN, hLNT, hCS]

@[simp] theorem kept_belowEval (M : Blk → Bool) (d : Dev) (n : Nat) (hMG : M .MG = true) (hPWV : M .PWV = true) (hCL : M .CL = true) (hUD : M .UD = true) (hLN : M .LN = true) (hLNF : M .LNF = true) (hLNP : M .LNP = true) (hLNT : M .LNT = true) (hCS : M .CS = true) (hTSU : M .TSU = true) : (Dev.belowEval d n).kept M = d.kept M := by
  unfold Dev.belowEval
  simp only [↓kept_courseRun, hMG, hPWV, hCL, hUD, hLN, hLNF, hLNP, hLNT, hCS, hTSU, ↓keptIte, ↓keptEach, ite_self, implies_true]

@[simp] theorem kept_courseEval (M : Blk → Bool) (d : Dev) (n : Nat) (e : CourseEv) (hMG : M .MG = true) (hPWV : M .PWV = true) (hCL : M .CL = true) (hUD : M .UD = true) (hLN : M .LN = true) (hLNF : M .LNF = true) (hLNP : M .LNP = true) (hLNT : M .LNT = true) (hCS : M .CS = true) (hTSU : M .TSU = true) : (Dev.courseEval d n e).kept M = d.kept M := by
  unfold Dev.courseEval
  simp only [↓kept_aggregateEval, ↓kept_courseRun, ↓kept_belowEval, ↓kept_calCheck, hMG, hPWV, hCL, hUD, hLN, hLNF, hLNP, hLNT, hCS, hTSU, ↓keptIte, ite_self]

@[simp] theorem kept_evalLaneCourse (M : Blk → Bool) (d : Dev) (l : Nat) (e : CourseEv) (hMG : M .MG = true) (hPWV : M .PWV = true) (hCL : M .CL = true) (hUD : M .UD = true) (hLN : M .LN = true) (hLNF : M .LNF = true) (hLNP : M .LNP = true) (hLNT : M .LNT = true) (hCS : M .CS = true) (hTSU : M .TSU = true) : (Dev.evalLaneCourse d l e).kept M = d.kept M := by
  unfold Dev.evalLaneCourse
  (repeat' split) <;> first | with_reducible rfl | (simp only [↓kept_courseEval, hMG, hPWV, hCL, hUD, hLN, hLNF, hLNP, hLNT, hCS, hTSU]; done)

@[simp] theorem kept_modDm (M : Blk → Bool) (d : Dev) (g : DmX → DmX)  : (Dev.modDm d g).kept M = d.kept M := by
  unfold Dev.modDm
  rfl

@[simp] theorem kept_setMeters (M : Blk → Bool) (d : Dev) (ks code : Nat) (hMG : M .MG = true) (hUD : M .UD = true) : (Dev.setMeters d ks code).kept M = d.kept M := by
  unfold Dev.setMeters
  simp only [↓kept_publish, ↓kept_unitFault, hMG, hUD, ↓keptIte, ↓keptEach, ite_self, implies_true]

@[simp] theorem kept_intervalStart (M : Blk → Bool) (d : Dev)  : (Dev.intervalStart d).kept M = d.kept M := by
  unfold Dev.intervalStart
  simp only [↓kept_modDm]

@[simp] theorem kept_intervalEnd (M : Blk → Bool) (d : Dev) (short : Bool)  : (Dev.intervalEnd d short).kept M = d.kept M := by
  unfold Dev.intervalEnd
  simp only [↓kept_draw, ↓kept_modDm, ↓keptIte, ite_self]

@[simp] theorem kept_ringOpen (M : Blk → Bool) (d : Dev) (hMG : M .MG = true) (hUD : M .UD = true) (hDM : M .DM = true) : (Dev.ringOpen d).kept M = d.kept M := by
  unfold Dev.ringOpen
  simp only [↓kept_draw, ↓kept_wr0, ↓kept_modDm, ↓kept_setMeters, ↓kept_intervalStart, blkR_DM_RING_ID_LO, blkR_DM_RING_ID_HI, blkR_DM_SEQ_OLD, blkR_DM_SEQ_NEW, hMG, hUD, hDM, ↓keptIte, ite_self]

@[simp] theorem kept_ringDrop (M : Blk → Bool) (d : Dev)  : (Dev.ringDrop d).kept M = d.kept M := by
  unfold Dev.ringDrop
  simp only [↓kept_modDm]

@[simp] theorem kept_dormerVotes (M : Blk → Bool) (d : Dev) (on : Bool) (hPWV : M .PWV = true) : (Dev.dormerVotes d on).kept M = d.kept M := by
  unfold Dev.dormerVotes
  simp only [↓kept_vote, hPWV]

@[simp] theorem kept_unseal (M : Blk → Bool) (d : Dev) (hMG : M .MG = true) (hPWV : M .PWV = true) (hUD : M .UD = true) (hDM : M .DM = true) : (Dev.unseal d).kept M = d.kept M := by
  unfold Dev.unseal
  simp only [↓kept_ringDrop, ↓kept_setMeters, ↓kept_wrc, ↓kept_modDm, ↓kept_dormerVotes, blkR_DM_STS, blkR_DM_CFG, blkR_DM_MLIST, hMG, hPWV, hUD, hDM, ↓keptEach, implies_true]

@[simp] theorem kept_restCheck (M : Blk → Bool) (d : Dev) (hPWV : M .PWV = true) (hDM : M .DM = true) : (Dev.restCheck d).kept M = d.kept M := by
  unfold Dev.restCheck
  simp only [↓kept_modDm, ↓kept_wr0, ↓kept_dormerVotes, blkR_DM_STS, hPWV, hDM, ↓keptIte, ite_self]

@[simp] theorem kept_dormerRest (M : Blk → Bool) (d : Dev) (hPWV : M .PWV = true) (hDM : M .DM = true) : (Dev.dormerRest d).kept M = d.kept M := by
  unfold Dev.dormerRest
  simp only [↓kept_intervalEnd, ↓kept_modDm, ↓kept_restCheck, hPWV, hDM, ↓keptIte, ite_self]

@[simp] theorem kept_dormerWake (M : Blk → Bool) (d : Dev) (hPWV : M .PWV = true) (hDM : M .DM = true) : (Dev.dormerWake d).kept M = d.kept M := by
  unfold Dev.dormerWake
  simp only [↓kept_wrc, ↓kept_modDm, ↓kept_dormerVotes, ↓kept_intervalStart, blkR_DM_STS, hPWV, hDM, ↓keptIte, ite_self]

@[simp] theorem kept_modGate (M : Blk → Bool) (d : Dev) (k : Nat) (g : GateX → GateX)  : (Dev.modGate d k g).kept M = d.kept M := by
  unfold Dev.modGate
  rfl

@[simp] theorem kept_gateEnd (M : Blk → Bool) (d : Dev) (k outcome : Nat) (hMG : M .MG = true) (hTG : M .TG = true) (hSN : M .SN = true) (hUD : M .UD = true) : (Dev.gateEnd d k outcome).kept M = d.kept M := by
  unfold Dev.gateEnd
  simp only [↓kept_wr, ↓kept_modGate, ↓kept_bump, ↓kept_fire, ↓kept_alert, blkR_TG_SLOT_STS, blkR_TG_CNT_COMMIT, blkR_TG_CNT_ABORT, hMG, hTG, hSN, hUD, ↓keptIte, ↓keptMk, ite_self]

@[simp] theorem kept_revoke (M : Blk → Bool) (d : Dev) (ks : List Nat) (hMG : M .MG = true) (hTG : M .TG = true) (hSN : M .SN = true) (hUD : M .UD = true) : (Dev.revoke d ks).kept M = d.kept M := by
  unfold Dev.revoke
  simp only [↓kept_gateEnd, hMG, hTG, hSN, hUD, ↓keptIte, ↓keptEach, ite_self, implies_true]

@[simp] theorem kept_gateRelock (M : Blk → Bool) (d : Dev) (hMG : M .MG = true) (hTG : M .TG = true) (hSN : M .SN = true) (hUD : M .UD = true) : (Dev.gateRelock d).kept M = d.kept M := by
  unfold Dev.gateRelock
  simp only [↓kept_wr0, ↓kept_revoke, ↓kept_alert, blkR_TG_UL_STS, blkR_TG_UL_LEFT, hMG, hTG, hSN, hUD, ↓keptIte, ite_self]

@[simp] theorem kept_setDom (M : Blk → Bool) (d : Dev) (row st : Nat) (hPWV : M .PWV = true) (hPWS : M .PWS = true) (hUD : M .UD = true) : (Dev.setDom d row st).kept M = d.kept M := by
  unfold Dev.setDom
  simp only [↓kept_wr, ↓kept_publish, blkP_0, blkP_2, hPWV, hPWS, hUD]

@[simp] theorem kept_supplyUp (M : Blk → Bool) (d : Dev) (row : Nat) (hPWV : M .PWV = true) : (Dev.supplyUp d row).kept M = d.kept M := by
  unfold Dev.supplyUp
  simp only [↓kept_wrc, blkP_24, hPWV, ↓keptIte, ite_self]

@[simp] theorem kept_supplyDown (M : Blk → Bool) (d : Dev) (row : Nat) (off : Bool) (hPWV : M .PWV = true) : (Dev.supplyDown d row off).kept M = d.kept M := by
  unfold Dev.supplyDown
  simp only [↓kept_modDom, ↓kept_modPw, ↓kept_wrc, blkP_4, blkP_24, hPWV, ↓keptIte, ite_self]

@[simp] theorem kept_domRaised (M : Blk → Bool) (d : Dev) (row : Nat) (hPWV : M .PWV = true) (hPWS : M .PWS = true) (hUD : M .UD = true) (hTB : M .TB = true) : (Dev.domRaised d row).kept M = d.kept M := by
  unfold Dev.domRaised
  simp only [↓kept_supplyUp, ↓kept_modDom, ↓kept_setDom, ↓kept_wr0, ↓kept_domEval, blkR_TB_STS, hPWV, hPWS, hUD, hTB, ↓keptIte, ↓keptMk, ite_self]

@[simp] theorem kept_domStop (M : Blk → Bool) (d : Dev) (row : Nat) (hMG : M .MG = true) (hPWV : M .PWV = true) (hTG : M .TG = true) (hSN : M .SN = true) (hCL : M .CL = true) (hUD : M .UD = true) (hLNF : M .LNF = true) (hLNP : M .LNP = true) (hTB : M .TB = true) : (Dev.domStop d row).kept M = d.kept M := by
  unfold Dev.domStop
  simp only [↓kept_wrc, ↓kept_calAbortNow, ↓kept_setTxIdle, ↓kept_revoke, blkR_LN_PLL_STS, blkR_TB_STS, hMG, hPWV, hTG, hSN, hCL, hUD, hLNF, hLNP, hTB, ↓keptIte, ↓keptEach, ↓keptMk, ite_self, implies_true]

@[simp] theorem kept_devVotes (M : Blk → Bool) (d : Dev) (mask : Nat) (hPWV : M .PWV = true) : (Dev.devVotes d mask).kept M = d.kept M := by
  unfold Dev.devVotes
  simp only [↓kept_vote, hPWV, ↓keptEach, implies_true]

@[simp] theorem kept_holdPads (M : Blk → Bool) (d : Dev) (groups : Nat) (hPW : M .PW = true) : (Dev.holdPads d groups).kept M = d.kept M := by
  unfold Dev.holdPads
  simp only [↓kept_modPw, ↓kept_wrc, blkR_PW_PADREL, hPW, ↓keptIte, ite_self]

@[simp] theorem kept_goDown (M : Blk → Bool) (d : Dev) (target : Nat) (hMG : M .MG = true) (hPW : M .PW = true) (hPWV : M .PWV = true) (hTG : M .TG = true) (hSN : M .SN = true) (hUD : M .UD = true) (hDM : M .DM = true) : (Dev.goDown d target).kept M = d.kept M := by
  unfold Dev.goDown
  simp only [↓kept_modPw, ↓kept_wr0, ↓kept_holdPads, ↓kept_gateRelock, ↓kept_dormerRest, ↓kept_devVotes, ↓kept_domEval, blkR_PW_STS, hMG, hPW, hPWV, hTG, hSN, hUD, hDM, ↓keptIte, ↓keptEach, ite_self, implies_true]

@[simp] theorem kept_loaderVotes (M : Blk → Bool) (d : Dev) (hPWV : M .PWV = true) : (Dev.loaderVotes d).kept M = d.kept M := by
  unfold Dev.loaderVotes
  simp only [↓kept_vote, hPWV, ↓keptIte, ite_self]

@[simp] theorem kept_goUp (M : Blk → Bool) (d : Dev) (target : Nat) (hPW : M .PW = true) (hPWV : M .PWV = true) (hCF : M .CF = true) (hUD : M .UD = true) (hDM : M .DM = true) : (Dev.goUp d target).kept M = d.kept M := by
  unfold Dev.goUp
  simp only [↓kept_modPw, ↓kept_wr0, ↓kept_dormerWake, ↓kept_wrc, ↓kept_devVotes, ↓kept_loaderVotes, blkR_PW_STS, blkR_UD_IDENT, blkR_UD_LINKS, blkR_CF_STS, hPW, hPWV, hCF, hUD, hDM, ↓keptIte, ↓keptEach, ↓keptMk, ite_self, implies_true]

@[simp] theorem kept_transition (M : Blk → Bool) (d : Dev) (target : Nat) (hMG : M .MG = true) (hPW : M .PW = true) (hPWV : M .PWV = true) (hCF : M .CF = true) (hTG : M .TG = true) (hSN : M .SN = true) (hUD : M .UD = true) (hDM : M .DM = true) : (Dev.transition d target).kept M = d.kept M := by
  unfold Dev.transition
  simp only [↓kept_wr0, ↓kept_goDown, ↓kept_goUp, blkR_PW_STS, hMG, hPW, hPWV, hCF, hTG, hSN, hUD, hDM, ↓keptIte, ite_self]

@[simp] theorem kept_reportHeld (M : Blk → Bool) (d : Dev) (hMG : M .MG = true) (hPW : M .PW = true) : (Dev.reportHeld d).kept M = d.kept M := by
  unfold Dev.reportHeld
  dsimp only; (repeat' split) <;> first | with_reducible rfl | (simp only [↓kept_wr0, ↓kept_alert, blkR_PW_STS, blkR_PW_HELD, blkR_PW_HELD_CLO, blkR_PW_HELD_CHI, hMG, hPW]; done)

@[simp] theorem kept_recordWake (M : Blk → Bool) (d : Dev) (src course timer : Nat) (replay : Bool) (hPW : M .PW = true) : (Dev.recordWake d src course timer replay).kept M = d.kept M := by
  unfold Dev.recordWake
  simp only [↓kept_wr0, ↓kept_modPw, blkR_PW_LASTWAKE, hPW]

@[simp] theorem kept_transitionEnd (M : Blk → Bool) (d : Dev) (hMG : M .MG = true) (hPW : M .PW = true) : (Dev.transitionEnd d).kept M = d.kept M := by
  unfold Dev.transitionEnd
  simp only [↓kept_wr0, ↓kept_modPw, ↓kept_alert, ↓kept_reportHeld, blkR_PW_STS, hMG, hPW, ↓keptIte, ite_self]

@[simp] theorem kept_runPending (M : Blk → Bool) (d : Dev) (hMG : M .MG = true) (hPW : M .PW = true) (hPWV : M .PWV = true) (hCF : M .CF = true) (hTG : M .TG = true) (hSN : M .SN = true) (hUD : M .UD = true) (hDM : M .DM = true) : (Dev.runPending d).kept M = d.kept M := by
  unfold Dev.runPending
  simp only [↓kept_wr0, ↓kept_modPw, ↓kept_recordWake, ↓kept_transition, blkR_PW_STS, hMG, hPW, hPWV, hCF, hTG, hSN, hUD, hDM, ↓keptIte, ite_self]

@[simp] theorem kept_transitionCheck (M : Blk → Bool) (d : Dev) (hMG : M .MG = true) (hPW : M .PW = true) (hPWV : M .PWV = true) (hCF : M .CF = true) (hTG : M .TG = true) (hSN : M .SN = true) (hUD : M .UD = true) (hDM : M .DM = true) : (Dev.transitionCheck d).kept M = d.kept M := by
  unfold Dev.transitionCheck
  simp only [↓kept_transitionEnd, ↓kept_runPending, ↓kept_wr0, blkR_PW_STS, hMG, hPW, hPWV, hCF, hTG, hSN, hUD, hDM, ↓keptIte, ite_self]

@[simp] theorem kept_undoRequest (M : Blk → Bool) (d : Dev) (u : UndoX) (hPW : M .PW = true) (hPWV : M .PWV = true) : (Dev.undoRequest d u).kept M = d.kept M := by
  unfold Dev.undoRequest
  simp only [↓kept_wr0, ↓kept_wrc, ↓kept_modPw, ↓kept_modDom, ↓kept_wr, ↓kept_devVotes, blkR_PW_STS, blkR_PW_PADREL, blkP_2, hPW, hPWV, ↓keptIte, ↓keptEach, ite_self, implies_true]

@[simp] theorem kept_wake (M : Blk → Bool) (d : Dev) (src course timer : Nat) (hMG : M .MG = true) (hPW : M .PW = true) (hPWV : M .PWV = true) (hCF : M .CF = true) (hTG : M .TG = true) (hSN : M .SN = true) (hUD : M .UD = true) (hDM : M .DM = true) : (Dev.wake d src course timer).kept M = d.kept M := by
  unfold Dev.wake
  dsimp only; (repeat' split) <;> first | with_reducible rfl | (simp only [↓kept_undoRequest, ↓kept_recordWake, ↓kept_modPw, ↓kept_wr0, ↓kept_transition, ↓kept_transitionCheck, blkR_PW_STS, hMG, hPW, hPWV, hCF, hTG, hSN, hUD, hDM]; done)

@[simp] theorem kept_request (M : Blk → Bool) (d : Dev) (req : Nat) (hMG : M .MG = true) (hPW : M .PW = true) (hPWV : M .PWV = true) (hCF : M .CF = true) (hTG : M .TG = true) (hSN : M .SN = true) (hUD : M .UD = true) (hDM : M .DM = true) : (Dev.request d req).kept M = d.kept M := by
  unfold Dev.request
  simp only [↓kept_modPw, ↓kept_wr0, ↓kept_wake, ↓kept_transition, ↓kept_transitionCheck, blkR_PW_STS, hMG, hPW, hPWV, hCF, hTG, hSN, hUD, hDM, ↓keptIte, ite_self]

@[simp] theorem kept_tbRefUpdate (M : Blk → Bool) (d : Dev) (hTB : M .TB = true) : (Dev.tbRefUpdate d).kept M = d.kept M := by
  unfold Dev.tbRefUpdate
  simp only [↓kept_wrc, blkR_TB_STS, hTB, ↓keptMk]

@[simp] theorem kept_tbRefSelect (M : Blk → Bool) (d : Dev) (k : Nat) (hTB : M .TB = true) : (Dev.tbRefSelect d k).kept M = d.kept M := by
  unfold Dev.tbRefSelect
  simp only [↓kept_wr0, ↓kept_tbRefUpdate, blkR_TB_CTL, blkR_TB_STS, hTB, ↓keptIte, ite_self]

@[simp] theorem kept_courseImageWrite (M : Blk → Bool) (d : Dev) (n : Nat) (im : CourseImage) (hUD : M .UD = true) (hCS : M .CS = true) : (Dev.courseImageWrite d n im).kept M = d.kept M := by
  unfold Dev.courseImageWrite
  simp only [↓kept_modCourse, ↓kept_putWord, ↓kept_wrc, blkR_UD_STATE, blkR_CS_CTL, blkR_CS_RATE, blkR_CS_LANES, blkR_CS_CTX, blkR_CS_SEL, blk_proto, hUD, hCS, implies_true]

@[simp] theorem kept_imagePlls (M : Blk → Bool) (d : Dev) (hLNP : M .LNP = true) : (Dev.imagePlls d).kept M = d.kept M := by
  unfold Dev.imagePlls
  rw [keptEach]; intro p d; dsimp only
  (repeat' split) <;> simp only [↓kept_wrc, ↓kept_pllRefresh, blkR_LN_PLL_CTL, blkR_LN_PLL_STS, hLNP, ↓keptMk]

@[simp] theorem kept_startPending (M : Blk → Bool) (d : Dev) (hMG : M .MG = true) (hPW : M .PW = true) (hPWV : M .PWV = true) (hCF : M .CF = true) (hTG : M .TG = true) (hSN : M .SN = true) (hUD : M .UD = true) (hDM : M .DM = true) : (Dev.startPending d).kept M = d.kept M := by
  unfold Dev.startPending
  simp only [↓kept_runPending, ↓kept_transitionCheck, hMG, hPW, hPWV, hCF, hTG, hSN, hUD, hDM, ↓keptIte, ite_self]

@[simp] theorem kept_loaderVotesOff (M : Blk → Bool) (d : Dev) (hPWV : M .PWV = true) : (Dev.loaderVotesOff d).kept M = d.kept M := by
  unfold Dev.loaderVotesOff
  simp only [↓kept_vote, hPWV, ↓keptEach, implies_true]

@[simp] theorem kept_imageResult (M : Blk → Bool) (d : Dev) (code yealm : Nat) (hCF : M .CF = true) : (Dev.imageResult d code yealm).kept M = d.kept M := by
  unfold Dev.imageResult
  simp only [↓kept_wr, blkR_CF_RES, hCF, ↓keptIte, ite_self]

@[simp] theorem kept_loaderEnd (M : Blk → Bool) (d : Dev) (code yealm item : Nat) (hMG : M .MG = true) (hPW : M .PW = true) (hPWV : M .PWV = true) (hCF : M .CF = true) (hTG : M .TG = true) (hSN : M .SN = true) (hUD : M .UD = true) (hDM : M .DM = true) : (Dev.loaderEnd d code yealm item).kept M = d.kept M := by
  unfold Dev.loaderEnd
  simp only [↓kept_wr0, ↓kept_wrc, ↓kept_alert, ↓kept_loaderVotesOff, ↓kept_startPending, blkR_CF_STATUS, blkR_CF_ITEM, blkR_CF_STS, blkR_CF_RCV_STS, hMG, hPW, hPWV, hCF, hTG, hSN, hUD, hDM, ↓keptMk]

@[simp] theorem kept_fullService (M : Blk → Bool) (d : Dev) (hMG : M .MG = true) (hPW : M .PW = true) (hPWV : M .PWV = true) (hCF : M .CF = true) (hTG : M .TG = true) (hSN : M .SN = true) (hUD : M .UD = true) (hDM : M .DM = true) : (Dev.fullService d).kept M = d.kept M := by
  unfold Dev.fullService
  simp only [↓kept_wrc, ↓kept_wr0, ↓kept_imageResult, ↓kept_alert, ↓kept_loaderVotesOff, ↓kept_startPending, blkR_CF_STS, blkR_CF_TFULL, blkR_CF_STATUS, blkR_CF_ITEM, hMG, hPW, hPWV, hCF, hTG, hSN, hUD, hDM, ↓keptIte, ↓keptMk, ite_self]

@[simp] theorem kept_courseHandover (M : Blk → Bool) (d : Dev) (n : Nat) (hMG : M .MG = true) (hPW : M .PW = true) (hPWV : M .PWV = true) (hCF : M .CF = true) (hTG : M .TG = true) (hSN : M .SN = true) (hCL : M .CL = true) (hUD : M .UD = true) (hLN : M .LN = true) (hLNF : M .LNF = true) (hLNP : M .LNP = true) (hLNT : M .LNT = true) (hCS : M .CS = true) (hTSU : M .TSU = true) (hDM : M .DM = true) : (Dev.courseHandover d n).kept M = d.kept M := by
  unfold Dev.courseHandover
  dsimp only; (repeat' split) <;> first | with_reducible rfl | (simp only [↓kept_courseImageWrite, ↓kept_enterDisabled, ↓kept_imagePlls, ↓kept_courseEval, ↓kept_fullService, hMG, hPW, hPWV, hCF, hTG, hSN, hCL, hUD, hLN, hLNF, hLNP, hLNT, hCS, hTSU, hDM, ↓keptMk]; done)

@[simp] theorem kept_countBoundary (M : Blk → Bool) (d : Dev) (fuel n : Nat)  : (Dev.countBoundary d fuel n).kept M = d.kept M := by
  induction fuel generalizing d n with
  | zero => rfl
  | succ k ih =>
    unfold Dev.countBoundary; dsimp only
    (repeat' split) <;> first | rfl | (rw [ih]; rfl)

@[simp] theorem kept_boundary (M : Blk → Bool) (d : Dev) (n : Nat) (hMG : M .MG = true) (hPW : M .PW = true) (hPWV : M .PWV = true) (hCF : M .CF = true) (hTG : M .TG = true) (hSN : M .SN = true) (hCL : M .CL = true) (hUD : M .UD = true) (hLN : M .LN = true) (hLNF : M .LNF = true) (hLNP : M .LNP = true) (hLNT : M .LNT = true) (hCS : M .CS = true) (hTSU : M .TSU = true) (hDM : M .DM = true) : (Dev.boundary d n).kept M = d.kept M := by
  unfold Dev.boundary
  simp only [↓kept_countBoundary, ↓kept_courseHandover, hMG, hPW, hPWV, hCF, hTG, hSN, hCL, hUD, hLN, hLNF, hLNP, hLNT, hCS, hTSU, hDM]

@[simp] theorem kept_marker (M : Blk → Bool) (d : Dev) (n : Nat) (hMG : M .MG = true) (hPW : M .PW = true) (hPWV : M .PWV = true) (hCF : M .CF = true) (hTG : M .TG = true) (hSN : M .SN = true) (hCL : M .CL = true) (hUD : M .UD = true) (hLN : M .LN = true) (hLNF : M .LNF = true) (hLNP : M .LNP = true) (hLNT : M .LNT = true) (hCS : M .CS = true) (hTSU : M .TSU = true) (hDM : M .DM = true) : (Dev.marker d n).kept M = d.kept M := by
  unfold Dev.marker
  simp only [↓kept_boundary, hMG, hPW, hPWV, hCF, hTG, hSN, hCL, hUD, hLN, hLNF, hLNP, hLNT, hCS, hTSU, hDM, ↓keptIte, ↓keptMk, ite_self]

@[simp] theorem kept_applyHeld (M : Blk → Bool) (d : Dev) (t : Nat) (hLN : M .LN = true) : (Dev.applyHeld d t).kept M = d.kept M := by
  unfold Dev.applyHeld
  dsimp only; (repeat' split) <;> first | with_reducible rfl | (simp only [↓kept_wrc, ↓kept_putWord, ↓kept_modLane, blkR_LN_CTL, blkR_LN_TX_FFE, hLN, implies_true]; done)

@[simp] theorem kept_laneBoundary (M : Blk → Bool) (d : Dev) (l : Nat) (hMG : M .MG = true) (hPW : M .PW = true) (hPWV : M .PWV = true) (hCF : M .CF = true) (hTG : M .TG = true) (hSN : M .SN = true) (hCL : M .CL = true) (hUD : M .UD = true) (hLN : M .LN = true) (hLNF : M .LNF = true) (hLNP : M .LNP = true) (hLNT : M .LNT = true) (hCS : M .CS = true) (hTSU : M .TSU = true) (hDM : M .DM = true) : (Dev.laneBoundary d l).kept M = d.kept M := by
  unfold Dev.laneBoundary
  (repeat' split) <;> first | with_reducible rfl | (simp only [↓kept_boundary, ↓kept_applyHeld, hMG, hPW, hPWV, hCF, hTG, hSN, hCL, hUD, hLN, hLNF, hLNP, hLNT, hCS, hTSU, hDM, ↓keptIte, ↓keptEach, ite_self, implies_true]; done)

@[simp] theorem kept_groupSwitch (M : Blk → Bool) (d : Dev) (g : Nat) (hUD : M .UD = true) : (Dev.groupSwitch d g).kept M = d.kept M := by
  unfold Dev.groupSwitch
  (repeat' split) <;> first | with_reducible rfl | (simp only [↓kept_wr, blkR_UD_STATE, hUD]; done)

@[simp] theorem kept_publishUnit (M : Blk → Bool) (d : Dev) (id : Nat) (hMG : M .MG = true) (hPWV : M .PWV = true) (hPWS : M .PWS = true) (hCL : M .CL = true) (hUD : M .UD = true) (hLN : M .LN = true) (hLNF : M .LNF = true) (hLNP : M .LNP = true) (hLNT : M .LNT = true) (hCS : M .CS = true) (hTSU : M .TSU = true) : (Dev.publishUnit d id).kept M = d.kept M := by
  unfold Dev.publishUnit
  dsimp only; (repeat' split) <;> first | with_reducible rfl | (simp only [↓kept_laneRefresh, ↓kept_courseEval, ↓kept_publish, ↓kept_groupSwitch, ↓kept_wrc, blkP_0, hMG, hPWV, hPWS, hCL, hUD, hLN, hLNF, hLNP, hLNT, hCS, hTSU]; done)

@[simp] theorem kept_matchCheck (M : Blk → Bool) (d : Dev) (hMG : M .MG = true) (hSN : M .SN = true) (hUD : M .UD = true) : (Dev.matchCheck d).kept M = d.kept M := by
  unfold Dev.matchCheck
  simp only [↓kept_wr0, ↓kept_fire, blkR_SN_CTL, hMG, hSN, hUD, ↓keptIte, ite_self]

@[simp] theorem kept_modEng (M : Blk → Bool) (d : Dev) (g : EngX → EngX)  : (Dev.modEng d g).kept M = d.kept M := by
  unfold Dev.modEng
  rfl

@[simp] theorem kept_modSlot (M : Blk → Bool) (d : Dev) (k : Nat) (g : SlotX → SlotX)  : (Dev.modSlot d k g).kept M = d.kept M := by
  unfold Dev.modSlot
  simp only [↓kept_modEng]

@[simp] theorem kept_setEng (M : Blk → Bool) (d : Dev) (st : Nat) (hMG : M .MG = true) (hTS : M .TS = true) : (Dev.setEng d st).kept M = d.kept M := by
  unfold Dev.setEng
  simp only [↓kept_wr, ↓kept_alert, ↓kept_wrc, ↓kept_modEng, blkR_TS_STS, blkR_TS_HOLD_T, hMG, hTS, ↓keptIte, ite_self]

@[simp] theorem kept_setRate (M : Blk → Bool) (d : Dev) (r : Int) (hTB : M .TB = true) : (Dev.setRate d r).kept M = d.kept M := by
  unfold Dev.setRate
  simp only [↓kept_wrc, ↓kept_modEng, blkR_TB_ADJ, hTB]

@[simp] theorem kept_servo (M : Blk → Bool) (d : Dev) (te dt : Q) (tau : Nat) (hTB : M .TB = true) : (Dev.servo d te dt tau).kept M = d.kept M := by
  unfold Dev.servo
  simp only [↓kept_modEng, ↓kept_setRate, hTB]

@[simp] theorem kept_servoStart (M : Blk → Bool) (d : Dev)  : (Dev.servoStart d).kept M = d.kept M := by
  unfold Dev.servoStart
  simp only [↓kept_modEng]

@[simp] theorem kept_showTe (M : Blk → Bool) (d : Dev) (te : Int) (hTS : M .TS = true) : (Dev.showTe d te).kept M = d.kept M := by
  unfold Dev.showTe
  simp only [↓kept_wrc, blkR_TS_TE, hTS]

@[simp] theorem kept_stepTime (M : Blk → Bool) (d : Dev) (by_ : Int) (hMG : M .MG = true) (hSN : M .SN = true) (hUD : M .UD = true) (hTB : M .TB = true) : (Dev.stepTime d by_).kept M = d.kept M := by
  unfold Dev.stepTime
  simp only [↓kept_wr0, ↓kept_matchCheck, blkR_TB_STS, hMG, hSN, hUD, hTB, ↓keptMk]

@[simp] theorem kept_engJump (M : Blk → Bool) (d : Dev) (te : Int) (hMG : M .MG = true) (hSN : M .SN = true) (hUD : M .UD = true) (hTB : M .TB = true) : (Dev.engJump d te).kept M = d.kept M := by
  unfold Dev.engJump
  simp only [↓kept_wr0, ↓kept_stepTime, blkR_TB_STS, hMG, hSN, hUD, hTB, ↓keptIte, ite_self]

@[simp] theorem kept_acquire (M : Blk → Bool) (d : Dev) (r : Nat) (hMG : M .MG = true) (hSN : M .SN = true) (hUD : M .UD = true) (hTB : M .TB = true) (hTS : M .TS = true) : (Dev.acquire d r).kept M = d.kept M := by
  unfold Dev.acquire
  simp only [↓kept_wrc, ↓kept_showTe, ↓kept_engJump, ↓kept_modEng, ↓kept_servoStart, ↓kept_setEng, blkR_TS_STS, hMG, hSN, hUD, hTB, hTS, ↓keptIte, ite_self]

@[simp] theorem kept_showEnsemble (M : Blk → Bool) (d : Dev) (hTS : M .TS = true) : (Dev.showEnsemble d).kept M = d.kept M := by
  unfold Dev.showEnsemble; dsimp only
  rw [keptEach]
  · simp only [↓kept_wrc, blkR_TS_STS, hTS]
  · intro k d; split <;> simp only [↓kept_wrc, blkR_TS_LREF_STS, hTS]

@[simp] theorem kept_holdover (M : Blk → Bool) (d : Dev) (hMG : M .MG = true) (hSN : M .SN = true) (hUD : M .UD = true) (hTB : M .TB = true) (hTS : M .TS = true) : (Dev.holdover d).kept M = d.kept M := by
  unfold Dev.holdover
  simp only [↓kept_wrc, ↓kept_setEng, ↓kept_modEng, ↓kept_fire, ↓kept_draw, ↓kept_setRate, blkR_TS_STS, hMG, hSN, hUD, hTB, hTS, ↓keptIte, ite_self]

theorem kept_engRow (M : Blk → Bool) (d : Dev) (hMG : M .MG = true) (hSN : M .SN = true) (hUD : M .UD = true) (hTB : M .TB = true) (hTS : M .TS = true) (d' : Dev) (e : Dev.engRow d = some d') : d'.kept M = d.kept M := by
  unfold Dev.engRow at e; dsimp only at e
  (repeat' split at e) <;> cases e <;> simp only [↓kept_wrc, ↓kept_setEng, ↓kept_acquire, ↓kept_holdover, blkR_TS_STS, hMG, hSN, hUD, hTB, hTS]

@[simp] theorem kept_engRun (M : Blk → Bool) (d : Dev) (fuel : Nat) (hMG : M .MG = true) (hSN : M .SN = true) (hUD : M .UD = true) (hTB : M .TB = true) (hTS : M .TS = true) : (Dev.engRun d fuel).kept M = d.kept M := by
  induction fuel generalizing d with
  | zero => rfl
  | succ k ih =>
    unfold Dev.engRun; split
    · rfl
    · rename_i h; rw [ih]; exact kept_engRow M d hMG hSN hUD hTB hTS _ h

@[simp] theorem kept_synEval (M : Blk → Bool) (d : Dev) (hTS : M .TS = true) : (Dev.synEval d).kept M = d.kept M := by
  unfold Dev.synEval
  simp only [↓kept_modEng, ↓kept_servoStart, ↓kept_wrc, blkR_TS_STS, hTS, ↓keptIte, ite_self]

@[simp] theorem kept_engEval (M : Blk → Bool) (d : Dev) (hMG : M .MG = true) (hSN : M .SN = true) (hUD : M .UD = true) (hTB : M .TB = true) (hTS : M .TS = true) : (Dev.engEval d).kept M = d.kept M := by
  unfold Dev.engEval
  simp only [↓kept_engRun, ↓kept_synEval, hMG, hSN, hUD, hTB, hTS]

@[simp] theorem kept_teSample (M : Blk → Bool) (d : Dev) (te : Int) (use : Bool) (hTB : M .TB = true) (hTS : M .TS = true) : (Dev.teSample d te use).kept M = d.kept M := by
  unfold Dev.teSample
  simp only [↓kept_showTe, ↓kept_modEng, ↓kept_servo, hTB, hTS, ↓keptIte, ite_self]

@[simp] theorem kept_ppsDisqualify (M : Blk → Bool) (d : Dev) (hMG : M .MG = true) (hSN : M .SN = true) (hUD : M .UD = true) (hTB : M .TB = true) (hTS : M .TS = true) : (Dev.ppsDisqualify d).kept M = d.kept M := by
  unfold Dev.ppsDisqualify
  simp only [↓kept_modEng, ↓kept_wrc, ↓kept_engEval, blkR_TS_STS, hMG, hSN, hUD, hTB, hTS]

@[simp] theorem kept_ppsPulse (M : Blk → Bool) (d : Dev) (interp : Nat) (hMG : M .MG = true) (hSN : M .SN = true) (hUD : M .UD = true) (hTB : M .TB = true) (hTS : M .TS = true) : (Dev.ppsPulse d interp).kept M = d.kept M := by
  unfold Dev.ppsPulse
  simp only [↓kept_modEng, ↓kept_ppsDisqualify, hMG, hSN, hUD, hTB, hTS, ↓keptIte, ite_self]

@[simp] theorem kept_ppsMessage (M : Blk → Bool) (d : Dev) (m : TimeMessage) (hMG : M .MG = true) (hSN : M .SN = true) (hUD : M .UD = true) (hTB : M .TB = true) (hTS : M .TS = true) : (Dev.ppsMessage d m).kept M = d.kept M := by
  unfold Dev.ppsMessage
  simp only [↓kept_modEng, ↓kept_wrc, ↓kept_engEval, ↓kept_teSample, blkR_TS_STS, hMG, hSN, hUD, hTB, hTS, ↓keptIte, ite_self]

@[simp] theorem kept_ptpDisqualify (M : Blk → Bool) (d : Dev) (hMG : M .MG = true) (hSN : M .SN = true) (hUD : M .UD = true) (hTB : M .TB = true) (hTS : M .TS = true) : (Dev.ptpDisqualify d).kept M = d.kept M := by
  unfold Dev.ptpDisqualify
  simp only [↓kept_modEng, ↓kept_wrc, ↓kept_engEval, blkR_TS_STS, hMG, hSN, hUD, hTB, hTS]

@[simp] theorem kept_ptpSample (M : Blk → Bool) (d0 : Dev) (offset delay : Int) (valid : Bool) (cls : Nat) (hMG : M .MG = true) (hSN : M .SN = true) (hUD : M .UD = true) (hTB : M .TB = true) (hTS : M .TS = true) : (Dev.ptpSample d0 offset delay valid cls).kept M = d0.kept M := by
  unfold Dev.ptpSample
  extract_lets ports moved d h since d1
  have h0 : d.kept M = d0.kept M := by simp only [d]; simp only [↓kept_modEng]
  have h1 : d1.kept M = d0.kept M := by simp only [d1]; simp only [↓kept_modEng]; exact h0
  clear_value d1 d
  (repeat' (rw [keptIte]; split)) <;> (try simp only [↓kept_ptpDisqualify, ↓kept_teSample, ↓kept_wrc, ↓kept_engEval, blkR_TS_STS, hMG, hSN, hUD, hTB, hTS]) <;> assumption

@[simp] theorem kept_leaveGroup (M : Blk → Bool) (d : Dev) (k : Nat)  : (Dev.leaveGroup d k).kept M = d.kept M := by
  unfold Dev.leaveGroup
  simp only [↓kept_modEng, ↓keptIte, ite_self]

@[simp] theorem kept_slotDisqualify (M : Blk → Bool) (d : Dev) (k : Nat) (hTS : M .TS = true) : (Dev.slotDisqualify d k).kept M = d.kept M := by
  unfold Dev.slotDisqualify
  simp only [↓kept_wrc, ↓kept_modSlot, ↓kept_leaveGroup, ↓kept_showEnsemble, blkR_TS_LREF_STS, hTS, ↓keptIte, ite_self]

@[simp] theorem kept_slotEval (M : Blk → Bool) (d : Dev) (k : Nat) (hTS : M .TS = true) : (Dev.slotEval d k).kept M = d.kept M := by
  unfold Dev.slotEval
  simp only [↓kept_slotDisqualify, ↓kept_modSlot, hTS, ↓keptIte, ite_self]

@[simp] theorem kept_slotsEval (M : Blk → Bool) (d : Dev) (hMG : M .MG = true) (hSN : M .SN = true) (hUD : M .UD = true) (hTB : M .TB = true) (hTS : M .TS = true) : (Dev.slotsEval d).kept M = d.kept M := by
  unfold Dev.slotsEval
  simp only [↓kept_slotEval, ↓kept_engEval, hMG, hSN, hUD, hTB, hTS, ↓keptEach, implies_true]

@[simp] theorem kept_slotsFollow (M : Blk → Bool) (d : Dev) (hMG : M .MG = true) (hSN : M .SN = true) (hUD : M .UD = true) (hTB : M .TB = true) (hTS : M .TS = true) : (Dev.slotsFollow d).kept M = d.kept M := by
  unfold Dev.slotsFollow
  simp only [↓kept_slotsEval, hMG, hSN, hUD, hTB, hTS, ↓keptIte, ite_self]

@[simp] theorem kept_learnGroup (M : Blk → Bool) (d : Dev) (slots : List Nat) (hTS : M .TS = true) : (Dev.learnGroup d slots).kept M = d.kept M := by
  unfold Dev.learnGroup
  simp only [↓kept_modEng, ↓kept_wrc, blkR_TS_LREF_FOFS, blkR_TS_LREF_STAB, hTS, ↓keptEach, implies_true]

@[simp] theorem kept_regroup (M : Blk → Bool) (d : Dev) (hTS : M .TS = true) : (Dev.regroup d).kept M = d.kept M := by
  unfold Dev.regroup
  simp only [↓kept_modEng, ↓kept_learnGroup, ↓kept_draw, ↓kept_showEnsemble, hTS, ↓keptIte, ↓keptEach, ite_self, implies_true]

@[simp] theorem kept_secondEnd (M : Blk → Bool) (d : Dev) (hTB : M .TB = true) : (Dev.secondEnd d).kept M = d.kept M := by
  unfold Dev.secondEnd
  dsimp only; (repeat' split) <;> first | with_reducible rfl | (simp only [↓kept_modEng, ↓kept_modSlot, ↓kept_servo, hTB, ↓keptEach, implies_true]; done)

@[simp] theorem kept_modMt (M : Blk → Bool) (d : Dev) (g : MtX → MtX)  : (Dev.modMt d g).kept M = d.kept M := by
  unfold Dev.modMt
  rfl

@[simp] theorem kept_poisonEvent (M : Blk → Bool) (d : Dev) (port master dir src : Nat) (addr : Option Nat) (hMG : M .MG = true) (hSN : M .SN = true) (hUD : M .UD = true) (hMT : M .MT = true) : (Dev.poisonEvent d port master dir src addr).kept M = d.kept M := by
  unfold Dev.poisonEvent
  simp only [↓kept_bump, ↓kept_wr0, ↓kept_alert, ↓kept_fire, blkR_MT_CNT_POISON, blkR_MT_POISON, blkR_MT_POISON_ADDR, hMG, hSN, hUD, hMT, ↓keptIte, ite_self]

@[simp] theorem kept_keepError (M : Blk → Bool) (d : Dev) (w synd : Nat)  : (Dev.keepError d w synd).kept M = d.kept M := by
  unfold Dev.keepError
  simp only [↓kept_modMt, ↓kept_draw, ↓keptIte, ite_self]

@[simp] theorem kept_uncorrectable (M : Blk → Bool) (d : Dev) (w master port synd : Nat) (write : Bool) (hMG : M .MG = true) (hSN : M .SN = true) (hUD : M .UD = true) (hMT : M .MT = true) : (Dev.uncorrectable d w master port synd write).kept M = d.kept M := by
  unfold Dev.uncorrectable
  simp only [↓kept_bump, ↓kept_keepError, ↓kept_wr0, ↓kept_alert, ↓kept_poisonEvent, blkR_MT_CNT_UE, blkR_MT_ECCLOG_ADDR, blkR_MT_ECCLOG_INFO, hMG, hSN, hUD, hMT, ↓keptIte, ite_self]

@[simp] theorem kept_collide (M : Blk → Bool) (d : Dev) (o : Op) (others : List Op) (hMG : M .MG = true) (hMT : M .MT = true) : (Dev.collide d o others).kept M = d.kept M := by
  unfold Dev.collide
  simp only [↓kept_wr0, ↓kept_modMt, ↓kept_alert, blkR_MT_COLLIDE, blkR_MT_COLLIDE_ADDR, hMG, hMT, ↓keptIte, ite_self]

@[simp] theorem kept_showOps (M : Blk → Bool) (d : Dev) (master : Nat) (hFB : M .FB = true) (hMT : M .MT = true) : (Dev.showOps d master).kept M = d.kept M := by
  unfold Dev.showOps
  simp only [↓kept_wrc, blkR_MT_INFLT, blkR_MT_INFLT_MAX, blkR_FB_STS, hFB, hMT, ↓keptIte, ite_self]

@[simp] theorem kept_countDenial (M : Blk → Bool) (d : Dev) (o : Op) (hFB : M .FB = true) (hMT : M .MT = true) : (Dev.countDenial d o).kept M = d.kept M := by
  unfold Dev.countDenial
  simp only [↓kept_bump, blkR_FB_CNT_DENY, blkR_MT_CNT_DENY, hFB, hMT, ↓keptIte, ite_self]

@[simp] theorem kept_arrive (M : Blk → Bool) (d : Dev) (o : Op) (hMG : M .MG = true) (hMT : M .MT = true) : (Dev.arrive d o).kept M = d.kept M := by
  unfold Dev.arrive
  simp only [↓kept_modMt, ↓kept_bump, ↓kept_collide, blkR_MT_CONF, hMG, hMT, ↓keptIte, ite_self, ↓keptFoldl, implies_true]

@[simp] theorem kept_issue (M : Blk → Bool) (d : Dev) (o : Op) (hMG : M .MG = true) (hFB : M .FB = true) (hMT : M .MT = true) : (Dev.issue d o).kept M = d.kept M := by
  unfold Dev.issue
  simp only [↓kept_countDenial, ↓kept_arrive, ↓kept_modMt, ↓kept_showOps, hMG, hFB, hMT, ↓keptIte, ite_self]

@[simp] theorem kept_request_ (M : Blk → Bool) (d : Dev) (o : Op) (hMG : M .MG = true) (hFB : M .FB = true) (hMT : M .MT = true) : (Dev.request_ d o).kept M = d.kept M := by
  unfold Dev.request_
  simp only [↓kept_modMt, ↓kept_issue, hMG, hFB, hMT, ↓keptIte, ite_self]

@[simp] theorem kept_admitWaiting (M : Blk → Bool) (d : Dev) (hMG : M .MG = true) (hFB : M .FB = true) (hMT : M .MT = true) : (Dev.admitWaiting d).kept M = d.kept M := by
  unfold Dev.admitWaiting
  simp only [↓kept_modMt, ↓kept_issue, hMG, hFB, hMT, ↓keptIte, ite_self, ↓keptFoldl, implies_true]

@[simp] theorem kept_mbTouch (M : Blk → Bool) (d : Dev) (o : Op)  : (Dev.mbTouch d o).kept M = d.kept M := by
  unfold Dev.mbTouch
  dsimp only; (repeat' split) <;> first | with_reducible rfl | (simp only [↓keptMk]; done)

@[simp] theorem kept_windowStatus (M : Blk → Bool) (d : Dev) (st : Nat) (hMT : M .MT = true) : (Dev.windowStatus d st).kept M = d.kept M := by
  unfold Dev.windowStatus
  (repeat' split) <;> first | with_reducible rfl | (simp only [↓kept_wr0, blkR_MT_WINSTS, hMT]; done)

@[simp] theorem kept_windowDone (M : Blk → Bool) (d : Dev) (o : Op) (beats : List (Nat × List Byte)) (hMT : M .MT = true) : (Dev.windowDone d o beats).kept M = d.kept M := by
  unfold Dev.windowDone
  simp only [↓kept_windowStatus, ↓kept_modMt, hMT, ↓keptIte, ite_self]

@[simp] theorem kept_modFb (M : Blk → Bool) (d : Dev) (r : Nat) (g : FbX → FbX)  : (Dev.modFb d r g).kept M = d.kept M := by
  unfold Dev.modFb
  rfl

@[simp] theorem kept_modGut (M : Blk → Bool) (d : Dev) (l : Nat) (g : GutX → GutX)  : (Dev.modGut d l g).kept M = d.kept M := by
  unfold Dev.modGut
  rfl

@[simp] theorem kept_showLimit (M : Blk → Bool) (d : Dev) (r : Nat) (hFB : M .FB = true) : (Dev.showLimit d r).kept M = d.kept M := by
  unfold Dev.showLimit
  simp only [↓kept_wrc, blkR_FB_PACE_STS, hFB]

@[simp] theorem kept_voltStep (M : Blk → Bool) (d : Dev) (row : Nat) (hPWV : M .PWV = true) (hFB : M .FB = true) : (Dev.voltStep d row).kept M = d.kept M := by
  unfold Dev.voltStep
  simp only [↓kept_wrc, ↓kept_modPw, ↓kept_showLimit, blkP_4, hPWV, hFB, ↓keptIte, ite_self]

@[simp] theorem kept_pwDomWrite (M : Blk → Bool) (d : Dev) (row w : Nat) (hPWV : M .PWV = true) (hFB : M .FB = true) : (Dev.pwDomWrite d row w).kept M = d.kept M := by
  unfold Dev.pwDomWrite
  simp only [↓kept_wrc, ↓kept_wr, ↓kept_voltStep, blkP_3, blkP_16, hPWV, hFB, ↓keptIte, ite_self]

@[simp] theorem kept_voltSettled (M : Blk → Bool) (d : Dev) (row : Nat) (hMG : M .MG = true) (hPWV : M .PWV = true) (hCL : M .CL = true) (hUD : M .UD = true) (hLN : M .LN = true) (hLNF : M .LNF = true) (hLNP : M .LNP = true) (hLNT : M .LNT = true) (hCS : M .CS = true) (hTSU : M .TSU = true) (hFB : M .FB = true) : (Dev.voltSettled d row).kept M = d.kept M := by
  unfold Dev.voltSettled
  dsimp only; (repeat' split) <;> first | with_reducible rfl | (simp only [↓kept_wrc, ↓kept_modPw, ↓kept_showLimit, ↓kept_voltStep, ↓kept_courseEval, blkP_24, hMG, hPWV, hCL, hUD, hLN, hLNF, hLNP, hLNT, hCS, hTSU, hFB, ↓keptEach, implies_true]; done)

@[simp] theorem kept_fbPaceWrite (M : Blk → Bool) (d : Dev) (r w : Nat) (hPWV : M .PWV = true) (hFB : M .FB = true) : (Dev.fbPaceWrite d r w).kept M = d.kept M := by
  unfold Dev.fbPaceWrite
  simp only [↓kept_wr, ↓kept_wrc, ↓kept_voltStep, blkR_FB_STS, blkR_FB_PACE, hPWV, hFB, ↓keptIte, ite_self]

@[simp] theorem kept_regionRefresh (M : Blk → Bool) (d : Dev) (r : Nat) (hUD : M .UD = true) : (Dev.regionRefresh d r).kept M = d.kept M := by
  unfold Dev.regionRefresh
  simp only [↓kept_publish, hUD]

@[simp] theorem kept_lbEnd (M : Blk → Bool) (d : Dev) (r result sig count : Nat) (hMG : M .MG = true) (hPWV : M .PWV = true) (hSN : M .SN = true) (hST : M .ST = true) (hUD : M .UD = true) : (Dev.lbEnd d r result sig count).kept M = d.kept M := by
  unfold Dev.lbEnd
  simp only [↓kept_wr0, ↓kept_alert, ↓kept_modFb, ↓kept_unitFault, ↓kept_fire, ↓kept_regionRefresh, ↓kept_vote, blkR_ST_LSTS, blkR_ST_LSIG, blkR_ST_LCNT, hMG, hPWV, hSN, hST, hUD, ↓keptIte, ite_self]

@[simp] theorem kept_lbAbort (M : Blk → Bool) (d : Dev) (r : Nat) (hMG : M .MG = true) (hPWV : M .PWV = true) (hSN : M .SN = true) (hST : M .ST = true) (hUD : M .UD = true) : (Dev.lbAbort d r).kept M = d.kept M := by
  unfold Dev.lbAbort
  simp only [↓kept_draw, ↓kept_lbEnd, hMG, hPWV, hSN, hST, hUD, ↓keptIte, ite_self]

@[simp] theorem kept_ctxRefresh (M : Blk → Bool) (d : Dev) (r : Nat) (c : Ctx) (hUD : M .UD = true) : (Dev.ctxRefresh d r c).kept M = d.kept M := by
  unfold Dev.ctxRefresh
  simp only [↓kept_publish, hUD]

@[simp] theorem kept_slotRefresh (M : Blk → Bool) (d : Dev) (r k : Nat) (hUD : M .UD = true) : (Dev.slotRefresh d r k).kept M = d.kept M := by
  unfold Dev.slotRefresh
  simp only [↓kept_ctxRefresh, hUD]

@[simp] theorem kept_purlinVote (M : Blk → Bool) (d : Dev) (hPWV : M .PWV = true) : (Dev.purlinVote d).kept M = d.kept M := by
  unfold Dev.purlinVote
  simp only [↓kept_vote, hPWV]

theorem kept_startPageIn (M : Blk → Bool) (d : Dev) (r p : Nat) (prefetch : Bool) (hPWV : M .PWV = true) (hUD : M .UD = true) (hFB : M .FB = true) (d' : Dev) (e : Dev.startPageIn d r p prefetch = some d') : d'.kept M = d.kept M := by
  unfold Dev.startPageIn at e; dsimp only at e
  (repeat' split at e) <;> cases e <;> simp only [↓kept_wrc, ↓kept_modFb, ↓kept_bump, ↓kept_ctxRefresh, ↓kept_purlinVote, blkR_FB_SLOT, blkR_FB_STS, blkR_FB_CNT_PGIN, hPWV, hUD, hFB]

@[simp] theorem kept_setSel (M : Blk → Bool) (d : Dev) (r : Nat) (s : Option SelX) (hFB : M .FB = true) : (Dev.setSel d r s).kept M = d.kept M := by
  unfold Dev.setSel
  simp only [↓kept_modFb, ↓kept_wrc, blkR_FB_STS, hFB]

@[simp] theorem kept_selStart (M : Blk → Bool) (d : Dev) (r : Nat) (hPWV : M .PWV = true) (hUD : M .UD = true) (hFB : M .FB = true) : (Dev.selStart d r).kept M = d.kept M := by
  unfold Dev.selStart; dsimp only
  (repeat' split) <;> first
    | rfl
    | (rename_i h; exact kept_startPageIn M _ _ _ _ hPWV hUD hFB _ h)
    | simp only [↓kept_setSel, ↓kept_modFb, hFB]

@[simp] theorem kept_select (M : Blk → Bool) (d : Dev) (r : Nat) (c : Ctx) (course : Option (Nat × Nat)) (self : Bool) (hMG : M .MG = true) (hPWV : M .PWV = true) (hSN : M .SN = true) (hST : M .ST = true) (hUD : M .UD = true) (hFB : M .FB = true) : (Dev.select d r c course self).kept M = d.kept M := by
  unfold Dev.select
  simp only [↓kept_lbAbort, ↓kept_setSel, ↓kept_selStart, hMG, hPWV, hSN, hST, hUD, hFB, ↓keptIte, ite_self]

@[simp] theorem kept_runSlot (M : Blk → Bool) (d : Dev) (r k : Nat) (work : Nat) (hUD : M .UD = true) (hFB : M .FB = true) : (Dev.runSlot d r k work).kept M = d.kept M := by
  unfold Dev.runSlot
  dsimp only; (repeat' split) <;> first | with_reducible rfl | (simp only [↓kept_wrc, ↓kept_modFb, ↓kept_slotRefresh, ↓kept_regionRefresh, blkR_FB_SLOT, blkR_FB_STS, hUD, hFB]; done)

@[simp] theorem kept_contextSwitch (M : Blk → Bool) (d : Dev) (r : Nat) (hMG : M .MG = true) (hPWV : M .PWV = true) (hSN : M .SN = true) (hST : M .ST = true) (hUD : M .UD = true) (hFB : M .FB = true) : (Dev.contextSwitch d r).kept M = d.kept M := by
  unfold Dev.contextSwitch
  dsimp only; (repeat' split) <;> first | with_reducible rfl | (simp only [↓kept_lbAbort, ↓kept_setSel, ↓kept_runSlot, ↓kept_bump, blkR_FB_CNT_SW, blkR_FB_CNT_LATE, hMG, hPWV, hSN, hST, hUD, hFB]; done)

@[simp] theorem kept_pageInDone (M : Blk → Bool) (d : Dev) (r : Nat) (ok : Bool) (hMG : M .MG = true) (hPWV : M .PWV = true) (hCF : M .CF = true) (hUD : M .UD = true) (hFB : M .FB = true) (hMT : M .MT = true) : (Dev.pageInDone d r ok).kept M = d.kept M := by
  unfold Dev.pageInDone
  dsimp only; (repeat' split) <;> first | with_reducible rfl | (simp only [↓kept_modFb, ↓kept_wrc, ↓kept_setSel, ↓kept_unitFault, ↓kept_wr0, ↓kept_ctxRefresh, ↓kept_purlinVote, ↓kept_admitWaiting, ↓kept_selStart, blkR_FB_STS, blkR_FB_SLOT, blkR_CF_STS, blkR_FB_PGSTS, hMG, hPWV, hCF, hUD, hFB, hMT, ↓keptMk]; done)

@[simp] theorem kept_reloadContext (M : Blk → Bool) (d : Dev) (r : Nat) (hMG : M .MG = true) (hPWV : M .PWV = true) (hSN : M .SN = true) (hST : M .ST = true) (hUD : M .UD = true) (hFB : M .FB = true) : (Dev.reloadContext d r).kept M = d.kept M := by
  unfold Dev.reloadContext
  dsimp only; (repeat' split) <;> first | with_reducible rfl | (simp only [↓kept_select, ↓kept_regionRefresh, ↓kept_runSlot, ↓kept_setSel, hMG, hPWV, hSN, hST, hUD, hFB]; done)

@[simp] theorem kept_switchBefore (M : Blk → Bool) (d : Dev) (l : Nat) (hMG : M .MG = true) (hPWV : M .PWV = true) (hSN : M .SN = true) (hST : M .ST = true) (hUD : M .UD = true) (hFB : M .FB = true) : (Dev.switchBefore d l).kept M = d.kept M := by
  unfold Dev.switchBefore
  (repeat' split) <;> first | with_reducible rfl | (simp only [↓kept_contextSwitch, hMG, hPWV, hSN, hST, hUD, hFB]; done)

@[simp] theorem kept_gutterTake (M : Blk → Bool) (d : Dev) (l n : Nat) (hMG : M .MG = true) (hPWV : M .PWV = true) (hSN : M .SN = true) (hST : M .ST = true) (hUD : M .UD = true) (hFB : M .FB = true) : (Dev.gutterTake d l n).kept M = d.kept M := by
  induction n generalizing d with
  | zero => rfl
  | succ n ih =>
    unfold Dev.gutterTake
    split
    · rfl
    · rw [ih]; simp only [↓kept_switchBefore, ↓kept_modGut, hMG, hPWV, hSN, hST, hUD, hFB, ↓keptIte, ite_self]

@[simp] theorem kept_gutterIn (M : Blk → Bool) (d : Dev) (l : Nat) (w : GutterWord) (hFB : M .FB = true) : (Dev.gutterIn d l w).kept M = d.kept M := by
  unfold Dev.gutterIn
  dsimp only; (repeat' split) <;> first | with_reducible rfl | (simp only [↓kept_modGut, ↓kept_bump, blkR_FB_CNT_GOVF, hFB]; done)

@[simp] theorem kept_gutterOut (M : Blk → Bool) (d : Dev) (l : Nat) (w : GutterWord)  : (Dev.gutterOut d l w).kept M = d.kept M := by
  unfold Dev.gutterOut
  simp only [↓kept_modGut, ↓keptIte, ite_self]

@[simp] theorem kept_shellTake (M : Blk → Bool) (d : Dev) (l : Nat)  : (Dev.shellTake d l).kept M = d.kept M := by
  unfold Dev.shellTake
  simp only [↓kept_modGut]

@[simp] theorem kept_tickGutter (M : Blk → Bool) (d : Dev) (l : Nat)  : (Dev.tickGutter d l).kept M = d.kept M := by
  unfold Dev.tickGutter
  dsimp only; (repeat' split) <;> first | with_reducible rfl | (simp only [↓kept_modGut, ↓kept_shellTake]; done)

@[simp] theorem kept_tickGutters (M : Blk → Bool) (d : Dev)  : (Dev.tickGutters d).kept M = d.kept M := by
  unfold Dev.tickGutters
  simp only [↓kept_tickGutter, ↓keptEach, implies_true]

@[simp] theorem kept_gutterUnderrun (M : Blk → Bool) (d : Dev) (l : Nat) (between : Bool) (hFB : M .FB = true) : (Dev.gutterUnderrun d l between).kept M = d.kept M := by
  unfold Dev.gutterUnderrun
  dsimp only; (repeat' split) <;> first | with_reducible rfl | (simp only [↓kept_modGut, ↓kept_bump, blkR_FB_CNT_GUNF, hFB]; done)

@[simp] theorem kept_sparRequest (M : Blk → Bool) (d : Dev) (p : SparPort) (tag kind addr : Nat) (beats : List (Nat × Nat)) (hMG : M .MG = true) (hFB : M .FB = true) (hMT : M .MT = true) : (Dev.sparRequest d p tag kind addr beats).kept M = d.kept M := by
  unfold Dev.sparRequest
  simp only [↓kept_request_, hMG, hFB, hMT, ↓keptIte, ite_self]

@[simp] theorem kept_givePlace (M : Blk → Bool) (d : Dev) (hMG : M .MG = true) (hFB : M .FB = true) (hMT : M .MT = true) : (Dev.givePlace d).kept M = d.kept M := by
  unfold Dev.givePlace
  dsimp only; (repeat' split) <;> first | with_reducible rfl | (simp only [↓kept_modMt, ↓kept_issue, hMG, hFB, hMT]; done)

@[simp] theorem kept_markOp (M : Blk → Bool) (d : Dev) (p : SparPort) (tag : Nat) (g : Op → Op)  : (Dev.markOp d p tag g).kept M = d.kept M := by
  unfold Dev.markOp
  simp only [↓kept_modMt]

@[simp] theorem kept_guardHold (M : Blk → Bool) (d : Dev) (b : GuardedBlock) (on : Bool) (hMG : M .MG = true) (hPW : M .PW = true) (hPWV : M .PWV = true) (hCF : M .CF = true) (hTG : M .TG = true) (hSN : M .SN = true) (hUD : M .UD = true) (hDM : M .DM = true) : (Dev.guardHold d b on).kept M = d.kept M := by
  unfold Dev.guardHold
  (repeat' split) <;> first | with_reducible rfl | (simp only [↓kept_markOp]; done)

@[simp] theorem kept_guardAccept (M : Blk → Bool) (d : Dev) (b : GuardedBlock) (hMG : M .MG = true) (hPW : M .PW = true) (hPWV : M .PWV = true) (hCF : M .CF = true) (hTG : M .TG = true) (hSN : M .SN = true) (hUD : M .UD = true) (hFB : M .FB = true) (hDM : M .DM = true) : (Dev.guardAccept d b).kept M = d.kept M := by
  unfold Dev.guardAccept
  (repeat' split) <;> first | with_reducible rfl | (simp only [↓kept_gutterIn, ↓kept_gutterOut, ↓kept_guardHold, hMG, hPW, hPWV, hCF, hTG, hSN, hUD, hFB, hDM]; done)

@[simp] theorem kept_guardPoison (M : Blk → Bool) (d : Dev) (b : GuardedBlock) (hMG : M .MG = true) (hPW : M .PW = true) (hPWV : M .PWV = true) (hCF : M .CF = true) (hTG : M .TG = true) (hSN : M .SN = true) (hUD : M .UD = true) (hTS : M .TS = true) (hFB : M .FB = true) (hMT : M .MT = true) (hDM : M .DM = true) : (Dev.guardPoison d b).kept M = d.kept M := by
  unfold Dev.guardPoison
  dsimp only; (repeat' split) <;> first | with_reducible rfl | (simp only [↓kept_markOp, ↓kept_gutterIn, ↓kept_gutterOut, ↓kept_bump, ↓kept_modFb, ↓kept_unitFault, ↓kept_regionRefresh, ↓kept_wr0, ↓kept_pageInDone, blkR_TS_IE_CNT_DROP, blkR_CF_STS, hMG, hPWV, hCF, hUD, hTS, hFB, hMT, ↓keptMk]; done)

@[simp] theorem kept_guardFail (M : Blk → Bool) (d : Dev) (b : GuardedBlock) (n : Nat) (hMG : M .MG = true) (hPW : M .PW = true) (hPWV : M .PWV = true) (hCF : M .CF = true) (hTG : M .TG = true) (hSN : M .SN = true) (hUD : M .UD = true) (hTS : M .TS = true) (hFB : M .FB = true) (hMT : M .MT = true) (hDM : M .DM = true) : (Dev.guardFail d b n).kept M = d.kept M := by
  unfold Dev.guardFail
  simp only [↓kept_modMt, ↓kept_guardHold, ↓kept_poisonEvent, ↓kept_guardPoison, hMG, hPW, hPWV, hCF, hTG, hSN, hUD, hTS, hFB, hMT, hDM, ↓keptIte, ite_self]

@[simp] theorem kept_modMb (M : Blk → Bool) (d : Dev) (g : MbX → MbX)  : (Dev.modMb d g).kept M = d.kept M := by
  unfold Dev.modMb
  rfl

@[simp] theorem kept_mbPass (M : Blk → Bool) (d : Dev) (hST : M .ST = true) : (Dev.mbPass d).kept M = d.kept M := by
  unfold Dev.mbPass
  simp only [↓kept_modMb, ↓kept_wrc, blkR_ST_MPROG, hST]

@[simp] theorem kept_mbDone (M : Blk → Bool) (d : Dev) (result : Nat) (hMG : M .MG = true) (hPWV : M .PWV = true) (hST : M .ST = true) : (Dev.mbDone d result).kept M = d.kept M := by
  unfold Dev.mbDone
  simp only [↓kept_wr0, ↓kept_alert, ↓kept_modMb, ↓kept_vote, blkR_ST_MSTS, hMG, hPWV, hST, ↓keptIte, ite_self]

@[simp] theorem kept_mbPassEnd (M : Blk → Bool) (d : Dev) (hMG : M .MG = true) (hPWV : M .PWV = true) (hST : M .ST = true) : (Dev.mbPassEnd d).kept M = d.kept M := by
  unfold Dev.mbPassEnd
  simp only [↓kept_wrc, ↓kept_wr0, ↓kept_alert, ↓kept_mbPass, ↓kept_mbDone, blkR_ST_MSTS, hMG, hPWV, hST, ↓keptIte, ite_self]

@[simp] theorem kept_mbStart (M : Blk → Bool) (d : Dev) (hPWV : M .PWV = true) (hST : M .ST = true) : (Dev.mbStart d).kept M = d.kept M := by
  unfold Dev.mbStart
  simp only [↓kept_wr0, ↓kept_modMb, ↓kept_mbPass, ↓kept_vote, blkR_ST_MSTS, hPWV, hST, ↓keptIte, ite_self]

@[simp] theorem kept_mbStop (M : Blk → Bool) (d : Dev) (hMG : M .MG = true) (hPWV : M .PWV = true) (hST : M .ST = true) : (Dev.mbStop d).kept M = d.kept M := by
  unfold Dev.mbStop
  simp only [↓kept_modMb, ↓kept_mbDone, hMG, hPWV, hST, ↓keptIte, ite_self]

@[simp] theorem kept_mbFails (M : Blk → Bool) (d : Dev) (b : Nat) (fails : List BitFail) (hMG : M .MG = true) (hSN : M .SN = true) (hST : M .ST = true) (hUD : M .UD = true) : (Dev.mbFails d b fails).kept M = d.kept M := by
  unfold Dev.mbFails
  dsimp only; (repeat' split) <;> first | with_reducible rfl | (simp only [↓kept_bumpBy, ↓kept_wr0, ↓kept_fire, ↓kept_modMb, blkR_ST_MFAIL_CNT, blkR_ST_MFAIL_ADDR, blkR_ST_MFAIL_BIT, hMG, hSN, hST, hUD]; done)

@[simp] theorem kept_mbYield (M : Blk → Bool) (d : Dev) (b : Nat) (hST : M .ST = true) : (Dev.mbYield d b).kept M = d.kept M := by
  unfold Dev.mbYield
  dsimp only; (repeat' split) <;> first | with_reducible rfl | (simp only [↓kept_modMb, ↓kept_bump, ↓kept_wrc, blkR_ST_MSKIP, blkR_ST_MSTS, hST]; done)

@[simp] theorem kept_showSpares (M : Blk → Bool) (d : Dev) (bank : Nat) (hST : M .ST = true) : (Dev.showSpares d bank).kept M = d.kept M := by
  unfold Dev.showSpares
  simp only [↓kept_wrc, blkR_ST_MREP_STS, hST]

@[simp] theorem kept_repairApply (M : Blk → Bool) (d : Dev) (bank : Nat) (column : Bool) (index : Nat) (hST : M .ST = true) : (Dev.repairApply d bank column index).kept M = d.kept M := by
  unfold Dev.repairApply
  simp only [↓kept_wr0, ↓kept_showSpares, ↓kept_modMb, blkR_ST_MREP_STS, hST, ↓keptIte, ite_self]

@[simp] theorem kept_lbStart (M : Blk → Bool) (d : Dev) (r npat : Nat) (hPWV : M .PWV = true) (hST : M .ST = true) (hUD : M .UD = true) : (Dev.lbStart d r npat).kept M = d.kept M := by
  unfold Dev.lbStart
  simp only [↓kept_wr0, ↓kept_modFb, ↓kept_regionRefresh, ↓kept_vote, blkR_ST_LSTS, blkR_ST_LEXP, blkR_ST_LCMD, blkR_ST_LCNT, hPWV, hST, hUD, ↓keptIte, ite_self]

@[simp] theorem kept_lbStop (M : Blk → Bool) (d : Dev) (hMG : M .MG = true) (hPWV : M .PWV = true) (hSN : M .SN = true) (hST : M .ST = true) (hUD : M .UD = true) : (Dev.lbStop d).kept M = d.kept M := by
  unfold Dev.lbStop
  (repeat' split) <;> first | with_reducible rfl | (simp only [↓kept_lbAbort, hMG, hPWV, hSN, hST, hUD]; done)

@[simp] theorem kept_lbFinish (M : Blk → Bool) (d : Dev) (sig count : Nat) (hMG : M .MG = true) (hPWV : M .PWV = true) (hSN : M .SN = true) (hST : M .ST = true) (hUD : M .UD = true) : (Dev.lbFinish d sig count).kept M = d.kept M := by
  unfold Dev.lbFinish
  (repeat' split) <;> first | with_reducible rfl | (simp only [↓kept_lbEnd, hMG, hPWV, hSN, hST, hUD]; done)

@[simp] theorem kept_ptStart (M : Blk → Bool) (d : Dev) (l : Nat) (hMG : M .MG = true) (hPWV : M .PWV = true) (hUD : M .UD = true) (hLN : M .LN = true) (hLNT : M .LNT = true) (hCS : M .CS = true) : (Dev.ptStart d l).kept M = d.kept M := by
  unfold Dev.ptStart
  simp only [↓kept_wr, ↓kept_ptEnd, ↓kept_modLane, ↓kept_wrc, ↓kept_setKs, ↓kept_ptVote, blkR_LN_PT_ERR, blkR_LN_PT_BITS_LO, blkR_LN_PT_BITS_HI, blkR_LN_STS, blkR_LN_PT_STS, hMG, hPWV, hUD, hLN, hLNT, hCS, ↓keptIte, ite_self]

@[simp] theorem kept_writePtCtl (M : Blk → Bool) (d : Dev) (l w : Nat) (hMG : M .MG = true) (hPWV : M .PWV = true) (hUD : M .UD = true) (hLN : M .LN = true) (hLNT : M .LNT = true) (hCS : M .CS = true) : (Dev.writePtCtl d l w).kept M = d.kept M := by
  unfold Dev.writePtCtl
  simp only [↓kept_putWord, ↓kept_ptStart, ↓kept_ptEnd, blkR_LN_PT_CTL, hMG, hPWV, hUD, hLN, hLNT, hCS, ↓keptIte, ite_self, implies_true]

@[simp] theorem kept_checkEvent (M : Blk → Bool) (d : Dev) (l : Nat) (ev : CheckEvent) (hMG : M .MG = true) (hSN : M .SN = true) (hUD : M .UD = true) (hLNT : M .LNT = true) : (Dev.checkEvent d l ev).kept M = d.kept M := by
  unfold Dev.checkEvent
  dsimp only; (repeat' split) <;> first | with_reducible rfl | (simp only [↓kept_wrc, ↓kept_wr, ↓kept_bump, ↓kept_bumpBy, ↓kept_fire, blkR_LN_PT_STS, blkR_LN_PT_BITS_LO, blkR_LN_PT_BITS_HI, blkR_LN_PT_ERR, hMG, hSN, hUD, hLNT]; done)

@[simp] theorem kept_lnReject (M : Blk → Bool) (d : Dev) (l : Nat) (hLN : M .LN = true) : (Dev.lnReject d l).kept M = d.kept M := by
  unfold Dev.lnReject
  simp only [↓kept_wr, blkR_LN_STS, hLN]

@[simp] theorem kept_writeLnCtlAs (M : Blk → Bool) (d : Dev) (l w : Nat) (held : Bool) (hLN : M .LN = true) : (Dev.writeLnCtlAs d l w held).kept M = d.kept M := by
  unfold Dev.writeLnCtlAs
  simp only [↓kept_wrc, ↓kept_wr, ↓kept_modLane, ↓kept_lnReject, blkR_LN_CTL, hLN, ↓keptIte, ite_self]

@[simp] theorem kept_writeLnCtl (M : Blk → Bool) (d : Dev) (l w : Nat) (hLN : M .LN = true) : (Dev.writeLnCtl d l w).kept M = d.kept M := by
  unfold Dev.writeLnCtl
  simp only [↓kept_writeLnCtlAs, hLN]

@[simp] theorem kept_writeTxFfeAs (M : Blk → Bool) (d : Dev) (l w : Nat) (held : Bool) (hLN : M .LN = true) : (Dev.writeTxFfeAs d l w held).kept M = d.kept M := by
  unfold Dev.writeTxFfeAs
  simp only [↓kept_lnReject, ↓kept_modLane, ↓kept_putWord, blkR_LN_TX_FFE, hLN, ↓keptIte, ite_self, implies_true]

@[simp] theorem kept_writeTxFfe (M : Blk → Bool) (d : Dev) (l w : Nat) (hLN : M .LN = true) : (Dev.writeTxFfe d l w).kept M = d.kept M := by
  unfold Dev.writeTxFfe
  simp only [↓kept_writeTxFfeAs, hLN]

@[simp] theorem kept_writeRxEq (M : Blk → Bool) (d : Dev) (l w : Nat) (hLN : M .LN = true) : (Dev.writeRxEq d l w).kept M = d.kept M := by
  unfold Dev.writeRxEq
  simp only [↓kept_adaptHold, ↓kept_wrc, ↓kept_lnReject, blkR_LN_RX_EQ, hLN, ↓keptIte, ite_self]

theorem kept_rxDfe1 (M : Blk → Bool) (d : Dev) (l i j m w : Nat) (f : Fld) (hf : blk f.reg f.lo = .LN) (hLN : M .LN = true) :
    (if d.rd F.LN_RX_EQ_ADAPT l ≠ 2 ∨ dfeLimit (4 * j + m) < (signed 8 (bits w f.lo 8)).natAbs then d.lnReject l
     else d.wrc f i (bits w f.lo 8)).kept M = d.kept M := by
  split
  · exact kept_lnReject M d l hLN
  · exact kept_wrc M d f i _ (by rw [hf]; exact hLN)

@[simp] theorem kept_writeRxDfe (M : Blk → Bool) (d : Dev) (l j w : Nat) (hLN : M .LN = true) : (Dev.writeRxDfe d l j w).kept M = d.kept M := by
  unfold Dev.writeRxDfe; dsimp only
  refine (kept_rxDfe1 M _ l _ j 4 w F.LN_RX_DFE_TAPD rfl hLN).trans ?_
  refine (kept_rxDfe1 M _ l _ j 3 w F.LN_RX_DFE_TAPC rfl hLN).trans ?_
  refine (kept_rxDfe1 M _ l _ j 2 w F.LN_RX_DFE_TAPB rfl hLN).trans ?_
  exact kept_rxDfe1 M _ l _ j 1 w F.LN_RX_DFE_TAPA rfl hLN

@[simp] theorem kept_writeRxFfe (M : Blk → Bool) (d : Dev) (l w : Nat) (hLN : M .LN = true) : (Dev.writeRxFfe d l w).kept M = d.kept M := by
  unfold Dev.writeRxFfe
  simp only [↓kept_lnReject, ↓kept_modLane, hLN, ↓keptIte, ite_self]

@[simp] theorem kept_pllLost (M : Blk → Bool) (d : Dev) (p : Nat) (code : Nat) (hMG : M .MG = true) (hPWV : M .PWV = true) (hCL : M .CL = true) (hUD : M .UD = true) (hLN : M .LN = true) (hLNF : M .LNF = true) (hLNP : M .LNP = true) (hCS : M .CS = true) (hTSU : M .TSU = true) : (Dev.pllLost d p code).kept M = d.kept M := by
  unfold Dev.pllLost
  simp only [↓kept_wr, ↓kept_stopSeq, ↓kept_setTxIdle, ↓kept_wrc, ↓kept_setKs, ↓kept_laneFault, blkR_LN_PLL_STS, blkR_LN_STS, hMG, hPWV, hCL, hUD, hLN, hLNF, hLNP, hCS, hTSU, ↓keptIte, ↓keptEach, ite_self, implies_true]

@[simp] theorem kept_bareCourse (M : Blk → Bool) (d : Dev) (p n : Nat) (tps : List Nat) (hMG : M .MG = true) (hPWV : M .PWV = true) (hCL : M .CL = true) (hUD : M .UD = true) (hLN : M .LN = true) (hLNF : M .LNF = true) (hLNP : M .LNP = true) (hLNT : M .LNT = true) (hCS : M .CS = true) (hTSU : M .TSU = true) : (Dev.bareCourse d p n tps).kept M = d.kept M := by
  unfold Dev.bareCourse
  simp only [↓kept_putWord, ↓kept_wr, ↓kept_wrc, ↓kept_courseEval, blkR_CS_CTL, blkR_CS_RATE, blkR_CS_LANES, blkR_CS_ETH_CFG, blkR_CS_CPRI_CFG, blkR_UD_IDENT, blkR_UD_LINKS, blkR_UD_STATE, blkR_CS_CTX, blkR_CS_SEL, blk_proto, hMG, hPWV, hCL, hUD, hLN, hLNF, hLNP, hLNT, hCS, hTSU, ↓keptIte, ↓keptEach, ↓keptMk, ite_self, implies_true]

@[simp] theorem kept_bareBay (M : Blk → Bool) (d : Dev) (bay : Nat) (hMG : M .MG = true) (hPWV : M .PWV = true) (hCL : M .CL = true) (hUD : M .UD = true) (hLN : M .LN = true) (hLNF : M .LNF = true) (hLNP : M .LNP = true) (hLNT : M .LNT = true) (hCS : M .CS = true) (hTSU : M .TSU = true) : (Dev.bareBay d bay).kept M = d.kept M := by
  unfold Dev.bareBay
  simp only [↓kept_bareCourse, hMG, hPWV, hCL, hUD, hLN, hLNF, hLNP, hLNT, hCS, hTSU, ↓keptIte, ↓keptEach, ↓keptMk, ite_self, implies_true]

@[simp] theorem kept_bareDone (M : Blk → Bool) (d : Dev) (hCF : M .CF = true) : (Dev.bareDone d).kept M = d.kept M := by
  unfold Dev.bareDone
  simp only [↓kept_wr0, blkR_CF_STS, blkR_CF_TBARE, hCF, ↓keptIte, ite_self]

@[simp] theorem kept_remeasure (M : Blk → Bool) (d : Dev) (l : Nat)  : (Dev.remeasure d l).kept M = d.kept M := by
  unfold Dev.remeasure
  dsimp only; (repeat' split) <;> first | with_reducible rfl | (simp only [↓kept_modSeg]; done)

@[simp] theorem kept_pllLocked (M : Blk → Bool) (d : Dev) (p : Nat) (hMG : M .MG = true) (hPWV : M .PWV = true) (hCF : M .CF = true) (hCL : M .CL = true) (hUD : M .UD = true) (hLN : M .LN = true) (hLNF : M .LNF = true) (hLNP : M .LNP = true) (hLNT : M .LNT = true) (hCS : M .CS = true) (hTSU : M .TSU = true) : (Dev.pllLocked d p).kept M = d.kept M := by
  unfold Dev.pllLocked
  simp only [↓kept_wr, ↓kept_setKs, ↓kept_remeasure, ↓kept_bareBay, ↓kept_bareDone, blkR_LN_PLL_STS, hMG, hPWV, hCF, hCL, hUD, hLN, hLNF, hLNP, hLNT, hCS, hTSU, ↓keptIte, ↓keptEach, ite_self, implies_true]

@[simp] theorem kept_bareMismatch (M : Blk → Bool) (d : Dev) (id : Nat) (hMG : M .MG = true) (hUD : M .UD = true) : (Dev.bareMismatch d id).kept M = d.kept M := by
  unfold Dev.bareMismatch
  simp only [↓kept_laneFault, hMG, hUD, ↓keptIte, ↓keptEach, ite_self, implies_true]

@[simp] theorem kept_refGone (M : Blk → Bool) (d : Dev) (ref : Nat) (edges : Bool) (hMG : M .MG = true) (hPWV : M .PWV = true) (hCL : M .CL = true) (hUD : M .UD = true) (hLN : M .LN = true) (hLNF : M .LNF = true) (hLNP : M .LNP = true) (hCS : M .CS = true) (hTB : M .TB = true) (hTSU : M .TSU = true) : (Dev.refGone d ref edges).kept M = d.kept M := by
  unfold Dev.refGone
  simp only [↓kept_modRef, ↓kept_pllLost, ↓kept_pllRefresh, ↓kept_bareMismatch, ↓kept_tbRefUpdate, hMG, hPWV, hCL, hUD, hLN, hLNF, hLNP, hCS, hTB, hTSU, ↓keptIte, ↓keptEach, ↓keptMk, ite_self, implies_true]

@[simp] theorem kept_refIdentified (M : Blk → Bool) (d : Dev) (ref id hz : Nat) (hMG : M .MG = true) (hUD : M .UD = true) (hLNP : M .LNP = true) (hTB : M .TB = true) : (Dev.refIdentified d ref id hz).kept M = d.kept M := by
  unfold Dev.refIdentified
  simp only [↓kept_modRef, ↓kept_wrc, ↓kept_pllRefresh, ↓kept_bareMismatch, ↓kept_tbRefUpdate, blkR_LN_PLL_CTL, hMG, hUD, hLNP, hTB, ↓keptIte, ↓keptEach, ite_self, implies_true]

@[simp] theorem kept_detectEval (M : Blk → Bool) (d : Dev) (hMG : M .MG = true) (hPWV : M .PWV = true) (hCL : M .CL = true) (hUD : M .UD = true) (hLN : M .LN = true) (hLNF : M .LNF = true) (hLNP : M .LNP = true) (hLNT : M .LNT = true) (hCS : M .CS = true) (hTSU : M .TSU = true) : (Dev.detectEval d).kept M = d.kept M := by
  unfold Dev.detectEval
  simp only [↓kept_courseEval, hMG, hPWV, hCL, hUD, hLN, hLNF, hLNP, hLNT, hCS, hTSU, ↓keptEach, implies_true]

@[simp] theorem kept_refSpread (M : Blk → Bool) (d : Dev) (ref ppm : Nat) (above : Int) (hMG : M .MG = true) (hPWV : M .PWV = true) (hCL : M .CL = true) (hUD : M .UD = true) (hLN : M .LN = true) (hLNF : M .LNF = true) (hLNP : M .LNP = true) (hLNT : M .LNT = true) (hCS : M .CS = true) (hTB : M .TB = true) (hTSU : M .TSU = true) : (Dev.refSpread d ref ppm above).kept M = d.kept M := by
  unfold Dev.refSpread
  simp only [↓kept_modRef, ↓kept_pllRefresh, ↓kept_wrc, ↓kept_tbRefUpdate, ↓kept_detectEval, blkR_LN_PLL_STS, hMG, hPWV, hCL, hUD, hLN, hLNF, hLNP, hLNT, hCS, hTB, hTSU, ↓keptIte, ↓keptEach, ite_self, implies_true]

@[simp] theorem kept_takeoverEnd (M : Blk → Bool) (d : Dev) (l : Nat) (hMG : M .MG = true) (hPWV : M .PWV = true) (hCL : M .CL = true) (hLNF : M .LNF = true) : (Dev.takeoverEnd d l).kept M = d.kept M := by
  unfold Dev.takeoverEnd
  simp only [↓kept_modLane, ↓kept_fsRelease, ↓kept_calEnd, hMG, hPWV, hCL, hLNF]

@[simp] theorem kept_handoverCut (M : Blk → Bool) (d : Dev) (l : Nat) (hMG : M .MG = true) (hPWV : M .PWV = true) (hCL : M .CL = true) (hLNF : M .LNF = true) : (Dev.handoverCut d l).kept M = d.kept M := by
  unfold Dev.handoverCut
  simp only [↓kept_takeoverEnd, hMG, hPWV, hCL, hLNF, ↓keptIte, ite_self]

@[simp] theorem kept_lossIndication (M : Blk → Bool) (d : Dev) (l : Nat) (c : LossCause) (hMG : M .MG = true) (hPWV : M .PWV = true) (hCL : M .CL = true) (hLN : M .LN = true) (hLNF : M .LNF = true) : (Dev.lossIndication d l c).kept M = d.kept M := by
  unfold Dev.lossIndication
  simp only [↓kept_wrc, ↓kept_modLane, ↓kept_handoverCut, blkR_LN_STS, hMG, hPWV, hCL, hLN, hLNF, ↓keptIte, ite_self]

@[simp] theorem kept_lossConfirmed (M : Blk → Bool) (d : Dev) (l : Nat) (hMG : M .MG = true) (hPWV : M .PWV = true) (hSN : M .SN = true) (hCL : M .CL = true) (hUD : M .UD = true) (hLN : M .LN = true) (hLNF : M .LNF = true) (hLNP : M .LNP = true) (hLNT : M .LNT = true) (hCS : M .CS = true) (hTSU : M .TSU = true) : (Dev.lossConfirmed d l).kept M = d.kept M := by
  unfold Dev.lossConfirmed
  extract_lets tp side d1 d2 d3 d4 d5 e3
  have h1 : d1.kept M = d.kept M := by simp only [d1]; simp only [↓kept_modLane, ↓kept_bump, blkR_LN_CNT_LOL, hLN]
  have h2 : d2.kept M = d.kept M := by simp only [d2]; rw [keptIte]; split <;> (try simp only [↓kept_fire, hMG, hSN, hUD]) <;> exact h1
  have h3 : d3.kept M = d.kept M := by simp only [d3]; simp only [↓kept_calPreempt, ↓kept_wrc, blkR_LN_STS, hMG, hPWV, hCL, hLN, hLNF]; exact h2
  have h4 : d4.kept M = d.kept M := by simp only [d4]; (repeat' (rw [keptIte]; split)) <;> (try simp only [↓kept_calEnd, ↓kept_fsSet, ↓kept_calAbortNow, hMG, hPWV, hCL, hLNF]) <;> exact h3
  have h5 : d5.kept M = d.kept M := by simp only [d5]; simp only [↓kept_modLane, ↓kept_setKs, hUD, hLN, hCS]; exact h4
  have k3 : e3.kept M = d.kept M := by simp only [e3]; rw [keptIte]; split <;> (try simp only [↓kept_wrc, ↓kept_setKs, blkR_LN_STS, hUD, hLN, hCS]) <;> exact h2
  clear_value e3 d5 d4 d3 d2 d1
  rw [keptIte]; split
  · rfl
  · split
    · exact h2
    · (repeat' (rw [keptIte]; split)) <;> (try simp only [↓kept_squelch, ↓kept_segLost, ↓kept_courseEval, hMG, hPWV, hCL, hUD, hLN, hLNF, hLNP, hLNT, hCS, hTSU]) <;> assumption

@[simp] theorem kept_reacqExpired (M : Blk → Bool) (d : Dev) (l : Nat) (hMG : M .MG = true) (hPWV : M .PWV = true) (hCL : M .CL = true) (hUD : M .UD = true) (hLN : M .LN = true) (hLNF : M .LNF = true) (hCS : M .CS = true) (hTSU : M .TSU = true) : (Dev.reacqExpired d l).kept M = d.kept M := by
  unfold Dev.reacqExpired; dsimp only
  (repeat' split) <;> first
    | rfl
    | (simp only [↓kept_squelch, ↓kept_modLane, ↓kept_setKs, hMG, hPWV, hCL, hUD, hLN, hLNF, hCS, hTSU]; done)
    | (rename_i h; simp only [↓kept_modLane, ↓kept_setKs, hUD, hLN, hCS]; exact kept_fsClaim M _ _ hMG hPWV hCL hLNF hCS _ h)

@[simp] theorem kept_rescued (M : Blk → Bool) (d : Dev) (l : Nat) (hUD : M .UD = true) (hLN : M .LN = true) (hLNF : M .LNF = true) (hCS : M .CS = true) (hTSU : M .TSU = true) : (Dev.rescued d l).kept M = d.kept M := by
  unfold Dev.rescued
  simp only [↓kept_modLane, ↓kept_wrc, ↓kept_fsRelease, ↓kept_setOnFs, ↓kept_setKs, ↓kept_fsSet, ↓kept_onSlice, blkR_LN_STS, hUD, hLN, hLNF, hCS, hTSU, ↓keptIte, ite_self]

@[simp] theorem kept_unsquelch (M : Blk → Bool) (d : Dev) (l : Nat) (hUD : M .UD = true) (hLN : M .LN = true) (hCS : M .CS = true) : (Dev.unsquelch d l).kept M = d.kept M := by
  unfold Dev.unsquelch
  simp only [↓kept_setTxIdle, ↓kept_wrc, ↓kept_setKs, blkR_LN_STS, hUD, hLN, hCS, ↓keptIte, ite_self]

@[simp] theorem kept_handoverSwitch (M : Blk → Bool) (d : Dev) (l : Nat) (off : Int) (hMG : M .MG = true) (hPW : M .PW = true) (hPWV : M .PWV = true) (hCF : M .CF = true) (hTG : M .TG = true) (hSN : M .SN = true) (hCL : M .CL = true) (hUD : M .UD = true) (hLN : M .LN = true) (hLNF : M .LNF = true) (hLNP : M .LNP = true) (hLNT : M .LNT = true) (hCS : M .CS = true) (hTSU : M .TSU = true) (hDM : M .DM = true) : (Dev.handoverSwitch d l off).kept M = d.kept M := by
  unfold Dev.handoverSwitch
  simp only [↓kept_fsSet, ↓kept_setOnFs, ↓kept_bump, ↓kept_modLane, ↓kept_wr0, ↓kept_setKs, ↓kept_laneBoundary, ↓kept_fsRelease, ↓kept_calEnd, blkR_LN_CNT_RESCUE, blkR_CL_STS, hMG, hPW, hPWV, hCF, hTG, hSN, hCL, hUD, hLN, hLNF, hLNP, hLNT, hCS, hTSU, hDM, ↓keptIte, ↓keptMk, ite_self]

@[simp] theorem kept_laneIdleEntry (M : Blk → Bool) (d : Dev) (l : Nat) (hMG : M .MG = true) (hPW : M .PW = true) (hPWV : M .PWV = true) (hCF : M .CF = true) (hTG : M .TG = true) (hSN : M .SN = true) (hCL : M .CL = true) (hUD : M .UD = true) (hLN : M .LN = true) (hLNF : M .LNF = true) (hLNP : M .LNP = true) (hLNT : M .LNT = true) (hCS : M .CS = true) (hTSU : M .TSU = true) (hDM : M .DM = true) : (Dev.laneIdleEntry d l).kept M = d.kept M := by
  unfold Dev.laneIdleEntry
  simp only [↓kept_calAbortNow, ↓kept_setOnFs, ↓kept_modLane, ↓kept_setTxIdle, ↓kept_bump, ↓kept_setKs, ↓kept_laneIdleShown, ↓kept_laneBoundary, blkR_LN_CNT_IDLE, hMG, hPW, hPWV, hCF, hTG, hSN, hCL, hUD, hLN, hLNF, hLNP, hLNT, hCS, hTSU, hDM, ↓keptIte, ite_self]

@[simp] theorem kept_signalLost (M : Blk → Bool) (d : Dev) (l : Nat) (lpi : Bool) (hMG : M .MG = true) (hPW : M .PW = true) (hPWV : M .PWV = true) (hCF : M .CF = true) (hTG : M .TG = true) (hSN : M .SN = true) (hCL : M .CL = true) (hUD : M .UD = true) (hLN : M .LN = true) (hLNF : M .LNF = true) (hLNP : M .LNP = true) (hLNT : M .LNT = true) (hCS : M .CS = true) (hTSU : M .TSU = true) (hDM : M .DM = true) : (Dev.signalLost d l lpi).kept M = d.kept M := by
  unfold Dev.signalLost
  extract_lets side d0 ks
  have h0 : d0.kept M = d.kept M := by simp only [d0, ↓kept_wr, blkR_LN_STS, hLN]
  clear_value ks d0
  rw [keptIte]; split
  · rfl
  · split
    · exact h0
    · extract_lets pci carrying outside d1 k seg eth watch d2 e2 d3
      have h1 : d1.kept M = d.kept M := by simp only [d1]; rw [keptIte]; split <;> (try simp only [↓kept_modLane, ↓kept_handoverCut, hMG, hPWV, hCL, hLNF]) <;> exact h0
      have h2 : d2.kept M = d.kept M := by simp only [d2]; rw [keptIte]; split <;> (try simp only [↓kept_modSeg]) <;> exact h1
      have k2 : e2.kept M = d.kept M := by simp only [e2]; rw [keptIte]; split <;> (try simp only [↓kept_forwardIdle]) <;> exact h2
      have h3 : d3.kept M = d.kept M := by simp only [d3]; rw [keptIte]; split <;> (try simp only [↓kept_setTxIdle]) <;> exact k2
      clear_value d3 e2 d2 d1 outside carrying pci
      (repeat' (rw [keptIte]; split)) <;> (try simp only [↓kept_laneIdleEntry, ↓kept_laneFault, ↓kept_modLane, ↓kept_squelch, ↓kept_courseEval, hMG, hPW, hPWV, hCF, hTG, hSN, hCL, hUD, hLN, hLNF, hLNP, hLNT, hCS, hTSU, hDM]) <;> assumption

@[simp] theorem kept_idleForwarded (M : Blk → Bool) (d : Dev) (n l : Nat)  : (Dev.idleForwarded d n l).kept M = d.kept M := by
  unfold Dev.idleForwarded
  simp only [↓kept_setTxIdle, ↓keptIte, ite_self]

@[simp] theorem kept_signalFound (M : Blk → Bool) (d : Dev) (l : Nat) (hMG : M .MG = true) (hPW : M .PW = true) (hPWV : M .PWV = true) (hCF : M .CF = true) (hTG : M .TG = true) (hSN : M .SN = true) (hCL : M .CL = true) (hUD : M .UD = true) (hLN : M .LN = true) (hLNF : M .LNF = true) (hLNP : M .LNP = true) (hLNT : M .LNT = true) (hCS : M .CS = true) (hTSU : M .TSU = true) (hDM : M .DM = true) : (Dev.signalFound d l).kept M = d.kept M := by
  unfold Dev.signalFound
  extract_lets side d0 d1 d2
  have h0 : d0.kept M = d.kept M := by simp only [d0]; simp only [↓kept_wr, ↓kept_modLane, blkR_LN_STS, hLN]
  have h1 : d1.kept M = d.kept M := by simp only [d1]; rw [keptIte]; split <;> (try simp only [↓kept_modLane, ↓kept_ptAbort, hMG, hPWV, hUD, hLN, hLNT, hCS]) <;> exact h0
  have h2 : d2.kept M = d.kept M := by simp only [d2]; rw [keptIte]; split <;> (try simp only [↓kept_wake, hMG, hPW, hPWV, hCF, hTG, hSN, hUD, hDM]) <;> exact h1
  clear_value d2 d1 d0
  rw [keptIte]; split
  · rfl
  · split
    · exact h2
    · extract_lets k quiet d3 e3 d4
      have h3 : d3.kept M = d.kept M := by simp only [d3]; rw [keptIte]; split <;> (try simp only [↓kept_modSeg]) <;> exact h2
      have k3 : e3.kept M = d.kept M := by simp only [e3]; simp only [↓kept_idleForwarded]; exact h3
      have h4 : d4.kept M = d.kept M := by simp only [d4]; rw [keptIte]; split <;> (try simp only [↓kept_forwardIdle]) <;> exact k3
      clear_value d4 e3 d3
      simp only [↓kept_courseEval, hMG, hPWV, hCL, hUD, hLN, hLNF, hLNP, hLNT, hCS, hTSU]; exact h4

@[simp] theorem kept_learnPos (M : Blk → Bool) (d : Dev) (n : Nat) (hCS : M .CS = true) : (Dev.learnPos d n).kept M = d.kept M := by
  unfold Dev.learnPos
  (repeat' split) <;> first | with_reducible rfl | (simp only [↓kept_wr, blkR_CS_PCI_STS, hCS]; done)

@[simp] theorem kept_learnPresets (M : Blk → Bool) (d : Dev) (n : Nat) (s : Side) (l : Nat) (f : TsFields)  : (Dev.learnPresets d n s l f).kept M = d.kept M := by
  unfold Dev.learnPresets
  dsimp only; (repeat' split) <;> first | with_reducible rfl | (simp only [↓kept_modLane]; done)

@[simp] theorem kept_eqShow (M : Blk → Bool) (d : Dev) (n : Nat) (s : Side)  : (Dev.eqShow d n s).kept M = d.kept M := by
  unfold Dev.eqShow
  simp only [↓kept_modLane, ↓keptEach, implies_true]

@[simp] theorem kept_eqStart (M : Blk → Bool) (d : Dev) (n : Nat) (s : Side) (p : Nat)  : (Dev.eqStart d n s p).kept M = d.kept M := by
  unfold Dev.eqStart
  simp only [↓kept_modSeg, ↓kept_modLane, ↓keptIte, ↓keptEach, ite_self, implies_true]

@[simp] theorem kept_eqEnd (M : Blk → Bool) (d : Dev) (n : Nat) (s : Side)  : (Dev.eqEnd d n s).kept M = d.kept M := by
  unfold Dev.eqEnd
  simp only [↓kept_modSeg, ↓keptIte, ite_self]

theorem eqFld_blk (r : Nat) (f : Fld) (h : eqFld r = some f) : blk f.reg f.lo = .CS := by
  unfold eqFld at h; (repeat' split at h) <;> cases h <;> rfl

@[simp] theorem kept_eqEval (M : Blk → Bool) (d : Dev) (n : Nat) (hCS : M .CS = true) : (Dev.eqEval d n).kept M = d.kept M := by
  unfold Dev.eqEval
  extract_lets one d1 d2
  have ho : ∀ e b s, (one e b s).kept M = e.kept M := by
    intro e b s; simp only [one]; rw [keptIte]; split <;> (try simp only [↓kept_eqEnd])
  have h2 : d2.kept M = d.kept M := by simp only [d2]; simp only [↓kept_eqShow]; simp only [d1, ho]
  clear_value d2 d1
  split
  · rename_i fl hfl
    rw [keptIte]; split
    · rw [kept_wrc M _ _ _ _ (by rw [eqFld_blk _ _ hfl]; exact hCS)]; exact h2
    · exact h2
  · exact h2

@[simp] theorem kept_outsideIdle (M : Blk → Bool) (d : Dev) (n : Nat) (hMG : M .MG = true) (hPW : M .PW = true) (hPWV : M .PWV = true) (hCF : M .CF = true) (hTG : M .TG = true) (hSN : M .SN = true) (hCL : M .CL = true) (hUD : M .UD = true) (hLN : M .LN = true) (hLNF : M .LNF = true) (hLNP : M .LNP = true) (hLNT : M .LNT = true) (hCS : M .CS = true) (hTSU : M .TSU = true) (hDM : M .DM = true) : (Dev.outsideIdle d n).kept M = d.kept M := by
  unfold Dev.outsideIdle
  simp only [↓kept_laneIdleEntry, hMG, hPW, hPWV, hCF, hTG, hSN, hCL, hUD, hLN, hLNF, hLNP, hLNT, hCS, hTSU, hDM, ↓keptEach, implies_true]

@[simp] theorem kept_seeTs (M : Blk → Bool) (d : Dev) (n : Nat) (s : Side) (l : Nat) (f : TsFields) (hMG : M .MG = true) (hPW : M .PW = true) (hPWV : M .PWV = true) (hCF : M .CF = true) (hTG : M .TG = true) (hSN : M .SN = true) (hCL : M .CL = true) (hUD : M .UD = true) (hLN : M .LN = true) (hLNF : M .LNF = true) (hLNP : M .LNP = true) (hLNT : M .LNT = true) (hCS : M .CS = true) (hTSU : M .TSU = true) (hDM : M .DM = true) : (Dev.seeTs d n s l f).kept M = d.kept M := by
  unfold Dev.seeTs
  extract_lets k d0 d1 d2i d2 d3
  have h0 : d0.kept M = d.kept M := by simp only [d0]; simp only [↓kept_learnPresets, ↓kept_modSeg]
  have h1 : d1.kept M = d.kept M := by simp only [d1]; rw [keptIte]; split <;> (try simp only [↓kept_wrc, blkR_LN_STS, hLN]) <;> exact h0
  have h2i : d2i.kept M = d.kept M := by simp only [d2i]; rw [keptIte]; split <;> (try simp only [↓kept_modSeg, ↓kept_learnPos, hCS]) <;> exact h1
  have h2 : d2.kept M = d.kept M := by simp only [d2]; (repeat' (rw [keptIte]; split)) <;> (try simp only [↓kept_modSeg, ↓kept_wrc, ↓kept_learnPos, ↓kept_outsideIdle, blkR_LN_STS, blkR_CS_PCI_STS, hMG, hPW, hPWV, hCF, hTG, hSN, hCL, hUD, hLN, hLNF, hLNP, hLNT, hCS, hTSU, hDM]) <;> assumption
  have h3 : d3.kept M = d.kept M := by simp only [d3]; rw [keptIte]; split <;> (try simp only [↓kept_eqStart]) <;> exact h2
  clear_value d3 d2 d2i d1 d0
  rw [keptIte]; split
  · simp only [↓kept_modSeg, ↓kept_eqEval, hCS]; exact h3
  · exact h2

@[simp] theorem kept_recovery (M : Blk → Bool) (d : Dev) (n : Nat) (s : Side) (hMG : M .MG = true) (hPWV : M .PWV = true) (hCL : M .CL = true) (hUD : M .UD = true) (hLN : M .LN = true) (hLNF : M .LNF = true) (hLNP : M .LNP = true) (hLNT : M .LNT = true) (hCS : M .CS = true) (hTSU : M .TSU = true) : (Dev.recovery d n s).kept M = d.kept M := by
  unfold Dev.recovery
  simp only [↓kept_bump, ↓kept_courseEval, ↓kept_segTrain, blkR_CS_PCI_CNT_REC, hMG, hPWV, hCL, hUD, hLN, hLNF, hLNP, hLNT, hCS, hTSU, ↓keptIte, ite_self]

@[simp] theorem kept_segL0 (M : Blk → Bool) (d : Dev) (n : Nat) (s : Side) (hMG : M .MG = true) (hPWV : M .PWV = true) (hCL : M .CL = true) (hUD : M .UD = true) (hLN : M .LN = true) (hLNF : M .LNF = true) (hLNP : M .LNP = true) (hLNT : M .LNT = true) (hCS : M .CS = true) (hTSU : M .TSU = true) : (Dev.segL0 d n s).kept M = d.kept M := by
  unfold Dev.segL0
  simp only [↓kept_modSeg, ↓kept_wrc, ↓kept_segsReady, ↓kept_courseEval, blkF_ltssmFld, hMG, hPWV, hCL, hUD, hLN, hLNF, hLNP, hLNT, hCS, hTSU]

@[simp] theorem kept_phaseZero (M : Blk → Bool) (d : Dev) (n rate : Nat) (hLN : M .LN = true) : (Dev.phaseZero d n rate).kept M = d.kept M := by
  unfold Dev.phaseZero
  rw [keptIte]; split
  · rfl
  · refine keptEach M _ _ (fun l d => ?_) d
    split
    · rw [keptIte]; split <;> (try simp only [↓kept_setTaps, hLN])
    · rfl

@[simp] theorem kept_speedChange (M : Blk → Bool) (d : Dev) (n rate : Nat) (hPWV : M .PWV = true) (hLN : M .LN = true) (hLNP : M .LNP = true) (hCS : M .CS = true) : (Dev.speedChange d n rate).kept M = d.kept M := by
  unfold Dev.speedChange
  simp only [↓kept_shellRaise, ↓kept_modCourse, ↓kept_laneToRate, ↓kept_modLane, ↓kept_shellRelease, ↓kept_phaseZero, ↓kept_wr, ↓kept_bump, ↓kept_modSegs, blkR_CS_RATE, blkR_CS_PCI_CNT_SPD, hPWV, hLN, hLNP, hCS, ↓keptIte, ↓keptEach, ite_self, implies_true]

@[simp] theorem kept_marginReply (M : Blk → Bool) (d : Dev) (n l : Nat) (a : MarginAnswer) (hCS : M .CS = true) : (Dev.marginReply d n l a).kept M = d.kept M := by
  unfold Dev.marginReply
  simp only [↓kept_modLane, ↓kept_bump, blkR_CS_PCI_CNT_NAK, hCS, ↓keptIte, ite_self]

@[simp] theorem kept_marginStep (M : Blk → Bool) (d : Dev) (n l : Nat) (s : Side) (cmd : MarginCmd) (hLNF : M .LNF = true) (hCS : M .CS = true) : (Dev.marginStep d n l s cmd).kept M = d.kept M := by
  unfold Dev.marginStep
  simp only [↓kept_marginReply, ↓kept_modLane, ↓kept_fsSet, ↓kept_wrc, ↓kept_draw, blkR_CS_PCI_MRG, hLNF, hCS, ↓keptIte, ite_self]

@[simp] theorem kept_followRate (M : Blk → Bool) (d : Dev) (n : Nat) (side : Side) (l rate : Nat) (hPWV : M .PWV = true) (hLN : M .LN = true) (hLNP : M .LNP = true) : (Dev.followRate d n side l rate).kept M = d.kept M := by
  unfold Dev.followRate
  simp only [↓kept_shellRaise, ↓kept_modSeg, ↓kept_rxToRate, ↓kept_wrc, ↓kept_modLane, ↓kept_shellRelease, blkR_LN_STS, hPWV, hLN, hLNP, ↓keptIte, ite_self]

@[simp] theorem kept_commonRate (M : Blk → Bool) (d : Dev) (n : Nat) (hCS : M .CS = true) : (Dev.commonRate d n).kept M = d.kept M := by
  unfold Dev.commonRate
  simp only [↓kept_wr, ↓kept_bump, blkR_CS_RATE, blkR_CS_CPRI_CNT_RATE, hCS, ↓keptIte, ite_self]

@[simp] theorem kept_message (M : Blk → Bool) (d : Dev) (r : Nat) (g : Dev → Dev) (hg : ∀ d : Dev, (g d).kept M = d.kept M)  : (Dev.message d r g).kept M = d.kept M := by
  unfold Dev.message
  rw [keptIte]; split
  · rfl
  · rw [keptIte]; split
    · simp only [↓kept_modFb]
    · rw [hg]; rfl

@[simp] theorem kept_cswResult (M : Blk → Bool) (d : Dev) (r v : Nat)  : (Dev.cswResult d r v).kept M = d.kept M := by
  unfold Dev.cswResult
  simp only [↓kept_modFb]

@[simp] theorem kept_cswReq (M : Blk → Bool) (d : Dev) (r : Nat) (c : Ctx) (hMG : M .MG = true) (hPWV : M .PWV = true) (hSN : M .SN = true) (hST : M .ST = true) (hUD : M .UD = true) (hFB : M .FB = true) : (Dev.cswReq d r c).kept M = d.kept M := by
  unfold Dev.cswReq
  simp only [↓kept_lbAbort, ↓kept_cswResult, ↓kept_draw, ↓kept_select, hMG, hPWV, hSN, hST, hUD, hFB, ↓keptIte, ite_self]

@[simp] theorem kept_shellResume (M : Blk → Bool) (d : Dev) (n : Nat) (hPWV : M .PWV = true) (hLN : M .LN = true) (hLNP : M .LNP = true) (hCS : M .CS = true) : (Dev.shellResume d n).kept M = d.kept M := by
  unfold Dev.shellResume; dsimp only
  rw [keptFoldl]
  · split <;> simp only [↓kept_speedChange, hPWV, hLN, hLNP, hCS]
  · intro d s; (repeat' split) <;> simp only [↓kept_followRate, hPWV, hLN, hLNP]

@[simp] theorem kept_gutterAcks (M : Blk → Bool) (d : Dev) (l took : Nat) (hMG : M .MG = true) (hPWV : M .PWV = true) (hSN : M .SN = true) (hST : M .ST = true) (hUD : M .UD = true) (hFB : M .FB = true) : (Dev.gutterAcks d l took).kept M = d.kept M := by
  unfold Dev.gutterAcks
  simp only [↓kept_gutterTake, hMG, hPWV, hSN, hST, hUD, hFB, ↓keptIte, ite_self]

@[simp] theorem kept_pgResult (M : Blk → Bool) (d : Dev) (r v : Nat) (hFB : M .FB = true) : (Dev.pgResult d r v).kept M = d.kept M := by
  unfold Dev.pgResult
  simp only [↓kept_wr, blkR_FB_PGSTS, hFB]

@[simp] theorem kept_pgPrefetch (M : Blk → Bool) (d : Dev) (r p : Nat) (hPWV : M .PWV = true) (hUD : M .UD = true) (hFB : M .FB = true) : (Dev.pgPrefetch d r p).kept M = d.kept M := by
  unfold Dev.pgPrefetch
  (repeat' split) <;> first
    | (simp only [↓kept_pgResult, ↓kept_wr, blkR_FB_PGSTS, hFB]; done)
    | (rename_i h; simp only [↓kept_pgResult, ↓kept_wr, blkR_FB_PGSTS, hFB]; exact kept_startPageIn M _ _ _ _ hPWV hUD hFB _ h)

@[simp] theorem kept_pgPin (M : Blk → Bool) (d : Dev) (r p : Nat) (on : Bool) (hFB : M .FB = true) : (Dev.pgPin d r p on).kept M = d.kept M := by
  unfold Dev.pgPin
  dsimp only; (repeat' split) <;> first | with_reducible rfl | (simp only [↓kept_pgResult, ↓kept_wr, blkR_FB_SLOT, hFB]; done)

@[simp] theorem kept_pgEvict (M : Blk → Bool) (d : Dev) (r p : Nat) (hUD : M .UD = true) (hFB : M .FB = true) : (Dev.pgEvict d r p).kept M = d.kept M := by
  unfold Dev.pgEvict
  dsimp only; (repeat' split) <;> first | with_reducible rfl | (simp only [↓kept_pgResult, ↓kept_wr, ↓kept_wrc, ↓kept_modFb, ↓kept_ctxRefresh, blkR_FB_SLOT, hUD, hFB]; done)

@[simp] theorem kept_modPu (M : Blk → Bool) (d : Dev) (g : PuX → PuX)  : (Dev.modPu d g).kept M = d.kept M := by
  unfold Dev.modPu
  rfl

@[simp] theorem kept_setPte (M : Blk → Bool) (d : Dev) (p : Nat) (e : Pte)  : (Dev.setPte d p e).kept M = d.kept M := by
  unfold Dev.setPte
  simp only [↓kept_modPu]

@[simp] theorem kept_showFree (M : Blk → Bool) (d : Dev) (hPU : M .PU = true) : (Dev.showFree d).kept M = d.kept M := by
  unfold Dev.showFree
  simp only [↓kept_wrc, blkR_PU_STS, hPU]

@[simp] theorem kept_freePages (M : Blk → Bool) (d : Dev) (ps : List Nat) (hPU : M .PU = true) : (Dev.freePages d ps).kept M = d.kept M := by
  unfold Dev.freePages
  simp only [↓kept_modPu, ↓kept_showFree, hPU]

@[simp] theorem kept_setQueue (M : Blk → Bool) (d : Dev) (q ks : Nat) (hUD : M .UD = true) (hPU : M .PU = true) : (Dev.setQueue d q ks).kept M = d.kept M := by
  unfold Dev.setQueue
  dsimp only; (repeat' split) <;> first | with_reducible rfl | (simp only [↓kept_wrc, ↓kept_publish, blkR_PU_QSTS, hUD, hPU]; done)

@[simp] theorem kept_queueCode (M : Blk → Bool) (d : Dev) (q code : Nat) (hMG : M .MG = true) (hUD : M .UD = true) (hPU : M .PU = true) : (Dev.queueCode d q code).kept M = d.kept M := by
  unfold Dev.queueCode
  dsimp only; (repeat' split) <;> first | with_reducible rfl | (simp only [↓kept_wr, ↓kept_unitFault, blkR_PU_QSTS, hMG, hUD, hPU]; done)

@[simp] theorem kept_queueFault (M : Blk → Bool) (d : Dev) (q : Nat) (hMG : M .MG = true) (hUD : M .UD = true) (hPU : M .PU = true) : (Dev.queueFault d q).kept M = d.kept M := by
  unfold Dev.queueFault
  simp only [↓kept_queueCode, ↓kept_setQueue, hMG, hUD, hPU]

@[simp] theorem kept_usePages (M : Blk → Bool) (d : Dev) (q add sub : Nat) (hPU : M .PU = true) : (Dev.usePages d q add sub).kept M = d.kept M := by
  unfold Dev.usePages
  simp only [↓kept_wrc, blkR_PU_QPAGES, blkR_PU_GUSED, hPU, ↓keptEach, implies_true]

@[simp] theorem kept_linkRecord (M : Blk → Bool) (d : Dev) (q len : Nat) (ps : List Nat) (hPU : M .PU = true) : (Dev.linkRecord d q len ps).kept M = d.kept M := by
  unfold Dev.linkRecord
  simp only [↓kept_setPte, ↓kept_wrc, blkR_PU_QHEAD, blkR_PU_QTAIL, hPU, ↓keptIte, ↓keptEach, ite_self, implies_true]

@[simp] theorem kept_dropRecord (M : Blk → Bool) (d : Dev) (q st : Nat) (hUD : M .UD = true) (hPU : M .PU = true) : (Dev.dropRecord d q st).kept M = d.kept M := by
  unfold Dev.dropRecord
  simp only [↓kept_bump, ↓kept_setQueue, blkR_PU_CNT_DROPCAP, blkR_PU_CNT_DROPPOOL, blkR_PU_QDROP, hUD, hPU, ↓keptIte, ite_self]

@[simp] theorem kept_queueAnswer (M : Blk → Bool) (d : Dev) (who port : Nat) (a : QAnswer)  : (Dev.queueAnswer d who port a).kept M = d.kept M := by
  unfold Dev.queueAnswer
  simp only [↓kept_modPu, ↓keptIte, ite_self]

@[simp] theorem kept_answerNotifies (M : Blk → Bool) (d : Dev) (hPWV : M .PWV = true) : (Dev.answerNotifies d).kept M = d.kept M := by
  unfold Dev.answerNotifies
  simp only [↓kept_modPu, ↓kept_queueAnswer, ↓kept_purlinVote, hPWV, ↓keptFoldl, implies_true]

@[simp] theorem kept_queueFlush (M : Blk → Bool) (d : Dev) (q : Nat) (hUD : M .UD = true) (hPU : M .PU = true) : (Dev.queueFlush d q).kept M = d.kept M := by
  unfold Dev.queueFlush
  simp only [↓kept_wr, ↓kept_setQueue, blkR_PU_QCFG, hUD, hPU]

@[simp] theorem kept_queueEnable (M : Blk → Bool) (d : Dev) (q : Nat) (hUD : M .UD = true) (hPU : M .PU = true) : (Dev.queueEnable d q).kept M = d.kept M := by
  unfold Dev.queueEnable
  simp only [↓kept_modPu, ↓kept_wr, ↓kept_setQueue, blkR_PU_QCFG, hUD, hPU, ↓keptIte, ite_self]

@[simp] theorem kept_readPte (M : Blk → Bool) (d : Dev) (p : Nat) (seen : EccSeen) (hMG : M .MG = true) (hSN : M .SN = true) (hUD : M .UD = true)
    (hPU : M .PU = true) : (Dev.readPte d p seen).1.kept M = d.kept M := by
  unfold Dev.readPte
  cases seen <;> simp only [↓kept_bump, ↓kept_fire, ↓kept_setPte, blkR_PU_CNT_PTCE, blkR_PU_CNT_PTUE, hMG, hSN, hUD, hPU]

@[simp] theorem kept_sweepEntry (M : Blk → Bool) (d : Dev) (q p : Nat) (seen : EccSeen) (hMG : M .MG = true) (hSN : M .SN = true) (hUD : M .UD = true) (hPU : M .PU = true) : (Dev.sweepEntry d q p seen).kept M = d.kept M := by
  unfold Dev.sweepEntry
  extract_lets e r
  have h0 : r.1.kept M = d.kept M := kept_readPte M d p seen hMG hSN hUD hPU
  clear_value r
  (repeat' (rw [keptIte]; split)) <;> (try simp only [↓kept_queueFault, ↓kept_modPu, ↓kept_showFree, hMG, hUD, hPU]) <;> exact h0

@[simp] theorem kept_sweepDone (M : Blk → Bool) (d : Dev) (q : Nat) (hMG : M .MG = true) (hPWV : M .PWV = true) (hUD : M .UD = true) (hPU : M .PU = true) : (Dev.sweepDone d q).kept M = d.kept M := by
  unfold Dev.sweepDone
  simp only [↓kept_usePages, ↓kept_wrc, ↓kept_freePages, ↓kept_queueCode, ↓kept_modPu, ↓kept_wr, ↓kept_setQueue, ↓kept_purlinVote, blkR_PU_QDEPTH, blkR_PU_QSTS, blkR_PU_QCFG, hMG, hPWV, hUD, hPU, ↓keptIte, ite_self]

@[simp] theorem kept_wipeStart (M : Blk → Bool) (d : Dev) (hMT : M .MT = true) : (Dev.wipeStart d).kept M = d.kept M := by
  unfold Dev.wipeStart
  simp only [↓kept_wrc, ↓kept_modDm, blkR_MT_STS, hMT, ↓keptIte, ite_self]

@[simp] theorem kept_wipeDone (M : Blk → Bool) (d : Dev) (hMG : M .MG = true) (hPWV : M .PWV = true) (hUD : M .UD = true) (hDM : M .DM = true) : (Dev.wipeDone d).kept M = d.kept M := by
  unfold Dev.wipeDone
  simp only [↓kept_modDm, ↓kept_vote, ↓kept_ringOpen, hMG, hPWV, hUD, hDM, ↓keptIte, ite_self]

@[simp] theorem kept_tamper (M : Blk → Bool) (d : Dev) (src : Nat) (hMG : M .MG = true) (hPW : M .PW = true) (hPWV : M .PWV = true) (hCF : M .CF = true) (hTG : M .TG = true) (hSN : M .SN = true) (hUD : M .UD = true) (hMT : M .MT = true) (hDM : M .DM = true) : (Dev.tamper d src).kept M = d.kept M := by
  unfold Dev.tamper
  simp only [↓kept_modDm, ↓kept_alert, ↓kept_ringDrop, ↓kept_setMeters, ↓kept_gateRelock, ↓kept_vote, ↓kept_wipeStart, ↓kept_wake, hMG, hPW, hPWV, hCF, hTG, hSN, hUD, hMT, hDM, ↓keptIte, ite_self]

@[simp] theorem kept_recordShown (M : Blk → Bool) (d : Dev) (seq : Nat) (hPWV : M .PWV = true) (hDM : M .DM = true) : (Dev.recordShown d seq).kept M = d.kept M := by
  unfold Dev.recordShown
  simp only [↓kept_wr0, ↓kept_modDm, ↓kept_restCheck, blkR_DM_SEQ_NEW, blkR_DM_SEQ_OLD, hPWV, hDM]

@[simp] theorem kept_recordFailed (M : Blk → Bool) (d : Dev) (hMG : M .MG = true) (hPWV : M .PWV = true) (hUD : M .UD = true) (hDM : M .DM = true) : (Dev.recordFailed d).kept M = d.kept M := by
  unfold Dev.recordFailed
  simp only [↓kept_modDm, ↓kept_setMeters, ↓kept_restCheck, hMG, hPWV, hUD, hDM, ↓keptIte, ite_self]

@[simp] theorem kept_refuseYealm (M : Blk → Bool) (d : Dev) (code : Nat) (hMG : M .MG = true) (hPWV : M .PWV = true) (hUD : M .UD = true) (hDM : M .DM = true) : (Dev.refuseYealm d code).kept M = d.kept M := by
  unfold Dev.refuseYealm
  simp only [↓kept_unseal, ↓kept_wr0, ↓kept_alert, blkR_DM_STS, hMG, hPWV, hUD, hDM]

@[simp] theorem kept_loadSlice (M : Blk → Bool) (d : Dev) (y : SealedYealm) (hDM : M .DM = true) : (Dev.loadSlice d y).kept M = d.kept M := by
  unfold Dev.loadSlice
  simp only [↓kept_wrc, blkR_DM_CFG, blkR_DM_MLIST, hDM, ↓keptEach, implies_true]

@[simp] theorem kept_regionVotes (M : Blk → Bool) (d : Dev) (r : Nat) (hPWV : M .PWV = true) : (Dev.regionVotes d r).kept M = d.kept M := by
  unfold Dev.regionVotes
  dsimp only; (repeat' split) <;> first | with_reducible rfl | (simp only [↓kept_vote, hPWV, ↓keptEach, implies_true]; done)

@[simp] theorem kept_profilePlls (M : Blk → Bool) (d : Dev) (bay : Nat) (hLNP : M .LNP = true) : (Dev.profilePlls d bay).kept M = d.kept M := by
  unfold Dev.profilePlls
  simp only [↓kept_retune, hLNP, ↓keptIte, ite_self]

@[simp] theorem kept_loadFailed (M : Blk → Bool) (d : Dev) (r : Nat) (hMG : M .MG = true) (hCF : M .CF = true) (hUD : M .UD = true) : (Dev.loadFailed d r).kept M = d.kept M := by
  unfold Dev.loadFailed
  simp only [↓kept_modFb, ↓kept_unitFault, ↓kept_wr0, blkR_CF_STS, hMG, hCF, hUD, ↓keptIte, ite_self]

@[simp] theorem kept_regionRaised (M : Blk → Bool) (d : Dev) (r was : Nat) (loadOk : Bool) (hMG : M .MG = true) (hPWV : M .PWV = true) (hCF : M .CF = true) (hSN : M .SN = true) (hST : M .ST = true) (hUD : M .UD = true) (hFB : M .FB = true) (hMT : M .MT = true) : (Dev.regionRaised d r was loadOk).kept M = d.kept M := by
  unfold Dev.regionRaised
  simp only [↓kept_modFb, ↓kept_regionVotes, ↓kept_reloadContext, ↓kept_loadFailed, ↓kept_showLimit, ↓kept_regionRefresh, ↓kept_admitWaiting, hMG, hPWV, hCF, hSN, hST, hUD, hFB, hMT, ↓keptIte, ite_self]

@[simp] theorem kept_queuesLost (M : Blk → Bool) (d : Dev) (hUD : M .UD = true) : (Dev.queuesLost d).kept M = d.kept M := by
  unfold Dev.queuesLost
  simp only [↓kept_publish, hUD, ↓keptEach, implies_true]

@[simp] theorem kept_regionClamp (M : Blk → Bool) (d : Dev) (r : Nat) (hUD : M .UD = true) : (Dev.regionClamp d r).kept M = d.kept M := by
  unfold Dev.regionClamp
  simp only [↓kept_modMt, ↓kept_modPu, ↓kept_slotRefresh, hUD, ↓keptEach, implies_true]

@[simp] theorem kept_noCore (M : Blk → Bool) (d : Dev) (hMG : M .MG = true) (hPW : M .PW = true) (hPWV : M .PWV = true) (hCF : M .CF = true) (hTG : M .TG = true) (hSN : M .SN = true) (hUD : M .UD = true) (hDM : M .DM = true) : (Dev.noCore d).kept M = d.kept M := by
  unfold Dev.noCore
  simp only [↓kept_loaderEnd, hMG, hPW, hPWV, hCF, hTG, hSN, hUD, hDM, ↓keptIte, ite_self]

@[simp] theorem kept_hostVotes (M : Blk → Bool) (d : Dev) (j w : Nat) (hHOST : M .HOST = true) (hMG : M .MG = true) (hPW : M .PW = true) (hPWV : M .PWV = true) (hCF : M .CF = true) (hTG : M .TG = true) (hSN : M .SN = true) (hUD : M .UD = true) (hDM : M .DM = true) : (Dev.hostVotes d j w).kept M = d.kept M := by
  unfold Dev.hostVotes
  simp only [↓kept_wr, ↓kept_vote, ↓kept_transitionCheck, blkR_PW_HVOTE, hHOST, hMG, hPW, hPWV, hCF, hTG, hSN, hUD, hDM, ↓keptEach, implies_true]

@[simp] theorem kept_actsetWrite (M : Blk → Bool) (d : Dev) (j w : Nat) (hHOST : M .HOST = true) (hPWV : M .PWV = true) : (Dev.actsetWrite d j w).kept M = d.kept M := by
  unfold Dev.actsetWrite
  simp only [↓kept_wr, ↓kept_devVotes, blkR_PW_ACTSET, hHOST, hPWV, ↓keptIte, ite_self]

@[simp] theorem kept_etimFire (M : Blk → Bool) (d : Dev) (k : Nat) (hMG : M .MG = true) (hPW : M .PW = true) (hPWV : M .PWV = true) (hCF : M .CF = true) (hTG : M .TG = true) (hSN : M .SN = true) (hUD : M .UD = true) (hDM : M .DM = true) : (Dev.etimFire d k).kept M = d.kept M := by
  unfold Dev.etimFire
  simp only [↓kept_wr, ↓kept_modPw, ↓kept_wake, blkR_PW_ETIM_CNT, blkR_PW_ETIM_CTL, hMG, hPW, hPWV, hCF, hTG, hSN, hUD, hDM, ↓keptIte, ite_self]

@[simp] theorem kept_padRelease (M : Blk → Bool) (d : Dev) (groups : Nat) (hPW : M .PW = true) : (Dev.padRelease d groups).kept M = d.kept M := by
  unfold Dev.padRelease
  simp only [↓kept_wrc, blkR_PW_PADREL, hPW]

@[simp] theorem kept_calFinish (M : Blk → Bool) (d : Dev) (code : Nat) (hMG : M .MG = true) (hPWV : M .PWV = true) (hCL : M .CL = true) (hLNF : M .LNF = true) : (Dev.calFinish d code).kept M = d.kept M := by
  unfold Dev.calFinish
  simp only [↓kept_wr0, ↓kept_modLane, ↓kept_fsRelease, ↓kept_calEnd, blkR_CL_STS, hMG, hPWV, hCL, hLNF, ↓keptIte, ↓keptMk, ite_self]

@[simp] theorem kept_calRunning (M : Blk → Bool) (d : Dev) (hMG : M .MG = true) (hPWV : M .PWV = true) (hCL : M .CL = true) (hLNF : M .LNF = true) : (Dev.calRunning d).kept M = d.kept M := by
  unfold Dev.calRunning
  simp only [↓kept_wr0, ↓kept_calFinish, ↓kept_modLane, ↓kept_calEnd, blkR_CL_STS, hMG, hPWV, hCL, hLNF, ↓keptIte, ↓keptMk, ite_self]

@[simp] theorem kept_calClaim (M : Blk → Bool) (d : Dev) (hMG : M .MG = true) (hPWV : M .PWV = true) (hCL : M .CL = true) (hLNF : M .LNF = true) (hCS : M .CS = true) : (Dev.calClaim d).kept M = d.kept M := by
  unfold Dev.calClaim
  simp only [↓kept_calRunning, ↓kept_marginStop, ↓kept_fsSet, ↓kept_calEnd, hMG, hPWV, hCL, hLNF, hCS, ↓keptIte, ↓keptMk, ite_self]

@[simp] theorem kept_calStart (M : Blk → Bool) (d : Dev) (op kind t param : Nat) (nowait apply : Bool) (rept : Nat) (hMG : M .MG = true) (hPWV : M .PWV = true) (hCL : M .CL = true) (hUD : M .UD = true) (hLN : M .LN = true) (hLNF : M .LNF = true) (hLNT : M .LNT = true) (hCS : M .CS = true) : (Dev.calStart d op kind t param nowait apply rept).kept M = d.kept M := by
  unfold Dev.calStart
  extract_lets d1 c0 c d2 d3 d4 d5 d6 c1
  have h1 : d1.kept M = d.kept M := by simp only [d1]; simp only [↓kept_wr0, blkR_CL_STS, blkR_CL_SPREAD, hCL]
  have h2 : d2.kept M = d.kept M := h1
  clear_value c1 c c0
  have h3 : d3.kept M = d.kept M := by simp only [d3]; simp only [↓kept_wr0, ↓kept_setRes, blkR_CL_STS, hCL]; exact h2
  have h4 : d4.kept M = d.kept M := by simp only [d4]; rw [keptIte]; split <;> (try simp only [↓kept_wr0, ↓kept_alert, blkR_CL_STS, hMG, hCL]) <;> exact h3
  have h5 : d5.kept M = d.kept M := by simp only [d5]; rw [keptIte]; split <;> (try simp only [↓kept_ptAbort, hMG, hPWV, hUD, hLN, hLNT, hCS]) <;> exact h2
  have h6 : d6.kept M = d.kept M := by simp only [d6]; simp only [↓kept_wr0, ↓kept_vote, blkR_CL_STS, hPWV, hCL]; exact h5
  clear_value d6 d5 d4 d3 d2
  rw [keptIte]; split
  · simp only [↓kept_wr0, blkR_CL_STS, hCL]
  · rw [keptIte]; split
    · exact h4
    · rw [keptIte]; split
      · simp only [↓kept_setRes, ↓kept_calEnd, hMG, hPWV, hCL]; exact h2
      · rw [kept_calClaim _ _ hMG hPWV hCL hLNF hCS]; exact (keptMk M d6 ..).trans h6

@[simp] theorem kept_calCancel (M : Blk → Bool) (d : Dev) (hMG : M .MG = true) (hPWV : M .PWV = true) (hCL : M .CL = true) (hLNF : M .LNF = true) : (Dev.calCancel d).kept M = d.kept M := by
  unfold Dev.calCancel
  dsimp only; (repeat' split) <;> first | with_reducible rfl | (simp only [↓kept_calFinish, hMG, hPWV, hCL, hLNF, ↓keptMk]; done)

@[simp] theorem kept_calAgree (M : Blk → Bool) (d : Dev) (hMG : M .MG = true) (hPWV : M .PWV = true) (hCL : M .CL = true) (hLNF : M .LNF = true) : (Dev.calAgree d).kept M = d.kept M := by
  unfold Dev.calAgree
  simp only [↓kept_wr0, ↓kept_calFinish, ↓kept_setRes, blkR_CL_SPREAD, hMG, hPWV, hCL, hLNF, ↓keptIte, ↓keptMk, ite_self]

@[simp] theorem kept_calMonitors (M : Blk → Bool) (d : Dev) (r : CalRun) (hCL : M .CL = true) : (Dev.calMonitors d r).kept M = d.kept M := by
  unfold Dev.calMonitors
  simp only [↓kept_wrc, blkR_CL_VCAL, blkR_CL_CALREF, hCL]

@[simp] theorem kept_tbReject (M : Blk → Bool) (d : Dev) (hTB : M .TB = true) : (Dev.tbReject d).kept M = d.kept M := by
  unfold Dev.tbReject
  simp only [↓kept_wr0, blkR_TB_STS, hTB]

@[simp] theorem kept_tbLoad (M : Blk → Bool) (d : Dev) (hMG : M .MG = true) (hSN : M .SN = true) (hUD : M .UD = true) (hTB : M .TB = true) : (Dev.tbLoad d).kept M = d.kept M := by
  unfold Dev.tbLoad
  simp only [↓kept_tbReject, ↓kept_stepTime, hMG, hSN, hUD, hTB, ↓keptIte, ite_self]

@[simp] theorem kept_tbStep (M : Blk → Bool) (d : Dev) (hMG : M .MG = true) (hSN : M .SN = true) (hUD : M .UD = true) (hTB : M .TB = true) : (Dev.tbStep d).kept M = d.kept M := by
  unfold Dev.tbStep
  simp only [↓kept_tbReject, ↓kept_stepTime, hMG, hSN, hUD, hTB, ↓keptIte, ite_self]

@[simp] theorem kept_tbCapture (M : Blk → Bool) (d : Dev) (hTB : M .TB = true) : (Dev.tbCapture d).kept M = d.kept M := by
  unfold Dev.tbCapture
  simp only [↓kept_wr0, blkR_TB_CAP_S_LO, blkR_TB_CAP_S_HI, blkR_TB_CAP_NS, blkR_TB_CAP_FRAC, blkR_TB_CAP_FREE_LO, blkR_TB_CAP_FREE_HI, hTB]

@[simp] theorem kept_tbRun (M : Blk → Bool) (d : Dev) (c : Nat) (hMG : M .MG = true) (hSN : M .SN = true) (hUD : M .UD = true) (hTB : M .TB = true) : (Dev.tbRun d c).kept M = d.kept M := by
  unfold Dev.tbRun
  simp only [↓kept_tbLoad, ↓kept_tbStep, ↓kept_tbCapture, hMG, hSN, hUD, hTB, ↓keptIte, ite_self]

@[simp] theorem kept_tbIssue (M : Blk → Bool) (d : Dev) (cs : List Nat) (hMG : M .MG = true) (hSN : M .SN = true) (hUD : M .UD = true) (hTB : M .TB = true) : (Dev.tbIssue d cs).kept M = d.kept M := by
  unfold Dev.tbIssue
  dsimp only; (repeat' split) <;> first | with_reducible rfl | (simp only [↓kept_tbRun, hMG, hSN, hUD, hTB, ↓keptMk]; done)

@[simp] theorem kept_tbNext (M : Blk → Bool) (d : Dev) (hMG : M .MG = true) (hSN : M .SN = true) (hUD : M .UD = true) (hTB : M .TB = true) : (Dev.tbNext d).kept M = d.kept M := by
  unfold Dev.tbNext
  dsimp only; (repeat' split) <;> first | with_reducible rfl | (simp only [↓kept_tbRun, hMG, hSN, hUD, hTB, ↓keptMk]; done)

@[simp] theorem kept_tbWrite (M : Blk → Bool) (d : Dev) (r : TbReg) (v : Nat) (hTB : M .TB = true) : (Dev.tbWrite d r v).kept M = d.kept M := by
  unfold Dev.tbWrite
  cases r <;> simp only [tbField] <;> split <;> simp only [↓kept_wr0, ↓kept_tbReject, blkR_TB_ADJ, blkR_TB_SET_S_LO, blkR_TB_SET_S_HI, blkR_TB_SET_NS, blkR_TB_STEP_NS, blkR_TB_STEP_FRAC, hTB]

@[simp] theorem kept_dormerEdge (M : Blk → Bool) (d : Dev) (interp : Nat)  : (Dev.dormerEdge d interp).kept M = d.kept M := by
  unfold Dev.dormerEdge
  simp only [↓keptIte, ↓keptMk, ite_self]

@[simp] theorem kept_lrefWrite (M : Blk → Bool) (d : Dev) (k w : Nat) (hMG : M .MG = true) (hSN : M .SN = true) (hUD : M .UD = true) (hTB : M .TB = true) (hTS : M .TS = true) : (Dev.lrefWrite d k w).kept M = d.kept M := by
  unfold Dev.lrefWrite
  simp only [↓kept_wr, ↓kept_slotDisqualify, ↓kept_slotEval, ↓kept_engEval, blkR_TS_LREF_CTL, hMG, hSN, hUD, hTB, hTS]

@[simp] theorem kept_tsCtlWrite (M : Blk → Bool) (d : Dev) (w : Nat) (hMG : M .MG = true) (hPWV : M .PWV = true) (hSN : M .SN = true) (hUD : M .UD = true) (hTB : M .TB = true) (hTS : M .TS = true) : (Dev.tsCtlWrite d w).kept M = d.kept M := by
  unfold Dev.tsCtlWrite
  simp only [↓kept_wr, ↓kept_vote, ↓kept_engEval, blkR_TS_CTL, hMG, hPWV, hSN, hUD, hTB, hTS]

@[simp] theorem kept_tickClkout (M : Blk → Bool) (d : Dev)  : (Dev.tickClkout d).kept M = d.kept M := by
  unfold Dev.tickClkout
  simp only [↓kept_modEng, ↓keptEach, implies_true]

@[simp] theorem kept_dormerMessage (M : Blk → Bool) (d : Dev)  : (Dev.dormerMessage d).kept M = d.kept M := by
  unfold Dev.dormerMessage
  simp only [↓keptMk]

@[simp] theorem kept_esmcEvents (M : Blk → Bool) (d : Dev)  : (Dev.esmcEvents d).kept M = d.kept M := by
  unfold Dev.esmcEvents
  simp only [↓kept_modEng, ↓keptIte, ↓keptEach, ite_self, implies_true]

@[simp] theorem kept_publishService (M : Blk → Bool) (d : Dev) (id : Nat) (hMG : M .MG = true) (hSN : M .SN = true) (hUD : M .UD = true) (hTB : M .TB = true) (hTS : M .TS = true) : (Dev.publishService d id).kept M = d.kept M := by
  unfold Dev.publishService
  simp only [↓kept_wrc, ↓kept_publish, ↓kept_ptpDisqualify, blkR_TS_SVC_STS, hMG, hSN, hUD, hTB, hTS, ↓keptIte, ite_self]

@[simp] theorem kept_modPoint (M : Blk → Bool) (d : Dev) (u : Nat) (g : PointX → PointX)  : (Dev.modPoint d u g).kept M = d.kept M := by
  unfold Dev.modPoint
  rfl

@[simp] theorem kept_meterCount (M : Blk → Bool) (d : Dev) (m len : Nat) (ab : Bool)  : (Dev.meterCount d m len ab).kept M = d.kept M := by
  unfold Dev.meterCount
  simp only [↓keptIte, ↓keptMk, ite_self]

@[simp] theorem kept_correct (M : Blk → Bool) (d : Dev) (u : Nat) (x : FlightX) (tOut : Int) (hTSU : M .TSU = true) : (Dev.correct d u x tOut).kept M = d.kept M := by
  unfold Dev.correct
  simp only [↓kept_draw, ↓kept_modPoint, ↓kept_bump, ↓kept_wr, blkR_TSU_CNT_CORR, blkR_TSU_CNT_SAT, blkR_TSU_LAST_RES, blkR_TSU_LAST_INFO, hTSU, ↓keptIte, ite_self]

@[simp] theorem kept_frameOut (M : Blk → Bool) (d : Dev) (u interp pout : Nat) (hTSU : M .TSU = true) : (Dev.frameOut d u interp pout).kept M = d.kept M := by
  unfold Dev.frameOut
  dsimp only; (repeat' split) <;> first | with_reducible rfl | (simp only [↓kept_modPoint, ↓kept_correct, ↓kept_bump, blkR_TSU_CNT_UNCORR, hTSU]; done)

@[simp] theorem kept_pointTick (M : Blk → Bool) (d : Dev) (u byteTimes deleted : Nat) (hTS : M .TS = true) : (Dev.pointTick d u byteTimes deleted).kept M = d.kept M := by
  unfold Dev.pointTick
  simp only [↓kept_modPoint, ↓kept_wrc, blkR_TS_IE_STS, hTS]

@[simp] theorem kept_clsCommand (M : Blk → Bool) (d : Dev) (op : Nat) (replace : Bool) (hTS : M .TS = true) : (Dev.clsCommand d op replace).kept M = d.kept M := by
  unfold Dev.clsCommand
  simp only [↓kept_wr0, blkR_TS_CLS_STS, hTS, ↓keptIte, ↓keptMk, ite_self]

@[simp] theorem kept_modBoot (M : Blk → Bool) (d : Dev) (g : BootX → BootX)  : (Dev.modBoot d g).kept M = d.kept M := by
  unfold Dev.modBoot
  rfl

@[simp] theorem kept_imageFail (M : Blk → Bool) (d : Dev) (code yealm item : Nat) (hMG : M .MG = true) (hPW : M .PW = true) (hPWV : M .PWV = true) (hCF : M .CF = true) (hTG : M .TG = true) (hSN : M .SN = true) (hUD : M .UD = true) (hDM : M .DM = true) : (Dev.imageFail d code yealm item).kept M = d.kept M := by
  unfold Dev.imageFail
  dsimp only; (repeat' split) <;> first | with_reducible rfl | (simp only [↓kept_imageResult, ↓kept_modBoot, ↓kept_loaderEnd, hMG, hPW, hPWV, hCF, hTG, hSN, hUD, hDM]; done)

@[simp] theorem kept_loadStart (M : Blk → Bool) (d : Dev) (image : Nat) (next : List Nat) (hCF : M .CF = true) : (Dev.loadStart d image next).kept M = d.kept M := by
  unfold Dev.loadStart
  simp only [↓kept_wrc, ↓kept_modBoot, blkR_CF_STS, hCF]

@[simp] theorem kept_busLoad (M : Blk → Bool) (d : Dev) (hCF : M .CF = true) : (Dev.busLoad d).kept M = d.kept M := by
  unfold Dev.busLoad
  simp only [↓kept_loadStart, ↓kept_wrc, blkR_CF_RCV_STS, blkR_CF_RCV_CNT, hCF]

@[simp] theorem kept_flashLoad (M : Blk → Bool) (d : Dev) (flash : Option FlashFound) (hMG : M .MG = true) (hPW : M .PW = true) (hPWV : M .PWV = true) (hCF : M .CF = true) (hTG : M .TG = true) (hSN : M .SN = true) (hUD : M .UD = true) (hDM : M .DM = true) : (Dev.flashLoad d flash).kept M = d.kept M := by
  unfold Dev.flashLoad
  dsimp only; (repeat' split) <;> first | with_reducible rfl | (simp only [↓kept_loadStart, ↓kept_padRelease, ↓kept_imageFail, ↓kept_wrc, blkR_CF_FLASH, hMG, hPW, hPWV, hCF, hTG, hSN, hUD, hDM]; done)

@[simp] theorem kept_loaderStart (M : Blk → Bool) (d : Dev) (flash : Option FlashFound) (hMG : M .MG = true) (hPW : M .PW = true) (hPWV : M .PWV = true) (hCF : M .CF = true) (hTG : M .TG = true) (hSN : M .SN = true) (hUD : M .UD = true) (hDM : M .DM = true) : (Dev.loaderStart d flash).kept M = d.kept M := by
  unfold Dev.loaderStart
  (repeat' split) <;> first | with_reducible rfl | (simp only [↓kept_wrc, ↓kept_busLoad, ↓kept_flashLoad, blkR_CF_STATUS, hMG, hPW, hPWV, hCF, hTG, hSN, hUD, hDM]; done)

@[simp] theorem kept_compatSetup (M : Blk → Bool) (d : Dev) (y : Yealm) (hMT : M .MT = true) : (Dev.compatSetup d y).kept M = d.kept M := by
  unfold Dev.compatSetup
  dsimp only; (repeat' split) <;> first | with_reducible rfl | (simp only [↓kept_modMt, ↓kept_wrc, blkR_MT_STS, blkR_MT_CTL, hMT]; done)

@[simp] theorem kept_noSealed (M : Blk → Bool) (d : Dev) (ys : List Yealm) (hMG : M .MG = true) (hPWV : M .PWV = true) (hUD : M .UD = true) (hDM : M .DM = true) : (Dev.noSealed d ys).kept M = d.kept M := by
  unfold Dev.noSealed
  simp only [↓kept_refuseYealm, hMG, hPWV, hUD, hDM, ↓keptIte, ite_self]

@[simp] theorem kept_cfResult (M : Blk → Bool) (d : Dev) (v : Nat) (hCF : M .CF = true) : (Dev.cfResult d v).kept M = d.kept M := by
  unfold Dev.cfResult
  simp only [↓kept_wr0, blkR_CF_CMDSTS, hCF]

@[simp] theorem kept_cfReload (M : Blk → Bool) (d : Dev) (flash : Option FlashFound) (hMG : M .MG = true) (hPW : M .PW = true) (hPWV : M .PWV = true) (hCF : M .CF = true) (hTG : M .TG = true) (hSN : M .SN = true) (hUD : M .UD = true) (hDM : M .DM = true) : (Dev.cfReload d flash).kept M = d.kept M := by
  unfold Dev.cfReload
  simp only [↓kept_cfResult, ↓kept_wrc, ↓kept_noCore, ↓kept_loaderVotes, ↓kept_loaderStart, blkR_CF_RES, hMG, hPW, hPWV, hCF, hTG, hSN, hUD, hDM, ↓keptIte, ↓keptEach, ite_self, implies_true]

@[simp] theorem kept_cfRecover (M : Blk → Bool) (d : Dev) (hMG : M .MG = true) (hPW : M .PW = true) (hPWV : M .PWV = true) (hCF : M .CF = true) (hTG : M .TG = true) (hSN : M .SN = true) (hUD : M .UD = true) (hDM : M .DM = true) : (Dev.cfRecover d).kept M = d.kept M := by
  unfold Dev.cfRecover
  simp only [↓kept_cfResult, ↓kept_loaderEnd, ↓kept_vote, ↓kept_busLoad, hMG, hPW, hPWV, hCF, hTG, hSN, hUD, hDM, ↓keptIte, ite_self]

@[simp] theorem kept_cfKey (M : Blk → Bool) (d : Dev) (op slot : Nat) (hCF : M .CF = true) : (Dev.cfKey d op slot).kept M = d.kept M := by
  unfold Dev.cfKey
  simp only [↓kept_cfResult, ↓kept_wr0, ↓kept_modBoot, blkR_CF_CMDSTS, hCF, ↓keptIte, ite_self]

@[simp] theorem kept_cfAbort (M : Blk → Bool) (d : Dev) (hMG : M .MG = true) (hPW : M .PW = true) (hPWV : M .PWV = true) (hCF : M .CF = true) (hTG : M .TG = true) (hSN : M .SN = true) (hUD : M .UD = true) (hDM : M .DM = true) : (Dev.cfAbort d).kept M = d.kept M := by
  unfold Dev.cfAbort
  simp only [↓kept_cfResult, ↓kept_imageFail, hMG, hPW, hPWV, hCF, hTG, hSN, hUD, hDM, ↓keptIte, ite_self]

@[simp] theorem kept_rcvWrite (M : Blk → Bool) (d : Dev) (w : Nat) (hMG : M .MG = true) (hPW : M .PW = true) (hPWV : M .PWV = true) (hCF : M .CF = true) (hTG : M .TG = true) (hSN : M .SN = true) (hUD : M .UD = true) (hDM : M .DM = true) : (Dev.rcvWrite d w).kept M = d.kept M := by
  unfold Dev.rcvWrite
  simp only [↓kept_imageFail, ↓kept_modBoot, ↓kept_wr0, blkR_CF_RCV_CNT, hMG, hPW, hPWV, hCF, hTG, hSN, hUD, hDM, ↓keptIte, ite_self]

@[simp] theorem kept_alertEnWrite (M : Blk → Bool) (d : Dev) (w : Nat) (hHOST : M .HOST = true) : (Dev.alertEnWrite d w).kept M = d.kept M := by
  unfold Dev.alertEnWrite
  simp only [↓kept_wr0, blkR_MG_ALERTEN, hHOST, ↓keptMk]

@[simp] theorem kept_gateRes (M : Blk → Bool) (d : Dev) (who : Initiator) (code : Nat) (hTG : M .TG = true) : (Dev.gateRes d who code).kept M = d.kept M := by
  unfold Dev.gateRes
  simp only [↓kept_wr0, blkR_TG_RES, hTG, ↓keptIte, ite_self]

@[simp] theorem kept_takeSlot (M : Blk → Bool) (d : Dev) (who : Initiator) (k : Nat) (hTG : M .TG = true) : (Dev.takeSlot d who k).kept M = d.kept M := by
  unfold Dev.takeSlot
  simp only [↓kept_wr, ↓kept_modGate, blkR_TG_SLOT_STS, blkR_TG_SLOT_CONF, hTG, ↓keptMk]

@[simp] theorem kept_gateOpen (M : Blk → Bool) (d : Dev) (who : Initiator) (hTG : M .TG = true) : (Dev.gateOpen d who).kept M = d.kept M := by
  unfold Dev.gateOpen
  dsimp only; (repeat' split) <;> first | with_reducible rfl | (simp only [↓kept_gateRes, ↓kept_takeSlot, ↓kept_wr0, blkR_TG_RES, hTG]; done)

@[simp] theorem kept_stageWrite (M : Blk → Bool) (d : Dev) (k a : Nat) (r : Reg) (i data mask : Nat) (hTG : M .TG = true) : (Dev.stageWrite d k a r i data mask).kept M = d.kept M := by
  unfold Dev.stageWrite
  simp only [↓kept_modGate, ↓kept_wr, blkR_TG_SLOT_STS, hTG, ↓keptIte, ↓keptMk, ite_self]

@[simp] theorem kept_gateStage (M : Blk → Bool) (d : Dev) (who : Initiator) (k addr data mask : Nat) (hTG : M .TG = true) : (Dev.gateStage d who k addr data mask).kept M = d.kept M := by
  unfold Dev.gateStage
  dsimp only; (repeat' split) <;> first | with_reducible rfl | (simp only [↓kept_gateRes, ↓kept_stageWrite, hTG]; done)

@[simp] theorem kept_gateCommit (M : Blk → Bool) (d : Dev) (who : Initiator) (k mode course : Nat) (hTG : M .TG = true) : (Dev.gateCommit d who k mode course).kept M = d.kept M := by
  unfold Dev.gateCommit
  simp only [↓kept_gateRes, ↓kept_wr, ↓kept_modGate, blkR_TG_SLOT_STS, hTG, ↓keptIte, ite_self]

@[simp] theorem kept_gateAbort (M : Blk → Bool) (d : Dev) (who : Initiator) (k : Nat) (hMG : M .MG = true) (hTG : M .TG = true) (hSN : M .SN = true) (hUD : M .UD = true) : (Dev.gateAbort d who k).kept M = d.kept M := by
  unfold Dev.gateAbort
  simp only [↓kept_gateRes, ↓kept_gateEnd, hMG, hTG, hSN, hUD, ↓keptIte, ite_self]

@[simp] theorem kept_commitCoursesBefore (M : Blk → Bool) (d fin : Dev) (ns : List Nat) (hMG : M .MG = true) (hPWV : M .PWV = true) (hCL : M .CL = true) (hUD : M .UD = true) (hLN : M .LN = true) (hLNF : M .LNF = true) (hLNT : M .LNT = true) (hCS : M .CS = true) (hTSU : M .TSU = true) : (Dev.commitCoursesBefore d fin ns).kept M = d.kept M := by
  unfold Dev.commitCoursesBefore
  simp only [↓kept_enterDisabled, hMG, hPWV, hCL, hUD, hLN, hLNF, hLNT, hCS, hTSU, ↓keptIte, ↓keptEach, ite_self, implies_true]

@[simp] theorem kept_followCounts (M : Blk → Bool) (d old : Dev) (k : Nat) (ns : List Nat) (hCS : M .CS = true) : (Dev.followCounts d old k ns).kept M = d.kept M := by
  unfold Dev.followCounts
  simp only [↓kept_bump, blkR_CS_CPRI_CNT_RATE, hCS, ↓keptIte, ↓keptEach, ite_self, implies_true]

@[simp] theorem kept_commitRate (M : Blk → Bool) (d : Dev) (n rate : Nat) (hLN : M .LN = true) (hLNP : M .LNP = true) : (Dev.commitRate d n rate).kept M = d.kept M := by
  unfold Dev.commitRate
  simp only [↓kept_wrc, ↓kept_laneToRate, ↓kept_laneToPll, blkR_LN_STS, hLN, hLNP, ↓keptIte, ↓keptEach, ite_self, implies_true]

@[simp] theorem kept_commitCoursesAfter (M : Blk → Bool) (d old : Dev) (ns : List Nat) (hMG : M .MG = true) (hPWV : M .PWV = true) (hCL : M .CL = true) (hUD : M .UD = true) (hLN : M .LN = true) (hLNF : M .LNF = true) (hLNP : M .LNP = true) (hLNT : M .LNT = true) (hCS : M .CS = true) (hTSU : M .TSU = true) : (Dev.commitCoursesAfter d old ns).kept M = d.kept M := by
  unfold Dev.commitCoursesAfter
  simp only [↓kept_modCourse, ↓kept_wrc, ↓kept_commitRate, ↓kept_courseEval, ↓kept_courseFault, ↓kept_belowEval, ↓kept_courseVotes, blkR_CS_SEL, blkR_UD_STATE, hMG, hPWV, hCL, hUD, hLN, hLNF, hLNP, hLNT, hCS, hTSU, ↓keptIte, ↓keptEach, ite_self, implies_true]

@[simp] theorem kept_commitPll (M : Blk → Bool) (d old : Dev) (p : Nat) (hLN : M .LN = true) (hLNP : M .LNP = true) : (Dev.commitPll d old p).kept M = d.kept M := by
  unfold Dev.commitPll
  extract_lets d1
  have h1 : d1.kept M = d.kept M := by simp only [d1]; simp only [↓kept_wrc, ↓kept_pllRefresh, blkR_LN_PLL_STS, hLNP]
  clear_value d1
  rw [keptIte]; split
  · rfl
  · refine (keptEach M _ _ (fun n d => keptEach M _ _ (fun l d => ?_) d) _).trans h1
    split
    · simp only [↓kept_wrc, blkR_LN_STS, hLN]
    · rfl

@[simp] theorem kept_standInRelease (M : Blk → Bool) (d : Dev) (fs : Nat) (hUD : M .UD = true) (hLN : M .LN = true) (hLNF : M .LNF = true) (hCS : M .CS = true) (hTSU : M .TSU = true) : (Dev.standInRelease d fs).kept M = d.kept M := by
  unfold Dev.standInRelease
  dsimp only; (repeat' split) <;> first | with_reducible rfl | (simp only [↓kept_modLane, ↓kept_fsRelease, ↓kept_setOnFs, ↓kept_wrc, ↓kept_setTxIdle, ↓kept_setKs, blkR_LN_STS, hUD, hLN, hLNF, hCS, hTSU]; done)

@[simp] theorem kept_recountUsed (M : Blk → Bool) (d : Dev) (hPU : M .PU = true) : (Dev.recountUsed d).kept M = d.kept M := by
  unfold Dev.recountUsed
  simp only [↓kept_wrc, blkR_PU_GUSED, hPU, ↓keptEach, implies_true]

@[simp] theorem kept_framesFollow (M : Blk → Bool) (d : Dev) (r : Nat) (hUD : M .UD = true) (hFB : M .FB = true) : (Dev.framesFollow d r).kept M = d.kept M := by
  unfold Dev.framesFollow
  simp only [↓kept_wr, ↓kept_ctxRefresh, blkR_FB_SLOT, hUD, hFB, ↓keptIte, ↓keptEach, ite_self, implies_true]

@[simp] theorem kept_commitQueue (M : Blk → Bool) (d : Dev) (w : StagedWrite) (hUD : M .UD = true) (hPU : M .PU = true) : (Dev.commitQueue d w).kept M = d.kept M := by
  unfold Dev.commitQueue
  simp only [↓kept_queueEnable, ↓kept_queueFlush, hUD, hPU, ↓keptIte, ite_self]

@[simp] theorem kept_gateAgain (M : Blk → Bool) (d : Dev) (k : Nat) (g : GateX) (mode course : Nat) (hTG : M .TG = true) : (Dev.gateAgain d k g mode course).kept M = d.kept M := by
  unfold Dev.gateAgain
  dsimp only; (repeat' split) <;> first | with_reducible rfl | (simp only [↓kept_takeSlot, ↓kept_stageWrite, ↓kept_modGate, ↓kept_gateCommit, hTG, ↓keptFoldl, implies_true]; done)

@[simp] theorem kept_gateFail (M : Blk → Bool) (d : Dev) (k outcome : Nat) (addr : Option Nat) (hMG : M .MG = true) (hTG : M .TG = true) (hSN : M .SN = true) (hUD : M .UD = true) : (Dev.gateFail d k outcome addr).kept M = d.kept M := by
  unfold Dev.gateFail
  dsimp only; (repeat' split) <;> first | with_reducible rfl | (simp only [↓kept_wr, ↓kept_gateEnd, ↓kept_gateAgain, blkR_TG_SLOT_CONF, hMG, hTG, hSN, hUD]; done)

@[simp] theorem kept_modMg (M : Blk → Bool) (d : Dev) (g : MgX → MgX)  : (Dev.modMg d g).kept M = d.kept M := by
  unfold Dev.modMg
  rfl

@[simp] theorem kept_ulResult (M : Blk → Bool) (d : Dev) (v : Nat) (hTG : M .TG = true) : (Dev.ulResult d v).kept M = d.kept M := by
  unfold Dev.ulResult
  simp only [↓kept_wr0, blkR_TG_UL_STS, hTG]

@[simp] theorem kept_drawNonce (M : Blk → Bool) (d : Dev) (hTG : M .TG = true) : (Dev.drawNonce d).kept M = d.kept M := by
  unfold Dev.drawNonce
  simp only [↓kept_wr, ↓kept_draw, blkR_TG_UL_CHAL, hTG, ↓keptEach, implies_true]

@[simp] theorem kept_clearNonce (M : Blk → Bool) (d : Dev) (hTG : M .TG = true) : (Dev.clearNonce d).kept M = d.kept M := by
  unfold Dev.clearNonce
  simp only [↓kept_wrc, blkR_TG_UL_CHAL, hTG, ↓keptEach, implies_true]

@[simp] theorem kept_ulChallenge (M : Blk → Bool) (d : Dev) (hTG : M .TG = true) : (Dev.ulChallenge d).kept M = d.kept M := by
  unfold Dev.ulChallenge
  simp only [↓kept_ulResult, ↓kept_drawNonce, ↓kept_modMg, ↓kept_wr0, blkR_TG_UL_STS, hTG, ↓keptIte, ite_self]

@[simp] theorem kept_ulMatch (M : Blk → Bool) (d : Dev) (hTG : M .TG = true) : (Dev.ulMatch d).kept M = d.kept M := by
  unfold Dev.ulMatch
  simp only [↓kept_clearNonce, ↓kept_wr0, ↓kept_ulResult, ↓kept_modMg, blkR_TG_UL_STS, blkR_TG_UL_LEFT, hTG]

@[simp] theorem kept_ulMismatch (M : Blk → Bool) (d : Dev) (hTG : M .TG = true) : (Dev.ulMismatch d).kept M = d.kept M := by
  unfold Dev.ulMismatch
  simp only [↓kept_clearNonce, ↓kept_wr0, ↓kept_bump, ↓kept_ulResult, ↓kept_modMg, blkR_TG_UL_STS, blkR_TG_UL_LEFT, hTG]

@[simp] theorem kept_ulVerify (M : Blk → Bool) (d : Dev) (hTG : M .TG = true) : (Dev.ulVerify d).kept M = d.kept M := by
  unfold Dev.ulVerify
  simp only [↓kept_ulResult, ↓kept_ulMatch, ↓kept_ulMismatch, hTG, ↓keptIte, ite_self]

@[simp] theorem kept_ulKeyProg (M : Blk → Bool) (d : Dev) (hTG : M .TG = true) : (Dev.ulKeyProg d).kept M = d.kept M := by
  unfold Dev.ulKeyProg
  simp only [↓kept_ulResult, ↓kept_wr0, ↓kept_modMg, blkR_TG_UL_STS, hTG, ↓keptIte, ite_self]

@[simp] theorem kept_ulCommand (M : Blk → Bool) (d : Dev) (op : Nat) (hMG : M .MG = true) (hTG : M .TG = true) (hSN : M .SN = true) (hUD : M .UD = true) : (Dev.ulCommand d op).kept M = d.kept M := by
  unfold Dev.ulCommand
  (repeat' split) <;> first | with_reducible rfl | (simp only [↓kept_ulChallenge, ↓kept_ulVerify, ↓kept_gateRelock, ↓kept_ulKeyProg, hMG, hTG, hSN, hUD]; done)

@[simp] theorem kept_busSts (M : Blk → Bool) (d : Dev) (f : Fld) (hMG : M .MG = true) (hf : M (blk f.reg f.lo) = true) : (d.busSts f).kept M = d.kept M := by
  unfold Dev.busSts; split
  · rfl
  · rw [kept_alert _ _ _ hMG, kept_wr0 _ _ _ _ hf]

@[simp] theorem kept_tgCommand (M : Blk → Bool) (d : Dev) (w : Nat) (hMG : M .MG = true) (hTG : M .TG = true) (hSN : M .SN = true) (hUD : M .UD = true) : (Dev.tgCommand d w).kept M = d.kept M := by
  unfold Dev.tgCommand
  (repeat' split) <;> first | with_reducible rfl | (simp only [↓kept_gateOpen, ↓kept_gateStage, ↓kept_gateCommit, ↓kept_gateAbort, hMG, hTG, hSN, hUD]; done)

@[simp] theorem kept_cfCommand (M : Blk → Bool) (d : Dev) (w : Nat) (flash : Option FlashFound) (hMG : M .MG = true) (hPW : M .PW = true) (hPWV : M .PWV = true) (hCF : M .CF = true) (hTG : M .TG = true) (hSN : M .SN = true) (hUD : M .UD = true) (hDM : M .DM = true) : (Dev.cfCommand d w flash).kept M = d.kept M := by
  unfold Dev.cfCommand
  (repeat' split) <;> first | with_reducible rfl | (simp only [↓kept_cfReload, ↓kept_cfRecover, ↓kept_cfKey, ↓kept_cfAbort, hMG, hPW, hPWV, hCF, hTG, hSN, hUD, hDM]; done)

@[simp] theorem kept_lbCommand (M : Blk → Bool) (d : Dev) (w : Nat) (hMG : M .MG = true) (hPWV : M .PWV = true) (hSN : M .SN = true) (hST : M .ST = true) (hUD : M .UD = true) : (Dev.lbCommand d w).kept M = d.kept M := by
  unfold Dev.lbCommand
  (repeat' split) <;> first | with_reducible rfl | (simp only [↓kept_lbStart, ↓kept_lbStop, hMG, hPWV, hSN, hST, hUD]; done)

@[simp] theorem kept_clCommand (M : Blk → Bool) (d : Dev) (w : Nat) (hMG : M .MG = true) (hPWV : M .PWV = true) (hCL : M .CL = true) (hUD : M .UD = true) (hLN : M .LN = true) (hLNF : M .LNF = true) (hLNT : M .LNT = true) (hCS : M .CS = true) : (Dev.clCommand d w).kept M = d.kept M := by
  unfold Dev.clCommand
  dsimp only; (repeat' split) <;> first | with_reducible rfl | (simp only [↓kept_calStart, ↓kept_calCancel, hMG, hPWV, hCL, hUD, hLN, hLNF, hLNT, hCS]; done)

@[simp] theorem kept_tbCommand (M : Blk → Bool) (d : Dev) (w : Nat) (hMG : M .MG = true) (hSN : M .SN = true) (hUD : M .UD = true) (hTB : M .TB = true) : (Dev.tbCommand d w).kept M = d.kept M := by
  unfold Dev.tbCommand
  simp only [↓kept_tbIssue, hMG, hSN, hUD, hTB]

@[simp] theorem kept_pgCommand (M : Blk → Bool) (d : Dev) (r w : Nat) (hPWV : M .PWV = true) (hUD : M .UD = true) (hFB : M .FB = true) : (Dev.pgCommand d r w).kept M = d.kept M := by
  unfold Dev.pgCommand
  dsimp only; (repeat' split) <;> first | with_reducible rfl | (simp only [↓kept_pgPrefetch, ↓kept_pgPin, ↓kept_pgEvict, hPWV, hUD, hFB]; done)

@[simp] theorem kept_offAcc (M : Blk → Bool) (d : Dev) (hPW : M .PW = true) : (Dev.offAcc d).kept M = d.kept M := by
  unfold Dev.offAcc
  simp only [↓kept_wrc, blkR_PW_STS, hPW]

@[simp] theorem kept_addressMatch (M : Blk → Bool) (d : Dev) (hMG : M .MG = true) (hPW : M .PW = true) (hPWV : M .PWV = true) (hCF : M .CF = true) (hTG : M .TG = true) (hSN : M .SN = true) (hUD : M .UD = true) (hDM : M .DM = true) : (Dev.addressMatch d).kept M = d.kept M := by
  unfold Dev.addressMatch
  simp only [↓kept_modPw, ↓kept_wake, hMG, hPW, hPWV, hCF, hTG, hSN, hUD, hDM, ↓keptIte, ite_self]

@[simp] theorem kept_nextAddr (M : Blk → Bool) (d : Dev)  : (Dev.nextAddr d).kept M = d.kept M := by
  unfold Dev.nextAddr
  simp only [↓kept_modMg]

@[simp] theorem kept_writeErrors (M : Blk → Bool) (d : Dev) (i3c : Bool) (bytes : List BusByte) (hMG : M .MG = true) : (Dev.writeErrors d i3c bytes).kept M = d.kept M := by
  unfold Dev.writeErrors
  dsimp only; (repeat' split) <;> first | with_reducible rfl | (simp only [↓kept_busSts, ↓kept_modMg, blkR_MG_BUSSTS, hMG]; done)

@[simp] theorem kept_cccAnswer (M : Blk → Bool) (d : Dev) (l : List Byte)  : (Dev.cccAnswer d l).kept M = d.kept M := by
  unfold Dev.cccAnswer
  simp only [↓kept_modMg]

@[simp] theorem kept_signalsLost (M : Blk → Bool) (d : Dev) (hMG : M .MG = true) (hPW : M .PW = true) (hPWV : M .PWV = true) (hCF : M .CF = true) (hTG : M .TG = true) (hSN : M .SN = true) (hCL : M .CL = true) (hUD : M .UD = true) (hLN : M .LN = true) (hLNF : M .LNF = true) (hLNP : M .LNP = true) (hLNT : M .LNT = true) (hCS : M .CS = true) (hTSU : M .TSU = true) (hDM : M .DM = true) : (Dev.signalsLost d).kept M = d.kept M := by
  unfold Dev.signalsLost
  simp only [↓kept_signalLost, hMG, hPW, hPWV, hCF, hTG, hSN, hCL, hUD, hLN, hLNF, hLNP, hLNT, hCS, hTSU, hDM, ↓keptEach, implies_true]

@[simp] theorem kept_codeLock (M : Blk → Bool) (d : Dev) (l : Nat) (hLN : M .LN = true) : (Dev.codeLock d l).kept M = d.kept M := by
  unfold Dev.codeLock
  simp only [↓kept_wrc, blkR_LN_STS, hLN, ↓keptIte, ite_self]

@[simp] theorem kept_codeLost (M : Blk → Bool) (d : Dev) (l : Nat) (c : LossCause) (hMG : M .MG = true) (hPWV : M .PWV = true) (hCL : M .CL = true) (hLN : M .LN = true) (hLNF : M .LNF = true) : (Dev.codeLost d l c).kept M = d.kept M := by
  unfold Dev.codeLost
  simp only [↓kept_wrc, ↓kept_modLane, ↓kept_handoverCut, blkR_LN_STS, hMG, hPWV, hCL, hLN, hLNF, ↓keptIte, ite_self]

@[simp] theorem kept_sendGroup (M : Blk → Bool) (d : Dev) (l g : Nat) (sym : Option (Bool × Nat))  : (Dev.sendGroup d l g sym).kept M = d.kept M := by
  unfold Dev.sendGroup
  simp only [↓kept_modLane]

@[simp] theorem kept_codeGroup (M : Blk → Bool) (d : Dev) (l g phase : Nat) (hMG : M .MG = true) (hPWV : M .PWV = true) (hCL : M .CL = true) (hLN : M .LN = true) (hLNF : M .LNF = true) : (Dev.codeGroup d l g phase).kept M = d.kept M := by
  unfold Dev.codeGroup
  simp only [↓kept_modLane, ↓kept_sendGroup, ↓kept_codeLock, ↓kept_bump, ↓kept_codeLost, blkR_LN_CNT_INV, blkR_LN_CNT_DISP, hMG, hPWV, hCL, hLN, hLNF, ↓keptIte, ite_self]

@[simp] theorem kept_sendBlock (M : Blk → Bool) (d : Dev) (l h : Nat) (bad : Bool)  : (Dev.sendBlock d l h bad).kept M = d.kept M := by
  unfold Dev.sendBlock
  simp only [↓kept_modLane]

@[simp] theorem kept_syncHeader (M : Blk → Bool) (d : Dev) (l h : Nat) (hMG : M .MG = true) (hPWV : M .PWV = true) (hCL : M .CL = true) (hLN : M .LN = true) (hLNF : M .LNF = true) : (Dev.syncHeader d l h).kept M = d.kept M := by
  unfold Dev.syncHeader
  simp only [↓kept_bump, ↓kept_sendBlock, ↓kept_modLane, ↓kept_codeLost, ↓kept_codeLock, blkR_LN_CNT_SHDR, hMG, hPWV, hCL, hLN, hLNF, ↓keptIte, ite_self]

@[simp] theorem kept_recordPage (M : Blk → Bool) (d : Dev) (k : Nat) (isNext : Bool) (page : BitVec 48) (hCS : M .CS = true) : (Dev.recordPage d k isNext page).kept M = d.kept M := by
  unfold Dev.recordPage
  simp only [↓kept_bump, ↓kept_wr, blkR_CS_ETH_PG_HI, blkR_CS_ETH_PG_LO, hCS, ↓keptIte, ite_self]

@[simp] theorem kept_writeResolution (M : Blk → Bool) (d : Dev) (n : Nat) (hCS : M .CS = true) : (Dev.writeResolution d n).kept M = d.kept M := by
  unfold Dev.writeResolution
  simp only [↓kept_wr, blkR_CS_ETH_RES, hCS]

@[simp] theorem kept_pageInNegotiate (M : Blk → Bool) (d : Dev) (n : Nat) (s : Side) (isNext : Bool) (page : BitVec 48) (hCS : M .CS = true) : (Dev.pageInNegotiate d n s isNext page).kept M = d.kept M := by
  unfold Dev.pageInNegotiate
  extract_lets k o d1 oth d2 done d3
  have h1 : d1.kept M = d.kept M := by simp only [d1]; simp only [↓kept_recordPage, hCS]
  have h2 : d2.kept M = d.kept M := by simp only [d2]; simp only [↓kept_modSeg, ↓kept_forwardIdle]; exact h1
  have h3 : d3.kept M = d.kept M := by
    simp only [d3]
    rw [kept_wrc _ _ _ _ _ (by simp only [done]; rw [blkIte]; split <;> simp only [blkR_CS_ETH_RES, hCS])]
    simp only [↓kept_modSeg]; exact h2
  clear_value d3 d2 d1
  (repeat' (rw [keptIte]; split)) <;> (try simp only [↓kept_writeResolution, hCS]) <;> assumption

@[simp] theorem kept_ownRequestOn (M : Blk → Bool) (d : Dev) (l : Nat) (trained : Bool)  : (Dev.ownRequestOn d l trained).kept M = d.kept M := by
  unfold Dev.ownRequestOn
  simp only [↓kept_modLane, ↓kept_draw, ↓keptIte, ite_self]

@[simp] theorem kept_answer (M : Blk → Bool) (d : Dev) (l code : Nat)  : (Dev.answer d l code).kept M = d.kept M := by
  unfold Dev.answer
  simp only [↓kept_modLane]

@[simp] theorem kept_tickTime (M : Blk → Bool) (d : Dev) (hMG : M .MG = true) (hSN : M .SN = true) (hUD : M .UD = true) (hTB : M .TB = true) : (Dev.tickTime d).kept M = d.kept M := by
  unfold Dev.tickTime
  simp only [↓kept_tbNext, hMG, hSN, hUD, hTB, ↓keptIte, ↓keptMk, ite_self]

@[simp] theorem kept_tickTimer (M : Blk → Bool) (d : Dev) (k : Nat) (hMG : M .MG = true) (hPW : M .PW = true) (hPWV : M .PWV = true) (hCF : M .CF = true) (hTG : M .TG = true) (hSN : M .SN = true) (hUD : M .UD = true) (hDM : M .DM = true) : (Dev.tickTimer d k).kept M = d.kept M := by
  unfold Dev.tickTimer
  simp only [↓kept_modPw, ↓kept_etimFire, ↓kept_wr, blkR_PW_ETIM_CNT, hMG, hPW, hPWV, hCF, hTG, hSN, hUD, hDM, ↓keptIte, ite_self]

@[simp] theorem kept_tickUnlock (M : Blk → Bool) (d : Dev) (hMG : M .MG = true) (hTG : M .TG = true) (hSN : M .SN = true) (hUD : M .UD = true) : (Dev.tickUnlock d).kept M = d.kept M := by
  unfold Dev.tickUnlock
  simp only [↓kept_modMg, ↓kept_wr0, ↓kept_gateRelock, blkR_TG_UL_LEFT, hMG, hTG, hSN, hUD, ↓keptIte, ite_self]

@[simp] theorem kept_tickHold (M : Blk → Bool) (d : Dev) (hMG : M .MG = true) (hSN : M .SN = true) (hUD : M .UD = true) (hTB : M .TB = true) (hTS : M .TS = true) : (Dev.tickHold d).kept M = d.kept M := by
  unfold Dev.tickHold
  simp only [↓kept_modEng, ↓kept_bump, ↓kept_engEval, blkR_TS_HOLD_T, hMG, hSN, hUD, hTB, hTS, ↓keptIte, ite_self]

@[simp] theorem kept_tickLoad (M : Blk → Bool) (d : Dev)  : (Dev.tickLoad d).kept M = d.kept M := by
  unfold Dev.tickLoad
  simp only [↓kept_modBoot, ↓keptIte, ite_self]

@[simp] theorem kept_tickFec (M : Blk → Bool) (d : Dev) (hLN : M .LN = true) : (Dev.tickFec d).kept M = d.kept M := by
  unfold Dev.tickFec
  simp only [↓kept_bumpBy, blkR_LN_CNT_FECSYM, hLN, ↓keptEach, implies_true]

@[simp] theorem kept_tickEngine (M : Blk → Bool) (d : Dev) (hMG : M .MG = true) (hSN : M .SN = true) (hUD : M .UD = true) (hTB : M .TB = true) (hTS : M .TS = true) : (Dev.tickEngine d).kept M = d.kept M := by
  unfold Dev.tickEngine
  simp only [↓kept_slotsFollow, ↓kept_tickClkout, ↓kept_esmcEvents, hMG, hSN, hUD, hTB, hTS, ↓keptIte, ite_self]

@[simp] theorem kept_regionsBack (M : Blk → Bool) (d : Dev) (hMG : M .MG = true) (hPWV : M .PWV = true) (hFB : M .FB = true) (hMT : M .MT = true) : (Dev.regionsBack d).kept M = d.kept M := by
  unfold Dev.regionsBack
  simp only [↓kept_modFb, ↓kept_regionVotes, ↓kept_admitWaiting, hMG, hPWV, hFB, hMT, ↓keptEach, implies_true]

theorem find_filter (p : Key → Bool) (m : RegFile) (k : Key) (h : p k = true) :
    RegFile.find? (m.filter (fun x => p x.1)) k = m.find? k := by
  induction m with
  | nil => rfl
  | cons x t ih =>
    simp only [List.filter_cons]
    split
    · simp only [RegFile.find?, ih]
    · rename_i hx
      simp only [RegFile.find?, ih]
      rw [if_neg]
      intro e; subst e; exact hx h

/-- A lemma `kept_…` says that the registers outside the blocks read as before. -/
theorem Dev.rd_of_kept (M : Blk → Bool) (d e : Dev) (h : e.kept M = d.kept M) (f : Fld) (i : Nat) (hf : M (blk f.reg f.lo) = false) :
    e.rd f i = d.rd f i := by
  simp only [Dev.kept, Prod.mk.injEq] at h
  have hp : (! M (blk f.reg f.lo)) = true := by rw [hf]; rfl
  have e1 := find_filter (fun k => ! M (blk k.reg k.lo)) e.regs ⟨f.reg, f.lo, i⟩ hp
  have d1 := find_filter (fun k => ! M (blk k.reg k.lo)) d.regs ⟨f.reg, f.lo, i⟩ hp
  have h2 := h.2.2.2
  simp only [Dev.rd, ← e1, ← d1, h2]

theorem Dev.same_of_kept (bs : List Blk) (d e : Dev) (h : e.kept (fun b => bs.contains b) = d.kept (fun b => bs.contains b)) :
    Dev.SameBut bs d e := by
  have h' := h
  simp only [Dev.kept, Prod.mk.injEq] at h'
  exact ⟨h'.1, h'.2.1, fun f i hf => Dev.rd_of_kept _ d e h f i (by simpa using hf)⟩

end Sys2Proof.Machine
end

