-- ==== Sys2Proof/Laws/State.lean ====
section
/-! SUPPORT. The small laws of the state: reading after writing in the sparse maps and the register file, one lemma per field
for each update of the part, and what the register operations of Machine/Ops.lean read back. -/
namespace Sys2Proof.Machine

/-! ## Sparse maps and the register file -/

@[simp] theorem NMap.find_put_same {α : Type} (m : NMap α) (k : Nat) (v : α) : (NMap.put m k v).find? k = some v := by
  induction m with
  | nil => simp [NMap.put, NMap.find?]
  | cons x t ih =>
    simp only [NMap.put]
    (repeat' split) <;> simp_all [NMap.find?]

theorem NMap.find_put_ne {α : Type} (m : NMap α) (k j : Nat) (v : α) (h : j ≠ k) : (NMap.put m k v).find? j = m.find? j := by
  induction m with
  | nil => simp [NMap.put, NMap.find?, h]
  | cons x t ih =>
    simp only [NMap.put]
    (repeat' split) <;> simp_all [NMap.find?]

@[simp] theorem NMap.at_put_same {α : Type} (m : NMap α) (k : Nat) (v e : α) : (NMap.put m k v).at k e = v := by
  simp [NMap.at]

theorem NMap.at_put_ne {α : Type} (m : NMap α) (k j : Nat) (v e : α) (h : j ≠ k) : (NMap.put m k v).at j e = m.at j e := by
  simp [NMap.at, NMap.find_put_ne m k j v h]

@[simp] theorem RegFile.find_put_same (m : RegFile) (k : Key) (v : Nat) : (RegFile.put m k v).find? k = some v := by
  induction m with
  | nil => simp [RegFile.put, RegFile.find?]
  | cons x t ih =>
    simp only [RegFile.put]
    (repeat' split) <;> simp_all [RegFile.find?]

theorem RegFile.find_put_ne (m : RegFile) (k j : Key) (v : Nat) (h : j ≠ k) : (RegFile.put m k v).find? j = m.find? j := by
  induction m with
  | nil => simp [RegFile.put, RegFile.find?, h]
  | cons x t ih =>
    simp only [RegFile.put]
    (repeat' split) <;> simp_all [RegFile.find?]

/-! ## Register fields -/

@[simp] theorem Dev.rd_wr (d : Dev) (f : Fld) (i v : Nat) : (d.wr f i v).rd f i = v % 2 ^ f.w := by
  simp [Dev.wr, Dev.rd]

theorem Dev.rd_wr_ne (d : Dev) (f g : Fld) (i j v : Nat) (h : g.key j ≠ f.key i) : (d.wr f i v).rd g j = d.rd g j := by
  simp only [Dev.wr, Dev.rd, RegFile.find_put_ne _ _ _ _ h]

@[simp] theorem Dev.rd_wr0 (d : Dev) (f : Fld) (v : Nat) : (d.wr0 f v).rd f 0 = v % 2 ^ f.w := Dev.rd_wr d f 0 v

theorem Dev.rd_wr0_ne (d : Dev) (f g : Fld) (j v : Nat) (h : g.key j ≠ f.key 0) : (d.wr0 f v).rd g j = d.rd g j :=
  Dev.rd_wr_ne d f g 0 j v h

@[simp] theorem Dev.rd_wrc (d : Dev) (f : Fld) (i v : Nat) : (d.wrc f i v).rd f i = v % 2 ^ f.w := by
  unfold Dev.wrc
  split
  · assumption
  · simp

theorem Dev.rd_wrc_ne (d : Dev) (f g : Fld) (i j v : Nat) (h : g.key j ≠ f.key i) : (d.wrc f i v).rd g j = d.rd g j := by
  unfold Dev.wrc
  split
  · rfl
  · exact Dev.rd_wr_ne d f g i j v h

@[simp] theorem Dev.rd_bump (d : Dev) (f : Fld) (i : Nat) : (d.bump f i).rd f i = min (d.rd f i + 1) (2 ^ f.w - 1) := by
  have : 0 < 2 ^ f.w := Nat.two_pow_pos _
  simp only [Dev.bump, Dev.rd_wr]
  exact Nat.mod_eq_of_lt (by omega)

theorem Dev.rd_bump_ne (d : Dev) (f g : Fld) (i j : Nat) (h : g.key j ≠ f.key i) : (d.bump f i).rd g j = d.rd g j :=
  Dev.rd_wr_ne d f g i j _ h

theorem Dev.rd_lt (d : Dev) (f : Fld) (i : Nat) : d.rd f i < 2 ^ f.w := Nat.mod_lt _ (Nat.two_pow_pos _)

/-- A field whose registers agree reads the same. -/
theorem Dev.rd_congr {d e : Dev} (h : d.regs = e.regs) (f : Fld) (i : Nat) : d.rd f i = e.rd f i := by
  simp only [Dev.rd, h]

@[simp] theorem State.upd_next (s : State) (g : Dev → Dev) : s.upd g = .next { s with dev := g s.dev } := rfl

/-! ## Registers through the updates of hidden state -/

@[simp] theorem Dev.rd_modBoot (d : Dev) (g : BootX → BootX) (f : Fld) (i : Nat) : (d.modBoot g).rd f i = d.rd f i := rfl
@[simp] theorem Dev.on_modBoot (d : Dev) (g : BootX → BootX) (f : Fld) (i : Nat) : (d.modBoot g).on f i = d.on f i := rfl
@[simp] theorem Dev.rd_modEng (d : Dev) (g : EngX → EngX) (f : Fld) (i : Nat) : (d.modEng g).rd f i = d.rd f i := rfl
@[simp] theorem Dev.on_modEng (d : Dev) (g : EngX → EngX) (f : Fld) (i : Nat) : (d.modEng g).on f i = d.on f i := rfl
@[simp] theorem Dev.rd_modFb (d : Dev) (r : Nat) (g : FbX → FbX) (f : Fld) (i : Nat) : (d.modFb r g).rd f i = d.rd f i := rfl
@[simp] theorem Dev.on_modFb (d : Dev) (r : Nat) (g : FbX → FbX) (f : Fld) (i : Nat) : (d.modFb r g).on f i = d.on f i := rfl
@[simp] theorem Dev.rd_modGut (d : Dev) (l : Nat) (g : GutX → GutX) (f : Fld) (i : Nat) : (d.modGut l g).rd f i = d.rd f i := rfl
@[simp] theorem Dev.on_modGut (d : Dev) (l : Nat) (g : GutX → GutX) (f : Fld) (i : Nat) : (d.modGut l g).on f i = d.on f i := rfl
@[simp] theorem Dev.rd_modPoint (d : Dev) (u : Nat) (g : PointX → PointX) (f : Fld) (i : Nat) : (d.modPoint u g).rd f i = d.rd f i := rfl
@[simp] theorem Dev.on_modPoint (d : Dev) (u : Nat) (g : PointX → PointX) (f : Fld) (i : Nat) : (d.modPoint u g).on f i = d.on f i := rfl
@[simp] theorem Dev.rd_modGate (d : Dev) (k : Nat) (g : GateX → GateX) (f : Fld) (i : Nat) : (d.modGate k g).rd f i = d.rd f i := rfl
@[simp] theorem Dev.on_modGate (d : Dev) (k : Nat) (g : GateX → GateX) (f : Fld) (i : Nat) : (d.modGate k g).on f i = d.on f i := rfl
@[simp] theorem Dev.rd_modJtag (d : Dev) (g : JtagX → JtagX) (f : Fld) (i : Nat) : (d.modJtag g).rd f i = d.rd f i := rfl
@[simp] theorem Dev.on_modJtag (d : Dev) (g : JtagX → JtagX) (f : Fld) (i : Nat) : (d.modJtag g).on f i = d.on f i := rfl
@[simp] theorem Dev.rd_modMt (d : Dev) (g : MtX → MtX) (f : Fld) (i : Nat) : (d.modMt g).rd f i = d.rd f i := rfl
@[simp] theorem Dev.on_modMt (d : Dev) (g : MtX → MtX) (f : Fld) (i : Nat) : (d.modMt g).on f i = d.on f i := rfl
@[simp] theorem Dev.rd_modLane (d : Dev) (l : Nat) (g : LaneX → LaneX) (f : Fld) (i : Nat) : (d.modLane l g).rd f i = d.rd f i := rfl
@[simp] theorem Dev.on_modLane (d : Dev) (l : Nat) (g : LaneX → LaneX) (f : Fld) (i : Nat) : (d.modLane l g).on f i = d.on f i := rfl
@[simp] theorem Dev.rd_modSeg (d : Dev) (k : Nat) (g : SegX → SegX) (f : Fld) (i : Nat) : (d.modSeg k g).rd f i = d.rd f i := rfl
@[simp] theorem Dev.on_modSeg (d : Dev) (k : Nat) (g : SegX → SegX) (f : Fld) (i : Nat) : (d.modSeg k g).on f i = d.on f i := rfl
@[simp] theorem Dev.rd_modCourse (d : Dev) (n : Nat) (g : CourseX → CourseX) (f : Fld) (i : Nat) : (d.modCourse n g).rd f i = d.rd f i := rfl
@[simp] theorem Dev.on_modCourse (d : Dev) (n : Nat) (g : CourseX → CourseX) (f : Fld) (i : Nat) : (d.modCourse n g).on f i = d.on f i := rfl
@[simp] theorem Dev.rd_modRef (d : Dev) (r : Nat) (g : RefX → RefX) (f : Fld) (i : Nat) : (d.modRef r g).rd f i = d.rd f i := rfl
@[simp] theorem Dev.on_modRef (d : Dev) (r : Nat) (g : RefX → RefX) (f : Fld) (i : Nat) : (d.modRef r g).on f i = d.on f i := rfl
@[simp] theorem Dev.rd_modPu (d : Dev) (g : PuX → PuX) (f : Fld) (i : Nat) : (d.modPu g).rd f i = d.rd f i := rfl
@[simp] theorem Dev.on_modPu (d : Dev) (g : PuX → PuX) (f : Fld) (i : Nat) : (d.modPu g).on f i = d.on f i := rfl
@[simp] theorem Dev.rd_modDm (d : Dev) (g : DmX → DmX) (f : Fld) (i : Nat) : (d.modDm g).rd f i = d.rd f i := rfl
@[simp] theorem Dev.on_modDm (d : Dev) (g : DmX → DmX) (f : Fld) (i : Nat) : (d.modDm g).on f i = d.on f i := rfl
@[simp] theorem Dev.rd_modMb (d : Dev) (g : MbX → MbX) (f : Fld) (i : Nat) : (d.modMb g).rd f i = d.rd f i := rfl
@[simp] theorem Dev.on_modMb (d : Dev) (g : MbX → MbX) (f : Fld) (i : Nat) : (d.modMb g).on f i = d.on f i := rfl
@[simp] theorem Dev.rd_modMg (d : Dev) (g : MgX → MgX) (f : Fld) (i : Nat) : (d.modMg g).rd f i = d.rd f i := rfl
@[simp] theorem Dev.on_modMg (d : Dev) (g : MgX → MgX) (f : Fld) (i : Nat) : (d.modMg g).on f i = d.on f i := rfl
@[simp] theorem Dev.rd_modDom (d : Dev) (row : Nat) (g : DomX → DomX) (f : Fld) (i : Nat) : (d.modDom row g).rd f i = d.rd f i := rfl
@[simp] theorem Dev.on_modDom (d : Dev) (row : Nat) (g : DomX → DomX) (f : Fld) (i : Nat) : (d.modDom row g).on f i = d.on f i := rfl
@[simp] theorem Dev.rd_modPw (d : Dev) (g : PwX → PwX) (f : Fld) (i : Nat) : (d.modPw g).rd f i = d.rd f i := rfl
@[simp] theorem Dev.on_modPw (d : Dev) (g : PwX → PwX) (f : Fld) (i : Nat) : (d.modPw g).on f i = d.on f i := rfl

/-! ## One lemma per field per update -/

@[simp] theorem Dev.wr_regs (d : Dev) (f : Fld) (i v : Nat) : (d.wr f i v).regs = d.regs.put (f.key i) (v % 2 ^ f.w) := rfl
@[simp] theorem Dev.wr_watched (d : Dev) (f : Fld) (i v : Nat) : (d.wr f i v).watched = d.watchHit f.reg i := rfl
@[simp] theorem Dev.wr_lanes (d : Dev) (f : Fld) (i v : Nat) : (d.wr f i v).lanes = d.lanes := rfl
@[simp] theorem Dev.wr_segs (d : Dev) (f : Fld) (i v : Nat) : (d.wr f i v).segs = d.segs := rfl
@[simp] theorem Dev.wr_courses (d : Dev) (f : Fld) (i v : Nat) : (d.wr f i v).courses = d.courses := rfl
@[simp] theorem Dev.wr_refs (d : Dev) (f : Fld) (i v : Nat) : (d.wr f i v).refs = d.refs := rfl
@[simp] theorem Dev.wr_tb (d : Dev) (f : Fld) (i v : Nat) : (d.wr f i v).tb = d.tb := rfl
@[simp] theorem Dev.wr_mg (d : Dev) (f : Fld) (i v : Nat) : (d.wr f i v).mg = d.mg := rfl
@[simp] theorem Dev.wr_trig (d : Dev) (f : Fld) (i v : Nat) : (d.wr f i v).trig = d.trig := rfl
@[simp] theorem Dev.wr_pw (d : Dev) (f : Fld) (i v : Nat) : (d.wr f i v).pw = d.pw := rfl
@[simp] theorem Dev.wr_cal (d : Dev) (f : Fld) (i v : Nat) : (d.wr f i v).cal = d.cal := rfl
@[simp] theorem Dev.wr_boot (d : Dev) (f : Fld) (i v : Nat) : (d.wr f i v).boot = d.boot := rfl
@[simp] theorem Dev.wr_bnd (d : Dev) (f : Fld) (i v : Nat) : (d.wr f i v).bnd = d.bnd := rfl
@[simp] theorem Dev.wr_svcTurn (d : Dev) (f : Fld) (i v : Nat) : (d.wr f i v).svcTurn = d.svcTurn := rfl
@[simp] theorem Dev.wr_marks (d : Dev) (f : Fld) (i v : Nat) : (d.wr f i v).marks = d.marks := rfl
@[simp] theorem Dev.wr_standQ (d : Dev) (f : Fld) (i v : Nat) : (d.wr f i v).standQ = d.standQ := rfl
@[simp] theorem Dev.wr_eaves (d : Dev) (f : Fld) (i v : Nat) : (d.wr f i v).eaves = d.eaves := rfl
@[simp] theorem Dev.wr_eng (d : Dev) (f : Fld) (i v : Nat) : (d.wr f i v).eng = d.eng := rfl
@[simp] theorem Dev.wr_mt (d : Dev) (f : Fld) (i v : Nat) : (d.wr f i v).mt = d.mt := rfl
@[simp] theorem Dev.wr_pu (d : Dev) (f : Fld) (i v : Nat) : (d.wr f i v).pu = d.pu := rfl
@[simp] theorem Dev.wr_fb (d : Dev) (f : Fld) (i v : Nat) : (d.wr f i v).fb = d.fb := rfl
@[simp] theorem Dev.wr_gut (d : Dev) (f : Fld) (i v : Nat) : (d.wr f i v).gut = d.gut := rfl
@[simp] theorem Dev.wr_img (d : Dev) (f : Fld) (i v : Nat) : (d.wr f i v).img = d.img := rfl
@[simp] theorem Dev.wr_gate (d : Dev) (f : Fld) (i v : Nat) : (d.wr f i v).gate = d.gate := rfl
@[simp] theorem Dev.wr_mb (d : Dev) (f : Fld) (i v : Nat) : (d.wr f i v).mb = d.mb := rfl
@[simp] theorem Dev.wr_fuse (d : Dev) (f : Fld) (i v : Nat) : (d.wr f i v).fuse = d.fuse := rfl
@[simp] theorem Dev.wr_points (d : Dev) (f : Fld) (i v : Nat) : (d.wr f i v).points = d.points := rfl
@[simp] theorem Dev.wr_cls (d : Dev) (f : Fld) (i v : Nat) : (d.wr f i v).cls = d.cls := rfl
@[simp] theorem Dev.wr_dm (d : Dev) (f : Fld) (i v : Nat) : (d.wr f i v).dm = d.dm := rfl
@[simp] theorem Dev.wr_jtag (d : Dev) (f : Fld) (i v : Nat) : (d.wr f i v).jtag = d.jtag := rfl
@[simp] theorem Dev.wr_now (d : Dev) (f : Fld) (i v : Nat) : (d.wr f i v).now = d.now := rfl
@[simp] theorem Dev.wr_draws (d : Dev) (f : Fld) (i v : Nat) : (d.wr f i v).draws = d.draws := rfl
@[simp] theorem Dev.modBoot_regs (d : Dev) (g : BootX → BootX) : (d.modBoot g).regs = d.regs := rfl
@[simp] theorem Dev.modBoot_watched (d : Dev) (g : BootX → BootX) : (d.modBoot g).watched = d.watched := rfl
@[simp] theorem Dev.modBoot_lanes (d : Dev) (g : BootX → BootX) : (d.modBoot g).lanes = d.lanes := rfl
@[simp] theorem Dev.modBoot_segs (d : Dev) (g : BootX → BootX) : (d.modBoot g).segs = d.segs := rfl
@[simp] theorem Dev.modBoot_courses (d : Dev) (g : BootX → BootX) : (d.modBoot g).courses = d.courses := rfl
@[simp] theorem Dev.modBoot_refs (d : Dev) (g : BootX → BootX) : (d.modBoot g).refs = d.refs := rfl
@[simp] theorem Dev.modBoot_tb (d : Dev) (g : BootX → BootX) : (d.modBoot g).tb = d.tb := rfl
@[simp] theorem Dev.modBoot_mg (d : Dev) (g : BootX → BootX) : (d.modBoot g).mg = d.mg := rfl
@[simp] theorem Dev.modBoot_trig (d : Dev) (g : BootX → BootX) : (d.modBoot g).trig = d.trig := rfl
@[simp] theorem Dev.modBoot_pw (d : Dev) (g : BootX → BootX) : (d.modBoot g).pw = d.pw := rfl
@[simp] theorem Dev.modBoot_cal (d : Dev) (g : BootX → BootX) : (d.modBoot g).cal = d.cal := rfl
@[simp] theorem Dev.modBoot_boot (d : Dev) (g : BootX → BootX) : (d.modBoot g).boot = g d.boot := rfl
@[simp] theorem Dev.modBoot_bnd (d : Dev) (g : BootX → BootX) : (d.modBoot g).bnd = d.bnd := rfl
@[simp] theorem Dev.modBoot_svcTurn (d : Dev) (g : BootX → BootX) : (d.modBoot g).svcTurn = d.svcTurn := rfl
@[simp] theorem Dev.modBoot_marks (d : Dev) (g : BootX → BootX) : (d.modBoot g).marks = d.marks := rfl
@[simp] theorem Dev.modBoot_standQ (d : Dev) (g : BootX → BootX) : (d.modBoot g).standQ = d.standQ := rfl
@[simp] theorem Dev.modBoot_eaves (d : Dev) (g : BootX → BootX) : (d.modBoot g).eaves = d.eaves := rfl
@[simp] theorem Dev.modBoot_eng (d : Dev) (g : BootX → BootX) : (d.modBoot g).eng = d.eng := rfl
@[simp] theorem Dev.modBoot_mt (d : Dev) (g : BootX → BootX) : (d.modBoot g).mt = d.mt := rfl
@[simp] theorem Dev.modBoot_pu (d : Dev) (g : BootX → BootX) : (d.modBoot g).pu = d.pu := rfl
@[simp] theorem Dev.modBoot_fb (d : Dev) (g : BootX → BootX) : (d.modBoot g).fb = d.fb := rfl
@[simp] theorem Dev.modBoot_gut (d : Dev) (g : BootX → BootX) : (d.modBoot g).gut = d.gut := rfl
@[simp] theorem Dev.modBoot_img (d : Dev) (g : BootX → BootX) : (d.modBoot g).img = d.img := rfl
@[simp] theorem Dev.modBoot_gate (d : Dev) (g : BootX → BootX) : (d.modBoot g).gate = d.gate := rfl
@[simp] theorem Dev.modBoot_mb (d : Dev) (g : BootX → BootX) : (d.modBoot g).mb = d.mb := rfl
@[simp] theorem Dev.modBoot_fuse (d : Dev) (g : BootX → BootX) : (d.modBoot g).fuse = d.fuse := rfl
@[simp] theorem Dev.modBoot_points (d : Dev) (g : BootX → BootX) : (d.modBoot g).points = d.points := rfl
@[simp] theorem Dev.modBoot_cls (d : Dev) (g : BootX → BootX) : (d.modBoot g).cls = d.cls := rfl
@[simp] theorem Dev.modBoot_dm (d : Dev) (g : BootX → BootX) : (d.modBoot g).dm = d.dm := rfl
@[simp] theorem Dev.modBoot_jtag (d : Dev) (g : BootX → BootX) : (d.modBoot g).jtag = d.jtag := rfl
@[simp] theorem Dev.modBoot_now (d : Dev) (g : BootX → BootX) : (d.modBoot g).now = d.now := rfl
@[simp] theorem Dev.modBoot_draws (d : Dev) (g : BootX → BootX) : (d.modBoot g).draws = d.draws := rfl

@[simp] theorem Dev.modEng_regs (d : Dev) (g : EngX → EngX) : (d.modEng g).regs = d.regs := rfl
@[simp] theorem Dev.modEng_watched (d : Dev) (g : EngX → EngX) : (d.modEng g).watched = d.watched := rfl
@[simp] theorem Dev.modEng_lanes (d : Dev) (g : EngX → EngX) : (d.modEng g).lanes = d.lanes := rfl
@[simp] theorem Dev.modEng_segs (d : Dev) (g : EngX → EngX) : (d.modEng g).segs = d.segs := rfl
@[simp] theorem Dev.modEng_courses (d : Dev) (g : EngX → EngX) : (d.modEng g).courses = d.courses := rfl
@[simp] theorem Dev.modEng_refs (d : Dev) (g : EngX → EngX) : (d.modEng g).refs = d.refs := rfl
@[simp] theorem Dev.modEng_tb (d : Dev) (g : EngX → EngX) : (d.modEng g).tb = d.tb := rfl
@[simp] theorem Dev.modEng_mg (d : Dev) (g : EngX → EngX) : (d.modEng g).mg = d.mg := rfl
@[simp] theorem Dev.modEng_trig (d : Dev) (g : EngX → EngX) : (d.modEng g).trig = d.trig := rfl
@[simp] theorem Dev.modEng_pw (d : Dev) (g : EngX → EngX) : (d.modEng g).pw = d.pw := rfl
@[simp] theorem Dev.modEng_cal (d : Dev) (g : EngX → EngX) : (d.modEng g).cal = d.cal := rfl
@[simp] theorem Dev.modEng_boot (d : Dev) (g : EngX → EngX) : (d.modEng g).boot = d.boot := rfl
@[simp] theorem Dev.modEng_bnd (d : Dev) (g : EngX → EngX) : (d.modEng g).bnd = d.bnd := rfl
@[simp] theorem Dev.modEng_svcTurn (d : Dev) (g : EngX → EngX) : (d.modEng g).svcTurn = d.svcTurn := rfl
@[simp] theorem Dev.modEng_marks (d : Dev) (g : EngX → EngX) : (d.modEng g).marks = d.marks := rfl
@[simp] theorem Dev.modEng_standQ (d : Dev) (g : EngX → EngX) : (d.modEng g).standQ = d.standQ := rfl
@[simp] theorem Dev.modEng_eaves (d : Dev) (g : EngX → EngX) : (d.modEng g).eaves = d.eaves := rfl
@[simp] theorem Dev.modEng_eng (d : Dev) (g : EngX → EngX) : (d.modEng g).eng = g d.eng := rfl
@[simp] theorem Dev.modEng_mt (d : Dev) (g : EngX → EngX) : (d.modEng g).mt = d.mt := rfl
@[simp] theorem Dev.modEng_pu (d : Dev) (g : EngX → EngX) : (d.modEng g).pu = d.pu := rfl
@[simp] theorem Dev.modEng_fb (d : Dev) (g : EngX → EngX) : (d.modEng g).fb = d.fb := rfl
@[simp] theorem Dev.modEng_gut (d : Dev) (g : EngX → EngX) : (d.modEng g).gut = d.gut := rfl
@[simp] theorem Dev.modEng_img (d : Dev) (g : EngX → EngX) : (d.modEng g).img = d.img := rfl
@[simp] theorem Dev.modEng_gate (d : Dev) (g : EngX → EngX) : (d.modEng g).gate = d.gate := rfl
@[simp] theorem Dev.modEng_mb (d : Dev) (g : EngX → EngX) : (d.modEng g).mb = d.mb := rfl
@[simp] theorem Dev.modEng_fuse (d : Dev) (g : EngX → EngX) : (d.modEng g).fuse = d.fuse := rfl
@[simp] theorem Dev.modEng_points (d : Dev) (g : EngX → EngX) : (d.modEng g).points = d.points := rfl
@[simp] theorem Dev.modEng_cls (d : Dev) (g : EngX → EngX) : (d.modEng g).cls = d.cls := rfl
@[simp] theorem Dev.modEng_dm (d : Dev) (g : EngX → EngX) : (d.modEng g).dm = d.dm := rfl
@[simp] theorem Dev.modEng_jtag (d : Dev) (g : EngX → EngX) : (d.modEng g).jtag = d.jtag := rfl
@[simp] theorem Dev.modEng_now (d : Dev) (g : EngX → EngX) : (d.modEng g).now = d.now := rfl
@[simp] theorem Dev.modEng_draws (d : Dev) (g : EngX → EngX) : (d.modEng g).draws = d.draws := rfl

@[simp] theorem Dev.modFb_regs (d : Dev) (r : Nat) (g : FbX → FbX) : (d.modFb r g).regs = d.regs := rfl
@[simp] theorem Dev.modFb_watched (d : Dev) (r : Nat) (g : FbX → FbX) : (d.modFb r g).watched = d.watched := rfl
@[simp] theorem Dev.modFb_lanes (d : Dev) (r : Nat) (g : FbX → FbX) : (d.modFb r g).lanes = d.lanes := rfl
@[simp] theorem Dev.modFb_segs (d : Dev) (r : Nat) (g : FbX → FbX) : (d.modFb r g).segs = d.segs := rfl
@[simp] theorem Dev.modFb_courses (d : Dev) (r : Nat) (g : FbX → FbX) : (d.modFb r g).courses = d.courses := rfl
@[simp] theorem Dev.modFb_refs (d : Dev) (r : Nat) (g : FbX → FbX) : (d.modFb r g).refs = d.refs := rfl
@[simp] theorem Dev.modFb_tb (d : Dev) (r : Nat) (g : FbX → FbX) : (d.modFb r g).tb = d.tb := rfl
@[simp] theorem Dev.modFb_mg (d : Dev) (r : Nat) (g : FbX → FbX) : (d.modFb r g).mg = d.mg := rfl
@[simp] theorem Dev.modFb_trig (d : Dev) (r : Nat) (g : FbX → FbX) : (d.modFb r g).trig = d.trig := rfl
@[simp] theorem Dev.modFb_pw (d : Dev) (r : Nat) (g : FbX → FbX) : (d.modFb r g).pw = d.pw := rfl
@[simp] theorem Dev.modFb_cal (d : Dev) (r : Nat) (g : FbX → FbX) : (d.modFb r g).cal = d.cal := rfl
@[simp] theorem Dev.modFb_boot (d : Dev) (r : Nat) (g : FbX → FbX) : (d.modFb r g).boot = d.boot := rfl
@[simp] theorem Dev.modFb_bnd (d : Dev) (r : Nat) (g : FbX → FbX) : (d.modFb r g).bnd = d.bnd := rfl
@[simp] theorem Dev.modFb_svcTurn (d : Dev) (r : Nat) (g : FbX → FbX) : (d.modFb r g).svcTurn = d.svcTurn := rfl
@[simp] theorem Dev.modFb_marks (d : Dev) (r : Nat) (g : FbX → FbX) : (d.modFb r g).marks = d.marks := rfl
@[simp] theorem Dev.modFb_standQ (d : Dev) (r : Nat) (g : FbX → FbX) : (d.modFb r g).standQ = d.standQ := rfl
@[simp] theorem Dev.modFb_eaves (d : Dev) (r : Nat) (g : FbX → FbX) : (d.modFb r g).eaves = d.eaves := rfl
@[simp] theorem Dev.modFb_eng (d : Dev) (r : Nat) (g : FbX → FbX) : (d.modFb r g).eng = d.eng := rfl
@[simp] theorem Dev.modFb_mt (d : Dev) (r : Nat) (g : FbX → FbX) : (d.modFb r g).mt = d.mt := rfl
@[simp] theorem Dev.modFb_pu (d : Dev) (r : Nat) (g : FbX → FbX) : (d.modFb r g).pu = d.pu := rfl
@[simp] theorem Dev.modFb_fb (d : Dev) (r : Nat) (g : FbX → FbX) : (d.modFb r g).fb = d.fb.put r (g (d.fbx r)) := rfl
@[simp] theorem Dev.modFb_gut (d : Dev) (r : Nat) (g : FbX → FbX) : (d.modFb r g).gut = d.gut := rfl
@[simp] theorem Dev.modFb_img (d : Dev) (r : Nat) (g : FbX → FbX) : (d.modFb r g).img = d.img := rfl
@[simp] theorem Dev.modFb_gate (d : Dev) (r : Nat) (g : FbX → FbX) : (d.modFb r g).gate = d.gate := rfl
@[simp] theorem Dev.modFb_mb (d : Dev) (r : Nat) (g : FbX → FbX) : (d.modFb r g).mb = d.mb := rfl
@[simp] theorem Dev.modFb_fuse (d : Dev) (r : Nat) (g : FbX → FbX) : (d.modFb r g).fuse = d.fuse := rfl
@[simp] theorem Dev.modFb_points (d : Dev) (r : Nat) (g : FbX → FbX) : (d.modFb r g).points = d.points := rfl
@[simp] theorem Dev.modFb_cls (d : Dev) (r : Nat) (g : FbX → FbX) : (d.modFb r g).cls = d.cls := rfl
@[simp] theorem Dev.modFb_dm (d : Dev) (r : Nat) (g : FbX → FbX) : (d.modFb r g).dm = d.dm := rfl
@[simp] theorem Dev.modFb_jtag (d : Dev) (r : Nat) (g : FbX → FbX) : (d.modFb r g).jtag = d.jtag := rfl
@[simp] theorem Dev.modFb_now (d : Dev) (r : Nat) (g : FbX → FbX) : (d.modFb r g).now = d.now := rfl
@[simp] theorem Dev.modFb_draws (d : Dev) (r : Nat) (g : FbX → FbX) : (d.modFb r g).draws = d.draws := rfl

@[simp] theorem Dev.modGut_regs (d : Dev) (l : Nat) (g : GutX → GutX) : (d.modGut l g).regs = d.regs := rfl
@[simp] theorem Dev.modGut_watched (d : Dev) (l : Nat) (g : GutX → GutX) : (d.modGut l g).watched = d.watched := rfl
@[simp] theorem Dev.modGut_lanes (d : Dev) (l : Nat) (g : GutX → GutX) : (d.modGut l g).lanes = d.lanes := rfl
@[simp] theorem Dev.modGut_segs (d : Dev) (l : Nat) (g : GutX → GutX) : (d.modGut l g).segs = d.segs := rfl
@[simp] theorem Dev.modGut_courses (d : Dev) (l : Nat) (g : GutX → GutX) : (d.modGut l g).courses = d.courses := rfl
@[simp] theorem Dev.modGut_refs (d : Dev) (l : Nat) (g : GutX → GutX) : (d.modGut l g).refs = d.refs := rfl
@[simp] theorem Dev.modGut_tb (d : Dev) (l : Nat) (g : GutX → GutX) : (d.modGut l g).tb = d.tb := rfl
@[simp] theorem Dev.modGut_mg (d : Dev) (l : Nat) (g : GutX → GutX) : (d.modGut l g).mg = d.mg := rfl
@[simp] theorem Dev.modGut_trig (d : Dev) (l : Nat) (g : GutX → GutX) : (d.modGut l g).trig = d.trig := rfl
@[simp] theorem Dev.modGut_pw (d : Dev) (l : Nat) (g : GutX → GutX) : (d.modGut l g).pw = d.pw := rfl
@[simp] theorem Dev.modGut_cal (d : Dev) (l : Nat) (g : GutX → GutX) : (d.modGut l g).cal = d.cal := rfl
@[simp] theorem Dev.modGut_boot (d : Dev) (l : Nat) (g : GutX → GutX) : (d.modGut l g).boot = d.boot := rfl
@[simp] theorem Dev.modGut_bnd (d : Dev) (l : Nat) (g : GutX → GutX) : (d.modGut l g).bnd = d.bnd := rfl
@[simp] theorem Dev.modGut_svcTurn (d : Dev) (l : Nat) (g : GutX → GutX) : (d.modGut l g).svcTurn = d.svcTurn := rfl
@[simp] theorem Dev.modGut_marks (d : Dev) (l : Nat) (g : GutX → GutX) : (d.modGut l g).marks = d.marks := rfl
@[simp] theorem Dev.modGut_standQ (d : Dev) (l : Nat) (g : GutX → GutX) : (d.modGut l g).standQ = d.standQ := rfl
@[simp] theorem Dev.modGut_eaves (d : Dev) (l : Nat) (g : GutX → GutX) : (d.modGut l g).eaves = d.eaves := rfl
@[simp] theorem Dev.modGut_eng (d : Dev) (l : Nat) (g : GutX → GutX) : (d.modGut l g).eng = d.eng := rfl
@[simp] theorem Dev.modGut_mt (d : Dev) (l : Nat) (g : GutX → GutX) : (d.modGut l g).mt = d.mt := rfl
@[simp] theorem Dev.modGut_pu (d : Dev) (l : Nat) (g : GutX → GutX) : (d.modGut l g).pu = d.pu := rfl
@[simp] theorem Dev.modGut_fb (d : Dev) (l : Nat) (g : GutX → GutX) : (d.modGut l g).fb = d.fb := rfl
@[simp] theorem Dev.modGut_gut (d : Dev) (l : Nat) (g : GutX → GutX) : (d.modGut l g).gut = d.gut.put l (g (d.gutter l)) := rfl
@[simp] theorem Dev.modGut_img (d : Dev) (l : Nat) (g : GutX → GutX) : (d.modGut l g).img = d.img := rfl
@[simp] theorem Dev.modGut_gate (d : Dev) (l : Nat) (g : GutX → GutX) : (d.modGut l g).gate = d.gate := rfl
@[simp] theorem Dev.modGut_mb (d : Dev) (l : Nat) (g : GutX → GutX) : (d.modGut l g).mb = d.mb := rfl
@[simp] theorem Dev.modGut_fuse (d : Dev) (l : Nat) (g : GutX → GutX) : (d.modGut l g).fuse = d.fuse := rfl
@[simp] theorem Dev.modGut_points (d : Dev) (l : Nat) (g : GutX → GutX) : (d.modGut l g).points = d.points := rfl
@[simp] theorem Dev.modGut_cls (d : Dev) (l : Nat) (g : GutX → GutX) : (d.modGut l g).cls = d.cls := rfl
@[simp] theorem Dev.modGut_dm (d : Dev) (l : Nat) (g : GutX → GutX) : (d.modGut l g).dm = d.dm := rfl
@[simp] theorem Dev.modGut_jtag (d : Dev) (l : Nat) (g : GutX → GutX) : (d.modGut l g).jtag = d.jtag := rfl
@[simp] theorem Dev.modGut_now (d : Dev) (l : Nat) (g : GutX → GutX) : (d.modGut l g).now = d.now := rfl
@[simp] theorem Dev.modGut_draws (d : Dev) (l : Nat) (g : GutX → GutX) : (d.modGut l g).draws = d.draws := rfl

@[simp] theorem Dev.modPoint_regs (d : Dev) (u : Nat) (g : PointX → PointX) : (d.modPoint u g).regs = d.regs := rfl
@[simp] theorem Dev.modPoint_watched (d : Dev) (u : Nat) (g : PointX → PointX) : (d.modPoint u g).watched = d.watched := rfl
@[simp] theorem Dev.modPoint_lanes (d : Dev) (u : Nat) (g : PointX → PointX) : (d.modPoint u g).lanes = d.lanes := rfl
@[simp] theorem Dev.modPoint_segs (d : Dev) (u : Nat) (g : PointX → PointX) : (d.modPoint u g).segs = d.segs := rfl
@[simp] theorem Dev.modPoint_courses (d : Dev) (u : Nat) (g : PointX → PointX) : (d.modPoint u g).courses = d.courses := rfl
@[simp] theorem Dev.modPoint_refs (d : Dev) (u : Nat) (g : PointX → PointX) : (d.modPoint u g).refs = d.refs := rfl
@[simp] theorem Dev.modPoint_tb (d : Dev) (u : Nat) (g : PointX → PointX) : (d.modPoint u g).tb = d.tb := rfl
@[simp] theorem Dev.modPoint_mg (d : Dev) (u : Nat) (g : PointX → PointX) : (d.modPoint u g).mg = d.mg := rfl
@[simp] theorem Dev.modPoint_trig (d : Dev) (u : Nat) (g : PointX → PointX) : (d.modPoint u g).trig = d.trig := rfl
@[simp] theorem Dev.modPoint_pw (d : Dev) (u : Nat) (g : PointX → PointX) : (d.modPoint u g).pw = d.pw := rfl
@[simp] theorem Dev.modPoint_cal (d : Dev) (u : Nat) (g : PointX → PointX) : (d.modPoint u g).cal = d.cal := rfl
@[simp] theorem Dev.modPoint_boot (d : Dev) (u : Nat) (g : PointX → PointX) : (d.modPoint u g).boot = d.boot := rfl
@[simp] theorem Dev.modPoint_bnd (d : Dev) (u : Nat) (g : PointX → PointX) : (d.modPoint u g).bnd = d.bnd := rfl
@[simp] theorem Dev.modPoint_svcTurn (d : Dev) (u : Nat) (g : PointX → PointX) : (d.modPoint u g).svcTurn = d.svcTurn := rfl
@[simp] theorem Dev.modPoint_marks (d : Dev) (u : Nat) (g : PointX → PointX) : (d.modPoint u g).marks = d.marks := rfl
@[simp] theorem Dev.modPoint_standQ (d : Dev) (u : Nat) (g : PointX → PointX) : (d.modPoint u g).standQ = d.standQ := rfl
@[simp] theorem Dev.modPoint_eaves (d : Dev) (u : Nat) (g : PointX → PointX) : (d.modPoint u g).eaves = d.eaves := rfl
@[simp] theorem Dev.modPoint_eng (d : Dev) (u : Nat) (g : PointX → PointX) : (d.modPoint u g).eng = d.eng := rfl
@[simp] theorem Dev.modPoint_mt (d : Dev) (u : Nat) (g : PointX → PointX) : (d.modPoint u g).mt = d.mt := rfl
@[simp] theorem Dev.modPoint_pu (d : Dev) (u : Nat) (g : PointX → PointX) : (d.modPoint u g).pu = d.pu := rfl
@[simp] theorem Dev.modPoint_fb (d : Dev) (u : Nat) (g : PointX → PointX) : (d.modPoint u g).fb = d.fb := rfl
@[simp] theorem Dev.modPoint_gut (d : Dev) (u : Nat) (g : PointX → PointX) : (d.modPoint u g).gut = d.gut := rfl
@[simp] theorem Dev.modPoint_img (d : Dev) (u : Nat) (g : PointX → PointX) : (d.modPoint u g).img = d.img := rfl
@[simp] theorem Dev.modPoint_gate (d : Dev) (u : Nat) (g : PointX → PointX) : (d.modPoint u g).gate = d.gate := rfl
@[simp] theorem Dev.modPoint_mb (d : Dev) (u : Nat) (g : PointX → PointX) : (d.modPoint u g).mb = d.mb := rfl
@[simp] theorem Dev.modPoint_fuse (d : Dev) (u : Nat) (g : PointX → PointX) : (d.modPoint u g).fuse = d.fuse := rfl
@[simp] theorem Dev.modPoint_points (d : Dev) (u : Nat) (g : PointX → PointX) : (d.modPoint u g).points = d.points.put u (g (d.point u)) := rfl
@[simp] theorem Dev.modPoint_cls (d : Dev) (u : Nat) (g : PointX → PointX) : (d.modPoint u g).cls = d.cls := rfl
@[simp] theorem Dev.modPoint_dm (d : Dev) (u : Nat) (g : PointX → PointX) : (d.modPoint u g).dm = d.dm := rfl
@[simp] theorem Dev.modPoint_jtag (d : Dev) (u : Nat) (g : PointX → PointX) : (d.modPoint u g).jtag = d.jtag := rfl
@[simp] theorem Dev.modPoint_now (d : Dev) (u : Nat) (g : PointX → PointX) : (d.modPoint u g).now = d.now := rfl
@[simp] theorem Dev.modPoint_draws (d : Dev) (u : Nat) (g : PointX → PointX) : (d.modPoint u g).draws = d.draws := rfl

@[simp] theorem Dev.modGate_regs (d : Dev) (k : Nat) (g : GateX → GateX) : (d.modGate k g).regs = d.regs := rfl
@[simp] theorem Dev.modGate_watched (d : Dev) (k : Nat) (g : GateX → GateX) : (d.modGate k g).watched = d.watched := rfl
@[simp] theorem Dev.modGate_lanes (d : Dev) (k : Nat) (g : GateX → GateX) : (d.modGate k g).lanes = d.lanes := rfl
@[simp] theorem Dev.modGate_segs (d : Dev) (k : Nat) (g : GateX → GateX) : (d.modGate k g).segs = d.segs := rfl
@[simp] theorem Dev.modGate_courses (d : Dev) (k : Nat) (g : GateX → GateX) : (d.modGate k g).courses = d.courses := rfl
@[simp] theorem Dev.modGate_refs (d : Dev) (k : Nat) (g : GateX → GateX) : (d.modGate k g).refs = d.refs := rfl
@[simp] theorem Dev.modGate_tb (d : Dev) (k : Nat) (g : GateX → GateX) : (d.modGate k g).tb = d.tb := rfl
@[simp] theorem Dev.modGate_mg (d : Dev) (k : Nat) (g : GateX → GateX) : (d.modGate k g).mg = d.mg := rfl
@[simp] theorem Dev.modGate_trig (d : Dev) (k : Nat) (g : GateX → GateX) : (d.modGate k g).trig = d.trig := rfl
@[simp] theorem Dev.modGate_pw (d : Dev) (k : Nat) (g : GateX → GateX) : (d.modGate k g).pw = d.pw := rfl
@[simp] theorem Dev.modGate_cal (d : Dev) (k : Nat) (g : GateX → GateX) : (d.modGate k g).cal = d.cal := rfl
@[simp] theorem Dev.modGate_boot (d : Dev) (k : Nat) (g : GateX → GateX) : (d.modGate k g).boot = d.boot := rfl
@[simp] theorem Dev.modGate_bnd (d : Dev) (k : Nat) (g : GateX → GateX) : (d.modGate k g).bnd = d.bnd := rfl
@[simp] theorem Dev.modGate_svcTurn (d : Dev) (k : Nat) (g : GateX → GateX) : (d.modGate k g).svcTurn = d.svcTurn := rfl
@[simp] theorem Dev.modGate_marks (d : Dev) (k : Nat) (g : GateX → GateX) : (d.modGate k g).marks = d.marks := rfl
@[simp] theorem Dev.modGate_standQ (d : Dev) (k : Nat) (g : GateX → GateX) : (d.modGate k g).standQ = d.standQ := rfl
@[simp] theorem Dev.modGate_eaves (d : Dev) (k : Nat) (g : GateX → GateX) : (d.modGate k g).eaves = d.eaves := rfl
@[simp] theorem Dev.modGate_eng (d : Dev) (k : Nat) (g : GateX → GateX) : (d.modGate k g).eng = d.eng := rfl
@[simp] theorem Dev.modGate_mt (d : Dev) (k : Nat) (g : GateX → GateX) : (d.modGate k g).mt = d.mt := rfl
@[simp] theorem Dev.modGate_pu (d : Dev) (k : Nat) (g : GateX → GateX) : (d.modGate k g).pu = d.pu := rfl
@[simp] theorem Dev.modGate_fb (d : Dev) (k : Nat) (g : GateX → GateX) : (d.modGate k g).fb = d.fb := rfl
@[simp] theorem Dev.modGate_gut (d : Dev) (k : Nat) (g : GateX → GateX) : (d.modGate k g).gut = d.gut := rfl
@[simp] theorem Dev.modGate_img (d : Dev) (k : Nat) (g : GateX → GateX) : (d.modGate k g).img = d.img := rfl
@[simp] theorem Dev.modGate_gate (d : Dev) (k : Nat) (g : GateX → GateX) : (d.modGate k g).gate = d.gate.put k (g (d.gateSlot k)) := rfl
@[simp] theorem Dev.modGate_mb (d : Dev) (k : Nat) (g : GateX → GateX) : (d.modGate k g).mb = d.mb := rfl
@[simp] theorem Dev.modGate_fuse (d : Dev) (k : Nat) (g : GateX → GateX) : (d.modGate k g).fuse = d.fuse := rfl
@[simp] theorem Dev.modGate_points (d : Dev) (k : Nat) (g : GateX → GateX) : (d.modGate k g).points = d.points := rfl
@[simp] theorem Dev.modGate_cls (d : Dev) (k : Nat) (g : GateX → GateX) : (d.modGate k g).cls = d.cls := rfl
@[simp] theorem Dev.modGate_dm (d : Dev) (k : Nat) (g : GateX → GateX) : (d.modGate k g).dm = d.dm := rfl
@[simp] theorem Dev.modGate_jtag (d : Dev) (k : Nat) (g : GateX → GateX) : (d.modGate k g).jtag = d.jtag := rfl
@[simp] theorem Dev.modGate_now (d : Dev) (k : Nat) (g : GateX → GateX) : (d.modGate k g).now = d.now := rfl
@[simp] theorem Dev.modGate_draws (d : Dev) (k : Nat) (g : GateX → GateX) : (d.modGate k g).draws = d.draws := rfl

@[simp] theorem Dev.modJtag_regs (d : Dev) (g : JtagX → JtagX) : (d.modJtag g).regs = d.regs := rfl
@[simp] theorem Dev.modJtag_watched (d : Dev) (g : JtagX → JtagX) : (d.modJtag g).watched = d.watched := rfl
@[simp] theorem Dev.modJtag_lanes (d : Dev) (g : JtagX → JtagX) : (d.modJtag g).lanes = d.lanes := rfl
@[simp] theorem Dev.modJtag_segs (d : Dev) (g : JtagX → JtagX) : (d.modJtag g).segs = d.segs := rfl
@[simp] theorem Dev.modJtag_courses (d : Dev) (g : JtagX → JtagX) : (d.modJtag g).courses = d.courses := rfl
@[simp] theorem Dev.modJtag_refs (d : Dev) (g : JtagX → JtagX) : (d.modJtag g).refs = d.refs := rfl
@[simp] theorem Dev.modJtag_tb (d : Dev) (g : JtagX → JtagX) : (d.modJtag g).tb = d.tb := rfl
@[simp] theorem Dev.modJtag_mg (d : Dev) (g : JtagX → JtagX) : (d.modJtag g).mg = d.mg := rfl
@[simp] theorem Dev.modJtag_trig (d : Dev) (g : JtagX → JtagX) : (d.modJtag g).trig = d.trig := rfl
@[simp] theorem Dev.modJtag_pw (d : Dev) (g : JtagX → JtagX) : (d.modJtag g).pw = d.pw := rfl
@[simp] theorem Dev.modJtag_cal (d : Dev) (g : JtagX → JtagX) : (d.modJtag g).cal = d.cal := rfl
@[simp] theorem Dev.modJtag_boot (d : Dev) (g : JtagX → JtagX) : (d.modJtag g).boot = d.boot := rfl
@[simp] theorem Dev.modJtag_bnd (d : Dev) (g : JtagX → JtagX) : (d.modJtag g).bnd = d.bnd := rfl
@[simp] theorem Dev.modJtag_svcTurn (d : Dev) (g : JtagX → JtagX) : (d.modJtag g).svcTurn = d.svcTurn := rfl
@[simp] theorem Dev.modJtag_marks (d : Dev) (g : JtagX → JtagX) : (d.modJtag g).marks = d.marks := rfl
@[simp] theorem Dev.modJtag_standQ (d : Dev) (g : JtagX → JtagX) : (d.modJtag g).standQ = d.standQ := rfl
@[simp] theorem Dev.modJtag_eaves (d : Dev) (g : JtagX → JtagX) : (d.modJtag g).eaves = d.eaves := rfl
@[simp] theorem Dev.modJtag_eng (d : Dev) (g : JtagX → JtagX) : (d.modJtag g).eng = d.eng := rfl
@[simp] theorem Dev.modJtag_mt (d : Dev) (g : JtagX → JtagX) : (d.modJtag g).mt = d.mt := rfl
@[simp] theorem Dev.modJtag_pu (d : Dev) (g : JtagX → JtagX) : (d.modJtag g).pu = d.pu := rfl
@[simp] theorem Dev.modJtag_fb (d : Dev) (g : JtagX → JtagX) : (d.modJtag g).fb = d.fb := rfl
@[simp] theorem Dev.modJtag_gut (d : Dev) (g : JtagX → JtagX) : (d.modJtag g).gut = d.gut := rfl
@[simp] theorem Dev.modJtag_img (d : Dev) (g : JtagX → JtagX) : (d.modJtag g).img = d.img := rfl
@[simp] theorem Dev.modJtag_gate (d : Dev) (g : JtagX → JtagX) : (d.modJtag g).gate = d.gate := rfl
@[simp] theorem Dev.modJtag_mb (d : Dev) (g : JtagX → JtagX) : (d.modJtag g).mb = d.mb := rfl
@[simp] theorem Dev.modJtag_fuse (d : Dev) (g : JtagX → JtagX) : (d.modJtag g).fuse = d.fuse := rfl
@[simp] theorem Dev.modJtag_points (d : Dev) (g : JtagX → JtagX) : (d.modJtag g).points = d.points := rfl
@[simp] theorem Dev.modJtag_cls (d : Dev) (g : JtagX → JtagX) : (d.modJtag g).cls = d.cls := rfl
@[simp] theorem Dev.modJtag_dm (d : Dev) (g : JtagX → JtagX) : (d.modJtag g).dm = d.dm := rfl
@[simp] theorem Dev.modJtag_jtag (d : Dev) (g : JtagX → JtagX) : (d.modJtag g).jtag = g d.jtag := rfl
@[simp] theorem Dev.modJtag_now (d : Dev) (g : JtagX → JtagX) : (d.modJtag g).now = d.now := rfl
@[simp] theorem Dev.modJtag_draws (d : Dev) (g : JtagX → JtagX) : (d.modJtag g).draws = d.draws := rfl

@[simp] theorem Dev.modMt_regs (d : Dev) (g : MtX → MtX) : (d.modMt g).regs = d.regs := rfl
@[simp] theorem Dev.modMt_watched (d : Dev) (g : MtX → MtX) : (d.modMt g).watched = d.watched := rfl
@[simp] theorem Dev.modMt_lanes (d : Dev) (g : MtX → MtX) : (d.modMt g).lanes = d.lanes := rfl
@[simp] theorem Dev.modMt_segs (d : Dev) (g : MtX → MtX) : (d.modMt g).segs = d.segs := rfl
@[simp] theorem Dev.modMt_courses (d : Dev) (g : MtX → MtX) : (d.modMt g).courses = d.courses := rfl
@[simp] theorem Dev.modMt_refs (d : Dev) (g : MtX → MtX) : (d.modMt g).refs = d.refs := rfl
@[simp] theorem Dev.modMt_tb (d : Dev) (g : MtX → MtX) : (d.modMt g).tb = d.tb := rfl
@[simp] theorem Dev.modMt_mg (d : Dev) (g : MtX → MtX) : (d.modMt g).mg = d.mg := rfl
@[simp] theorem Dev.modMt_trig (d : Dev) (g : MtX → MtX) : (d.modMt g).trig = d.trig := rfl
@[simp] theorem Dev.modMt_pw (d : Dev) (g : MtX → MtX) : (d.modMt g).pw = d.pw := rfl
@[simp] theorem Dev.modMt_cal (d : Dev) (g : MtX → MtX) : (d.modMt g).cal = d.cal := rfl
@[simp] theorem Dev.modMt_boot (d : Dev) (g : MtX → MtX) : (d.modMt g).boot = d.boot := rfl
@[simp] theorem Dev.modMt_bnd (d : Dev) (g : MtX → MtX) : (d.modMt g).bnd = d.bnd := rfl
@[simp] theorem Dev.modMt_svcTurn (d : Dev) (g : MtX → MtX) : (d.modMt g).svcTurn = d.svcTurn := rfl
@[simp] theorem Dev.modMt_marks (d : Dev) (g : MtX → MtX) : (d.modMt g).marks = d.marks := rfl
@[simp] theorem Dev.modMt_standQ (d : Dev) (g : MtX → MtX) : (d.modMt g).standQ = d.standQ := rfl
@[simp] theorem Dev.modMt_eaves (d : Dev) (g : MtX → MtX) : (d.modMt g).eaves = d.eaves := rfl
@[simp] theorem Dev.modMt_eng (d : Dev) (g : MtX → MtX) : (d.modMt g).eng = d.eng := rfl
@[simp] theorem Dev.modMt_mt (d : Dev) (g : MtX → MtX) : (d.modMt g).mt = g d.mt := rfl
@[simp] theorem Dev.modMt_pu (d : Dev) (g : MtX → MtX) : (d.modMt g).pu = d.pu := rfl
@[simp] theorem Dev.modMt_fb (d : Dev) (g : MtX → MtX) : (d.modMt g).fb = d.fb := rfl
@[simp] theorem Dev.modMt_gut (d : Dev) (g : MtX → MtX) : (d.modMt g).gut = d.gut := rfl
@[simp] theorem Dev.modMt_img (d : Dev) (g : MtX → MtX) : (d.modMt g).img = d.img := rfl
@[simp] theorem Dev.modMt_gate (d : Dev) (g : MtX → MtX) : (d.modMt g).gate = d.gate := rfl
@[simp] theorem Dev.modMt_mb (d : Dev) (g : MtX → MtX) : (d.modMt g).mb = d.mb := rfl
@[simp] theorem Dev.modMt_fuse (d : Dev) (g : MtX → MtX) : (d.modMt g).fuse = d.fuse := rfl
@[simp] theorem Dev.modMt_points (d : Dev) (g : MtX → MtX) : (d.modMt g).points = d.points := rfl
@[simp] theorem Dev.modMt_cls (d : Dev) (g : MtX → MtX) : (d.modMt g).cls = d.cls := rfl
@[simp] theorem Dev.modMt_dm (d : Dev) (g : MtX → MtX) : (d.modMt g).dm = d.dm := rfl
@[simp] theorem Dev.modMt_jtag (d : Dev) (g : MtX → MtX) : (d.modMt g).jtag = d.jtag := rfl
@[simp] theorem Dev.modMt_now (d : Dev) (g : MtX → MtX) : (d.modMt g).now = d.now := rfl
@[simp] theorem Dev.modMt_draws (d : Dev) (g : MtX → MtX) : (d.modMt g).draws = d.draws := rfl

@[simp] theorem Dev.modLane_regs (d : Dev) (l : Nat) (g : LaneX → LaneX) : (d.modLane l g).regs = d.regs := rfl
@[simp] theorem Dev.modLane_watched (d : Dev) (l : Nat) (g : LaneX → LaneX) : (d.modLane l g).watched = d.watched := rfl
@[simp] theorem Dev.modLane_lanes (d : Dev) (l : Nat) (g : LaneX → LaneX) : (d.modLane l g).lanes = d.lanes.put l (g (d.lane l)) := rfl
@[simp] theorem Dev.modLane_segs (d : Dev) (l : Nat) (g : LaneX → LaneX) : (d.modLane l g).segs = d.segs := rfl
@[simp] theorem Dev.modLane_courses (d : Dev) (l : Nat) (g : LaneX → LaneX) : (d.modLane l g).courses = d.courses := rfl
@[simp] theorem Dev.modLane_refs (d : Dev) (l : Nat) (g : LaneX → LaneX) : (d.modLane l g).refs = d.refs := rfl
@[simp] theorem Dev.modLane_tb (d : Dev) (l : Nat) (g : LaneX → LaneX) : (d.modLane l g).tb = d.tb := rfl
@[simp] theorem Dev.modLane_mg (d : Dev) (l : Nat) (g : LaneX → LaneX) : (d.modLane l g).mg = d.mg := rfl
@[simp] theorem Dev.modLane_trig (d : Dev) (l : Nat) (g : LaneX → LaneX) : (d.modLane l g).trig = d.trig := rfl
@[simp] theorem Dev.modLane_pw (d : Dev) (l : Nat) (g : LaneX → LaneX) : (d.modLane l g).pw = d.pw := rfl
@[simp] theorem Dev.modLane_cal (d : Dev) (l : Nat) (g : LaneX → LaneX) : (d.modLane l g).cal = d.cal := rfl
@[simp] theorem Dev.modLane_boot (d : Dev) (l : Nat) (g : LaneX → LaneX) : (d.modLane l g).boot = d.boot := rfl
@[simp] theorem Dev.modLane_bnd (d : Dev) (l : Nat) (g : LaneX → LaneX) : (d.modLane l g).bnd = d.bnd := rfl
@[simp] theorem Dev.modLane_svcTurn (d : Dev) (l : Nat) (g : LaneX → LaneX) : (d.modLane l g).svcTurn = d.svcTurn := rfl
@[simp] theorem Dev.modLane_marks (d : Dev) (l : Nat) (g : LaneX → LaneX) : (d.modLane l g).marks = d.marks := rfl
@[simp] theorem Dev.modLane_standQ (d : Dev) (l : Nat) (g : LaneX → LaneX) : (d.modLane l g).standQ = d.standQ := rfl
@[simp] theorem Dev.modLane_eaves (d : Dev) (l : Nat) (g : LaneX → LaneX) : (d.modLane l g).eaves = d.eaves := rfl
@[simp] theorem Dev.modLane_eng (d : Dev) (l : Nat) (g : LaneX → LaneX) : (d.modLane l g).eng = d.eng := rfl
@[simp] theorem Dev.modLane_mt (d : Dev) (l : Nat) (g : LaneX → LaneX) : (d.modLane l g).mt = d.mt := rfl
@[simp] theorem Dev.modLane_pu (d : Dev) (l : Nat) (g : LaneX → LaneX) : (d.modLane l g).pu = d.pu := rfl
@[simp] theorem Dev.modLane_fb (d : Dev) (l : Nat) (g : LaneX → LaneX) : (d.modLane l g).fb = d.fb := rfl
@[simp] theorem Dev.modLane_gut (d : Dev) (l : Nat) (g : LaneX → LaneX) : (d.modLane l g).gut = d.gut := rfl
@[simp] theorem Dev.modLane_img (d : Dev) (l : Nat) (g : LaneX → LaneX) : (d.modLane l g).img = d.img := rfl
@[simp] theorem Dev.modLane_gate (d : Dev) (l : Nat) (g : LaneX → LaneX) : (d.modLane l g).gate = d.gate := rfl
@[simp] theorem Dev.modLane_mb (d : Dev) (l : Nat) (g : LaneX → LaneX) : (d.modLane l g).mb = d.mb := rfl
@[simp] theorem Dev.modLane_fuse (d : Dev) (l : Nat) (g : LaneX → LaneX) : (d.modLane l g).fuse = d.fuse := rfl
@[simp] theorem Dev.modLane_points (d : Dev) (l : Nat) (g : LaneX → LaneX) : (d.modLane l g).points = d.points := rfl
@[simp] theorem Dev.modLane_cls (d : Dev) (l : Nat) (g : LaneX → LaneX) : (d.modLane l g).cls = d.cls := rfl
@[simp] theorem Dev.modLane_dm (d : Dev) (l : Nat) (g : LaneX → LaneX) : (d.modLane l g).dm = d.dm := rfl
@[simp] theorem Dev.modLane_jtag (d : Dev) (l : Nat) (g : LaneX → LaneX) : (d.modLane l g).jtag = d.jtag := rfl
@[simp] theorem Dev.modLane_now (d : Dev) (l : Nat) (g : LaneX → LaneX) : (d.modLane l g).now = d.now := rfl
@[simp] theorem Dev.modLane_draws (d : Dev) (l : Nat) (g : LaneX → LaneX) : (d.modLane l g).draws = d.draws := rfl

@[simp] theorem Dev.modSeg_regs (d : Dev) (k : Nat) (g : SegX → SegX) : (d.modSeg k g).regs = d.regs := rfl
@[simp] theorem Dev.modSeg_watched (d : Dev) (k : Nat) (g : SegX → SegX) : (d.modSeg k g).watched = d.watched := rfl
@[simp] theorem Dev.modSeg_lanes (d : Dev) (k : Nat) (g : SegX → SegX) : (d.modSeg k g).lanes = d.lanes := rfl
@[simp] theorem Dev.modSeg_segs (d : Dev) (k : Nat) (g : SegX → SegX) : (d.modSeg k g).segs = d.segs.put k (g (d.seg k)) := rfl
@[simp] theorem Dev.modSeg_courses (d : Dev) (k : Nat) (g : SegX → SegX) : (d.modSeg k g).courses = d.courses := rfl
@[simp] theorem Dev.modSeg_refs (d : Dev) (k : Nat) (g : SegX → SegX) : (d.modSeg k g).refs = d.refs := rfl
@[simp] theorem Dev.modSeg_tb (d : Dev) (k : Nat) (g : SegX → SegX) : (d.modSeg k g).tb = d.tb := rfl
@[simp] theorem Dev.modSeg_mg (d : Dev) (k : Nat) (g : SegX → SegX) : (d.modSeg k g).mg = d.mg := rfl
@[simp] theorem Dev.modSeg_trig (d : Dev) (k : Nat) (g : SegX → SegX) : (d.modSeg k g).trig = d.trig := rfl
@[simp] theorem Dev.modSeg_pw (d : Dev) (k : Nat) (g : SegX → SegX) : (d.modSeg k g).pw = d.pw := rfl
@[simp] theorem Dev.modSeg_cal (d : Dev) (k : Nat) (g : SegX → SegX) : (d.modSeg k g).cal = d.cal := rfl
@[simp] theorem Dev.modSeg_boot (d : Dev) (k : Nat) (g : SegX → SegX) : (d.modSeg k g).boot = d.boot := rfl
@[simp] theorem Dev.modSeg_bnd (d : Dev) (k : Nat) (g : SegX → SegX) : (d.modSeg k g).bnd = d.bnd := rfl
@[simp] theorem Dev.modSeg_svcTurn (d : Dev) (k : Nat) (g : SegX → SegX) : (d.modSeg k g).svcTurn = d.svcTurn := rfl
@[simp] theorem Dev.modSeg_marks (d : Dev) (k : Nat) (g : SegX → SegX) : (d.modSeg k g).marks = d.marks := rfl
@[simp] theorem Dev.modSeg_standQ (d : Dev) (k : Nat) (g : SegX → SegX) : (d.modSeg k g).standQ = d.standQ := rfl
@[simp] theorem Dev.modSeg_eaves (d : Dev) (k : Nat) (g : SegX → SegX) : (d.modSeg k g).eaves = d.eaves := rfl
@[simp] theorem Dev.modSeg_eng (d : Dev) (k : Nat) (g : SegX → SegX) : (d.modSeg k g).eng = d.eng := rfl
@[simp] theorem Dev.modSeg_mt (d : Dev) (k : Nat) (g : SegX → SegX) : (d.modSeg k g).mt = d.mt := rfl
@[simp] theorem Dev.modSeg_pu (d : Dev) (k : Nat) (g : SegX → SegX) : (d.modSeg k g).pu = d.pu := rfl
@[simp] theorem Dev.modSeg_fb (d : Dev) (k : Nat) (g : SegX → SegX) : (d.modSeg k g).fb = d.fb := rfl
@[simp] theorem Dev.modSeg_gut (d : Dev) (k : Nat) (g : SegX → SegX) : (d.modSeg k g).gut = d.gut := rfl
@[simp] theorem Dev.modSeg_img (d : Dev) (k : Nat) (g : SegX → SegX) : (d.modSeg k g).img = d.img := rfl
@[simp] theorem Dev.modSeg_gate (d : Dev) (k : Nat) (g : SegX → SegX) : (d.modSeg k g).gate = d.gate := rfl
@[simp] theorem Dev.modSeg_mb (d : Dev) (k : Nat) (g : SegX → SegX) : (d.modSeg k g).mb = d.mb := rfl
@[simp] theorem Dev.modSeg_fuse (d : Dev) (k : Nat) (g : SegX → SegX) : (d.modSeg k g).fuse = d.fuse := rfl
@[simp] theorem Dev.modSeg_points (d : Dev) (k : Nat) (g : SegX → SegX) : (d.modSeg k g).points = d.points := rfl
@[simp] theorem Dev.modSeg_cls (d : Dev) (k : Nat) (g : SegX → SegX) : (d.modSeg k g).cls = d.cls := rfl
@[simp] theorem Dev.modSeg_dm (d : Dev) (k : Nat) (g : SegX → SegX) : (d.modSeg k g).dm = d.dm := rfl
@[simp] theorem Dev.modSeg_jtag (d : Dev) (k : Nat) (g : SegX → SegX) : (d.modSeg k g).jtag = d.jtag := rfl
@[simp] theorem Dev.modSeg_now (d : Dev) (k : Nat) (g : SegX → SegX) : (d.modSeg k g).now = d.now := rfl
@[simp] theorem Dev.modSeg_draws (d : Dev) (k : Nat) (g : SegX → SegX) : (d.modSeg k g).draws = d.draws := rfl

@[simp] theorem Dev.modCourse_regs (d : Dev) (n : Nat) (g : CourseX → CourseX) : (d.modCourse n g).regs = d.regs := rfl
@[simp] theorem Dev.modCourse_watched (d : Dev) (n : Nat) (g : CourseX → CourseX) : (d.modCourse n g).watched = d.watched := rfl
@[simp] theorem Dev.modCourse_lanes (d : Dev) (n : Nat) (g : CourseX → CourseX) : (d.modCourse n g).lanes = d.lanes := rfl
@[simp] theorem Dev.modCourse_segs (d : Dev) (n : Nat) (g : CourseX → CourseX) : (d.modCourse n g).segs = d.segs := rfl
@[simp] theorem Dev.modCourse_courses (d : Dev) (n : Nat) (g : CourseX → CourseX) : (d.modCourse n g).courses = d.courses.put n (g (d.course n)) := rfl
@[simp] theorem Dev.modCourse_refs (d : Dev) (n : Nat) (g : CourseX → CourseX) : (d.modCourse n g).refs = d.refs := rfl
@[simp] theorem Dev.modCourse_tb (d : Dev) (n : Nat) (g : CourseX → CourseX) : (d.modCourse n g).tb = d.tb := rfl
@[simp] theorem Dev.modCourse_mg (d : Dev) (n : Nat) (g : CourseX → CourseX) : (d.modCourse n g).mg = d.mg := rfl
@[simp] theorem Dev.modCourse_trig (d : Dev) (n : Nat) (g : CourseX → CourseX) : (d.modCourse n g).trig = d.trig := rfl
@[simp] theorem Dev.modCourse_pw (d : Dev) (n : Nat) (g : CourseX → CourseX) : (d.modCourse n g).pw = d.pw := rfl
@[simp] theorem Dev.modCourse_cal (d : Dev) (n : Nat) (g : CourseX → CourseX) : (d.modCourse n g).cal = d.cal := rfl
@[simp] theorem Dev.modCourse_boot (d : Dev) (n : Nat) (g : CourseX → CourseX) : (d.modCourse n g).boot = d.boot := rfl
@[simp] theorem Dev.modCourse_bnd (d : Dev) (n : Nat) (g : CourseX → CourseX) : (d.modCourse n g).bnd = d.bnd := rfl
@[simp] theorem Dev.modCourse_svcTurn (d : Dev) (n : Nat) (g : CourseX → CourseX) : (d.modCourse n g).svcTurn = d.svcTurn := rfl
@[simp] theorem Dev.modCourse_marks (d : Dev) (n : Nat) (g : CourseX → CourseX) : (d.modCourse n g).marks = d.marks := rfl
@[simp] theorem Dev.modCourse_standQ (d : Dev) (n : Nat) (g : CourseX → CourseX) : (d.modCourse n g).standQ = d.standQ := rfl
@[simp] theorem Dev.modCourse_eaves (d : Dev) (n : Nat) (g : CourseX → CourseX) : (d.modCourse n g).eaves = d.eaves := rfl
@[simp] theorem Dev.modCourse_eng (d : Dev) (n : Nat) (g : CourseX → CourseX) : (d.modCourse n g).eng = d.eng := rfl
@[simp] theorem Dev.modCourse_mt (d : Dev) (n : Nat) (g : CourseX → CourseX) : (d.modCourse n g).mt = d.mt := rfl
@[simp] theorem Dev.modCourse_pu (d : Dev) (n : Nat) (g : CourseX → CourseX) : (d.modCourse n g).pu = d.pu := rfl
@[simp] theorem Dev.modCourse_fb (d : Dev) (n : Nat) (g : CourseX → CourseX) : (d.modCourse n g).fb = d.fb := rfl
@[simp] theorem Dev.modCourse_gut (d : Dev) (n : Nat) (g : CourseX → CourseX) : (d.modCourse n g).gut = d.gut := rfl
@[simp] theorem Dev.modCourse_img (d : Dev) (n : Nat) (g : CourseX → CourseX) : (d.modCourse n g).img = d.img := rfl
@[simp] theorem Dev.modCourse_gate (d : Dev) (n : Nat) (g : CourseX → CourseX) : (d.modCourse n g).gate = d.gate := rfl
@[simp] theorem Dev.modCourse_mb (d : Dev) (n : Nat) (g : CourseX → CourseX) : (d.modCourse n g).mb = d.mb := rfl
@[simp] theorem Dev.modCourse_fuse (d : Dev) (n : Nat) (g : CourseX → CourseX) : (d.modCourse n g).fuse = d.fuse := rfl
@[simp] theorem Dev.modCourse_points (d : Dev) (n : Nat) (g : CourseX → CourseX) : (d.modCourse n g).points = d.points := rfl
@[simp] theorem Dev.modCourse_cls (d : Dev) (n : Nat) (g : CourseX → CourseX) : (d.modCourse n g).cls = d.cls := rfl
@[simp] theorem Dev.modCourse_dm (d : Dev) (n : Nat) (g : CourseX → CourseX) : (d.modCourse n g).dm = d.dm := rfl
@[simp] theorem Dev.modCourse_jtag (d : Dev) (n : Nat) (g : CourseX → CourseX) : (d.modCourse n g).jtag = d.jtag := rfl
@[simp] theorem Dev.modCourse_now (d : Dev) (n : Nat) (g : CourseX → CourseX) : (d.modCourse n g).now = d.now := rfl
@[simp] theorem Dev.modCourse_draws (d : Dev) (n : Nat) (g : CourseX → CourseX) : (d.modCourse n g).draws = d.draws := rfl

@[simp] theorem Dev.modRef_regs (d : Dev) (r : Nat) (g : RefX → RefX) : (d.modRef r g).regs = d.regs := rfl
@[simp] theorem Dev.modRef_watched (d : Dev) (r : Nat) (g : RefX → RefX) : (d.modRef r g).watched = d.watched := rfl
@[simp] theorem Dev.modRef_lanes (d : Dev) (r : Nat) (g : RefX → RefX) : (d.modRef r g).lanes = d.lanes := rfl
@[simp] theorem Dev.modRef_segs (d : Dev) (r : Nat) (g : RefX → RefX) : (d.modRef r g).segs = d.segs := rfl
@[simp] theorem Dev.modRef_courses (d : Dev) (r : Nat) (g : RefX → RefX) : (d.modRef r g).courses = d.courses := rfl
@[simp] theorem Dev.modRef_refs (d : Dev) (r : Nat) (g : RefX → RefX) : (d.modRef r g).refs = d.refs.put r (g (d.ref r)) := rfl
@[simp] theorem Dev.modRef_tb (d : Dev) (r : Nat) (g : RefX → RefX) : (d.modRef r g).tb = d.tb := rfl
@[simp] theorem Dev.modRef_mg (d : Dev) (r : Nat) (g : RefX → RefX) : (d.modRef r g).mg = d.mg := rfl
@[simp] theorem Dev.modRef_trig (d : Dev) (r : Nat) (g : RefX → RefX) : (d.modRef r g).trig = d.trig := rfl
@[simp] theorem Dev.modRef_pw (d : Dev) (r : Nat) (g : RefX → RefX) : (d.modRef r g).pw = d.pw := rfl
@[simp] theorem Dev.modRef_cal (d : Dev) (r : Nat) (g : RefX → RefX) : (d.modRef r g).cal = d.cal := rfl
@[simp] theorem Dev.modRef_boot (d : Dev) (r : Nat) (g : RefX → RefX) : (d.modRef r g).boot = d.boot := rfl
@[simp] theorem Dev.modRef_bnd (d : Dev) (r : Nat) (g : RefX → RefX) : (d.modRef r g).bnd = d.bnd := rfl
@[simp] theorem Dev.modRef_svcTurn (d : Dev) (r : Nat) (g : RefX → RefX) : (d.modRef r g).svcTurn = d.svcTurn := rfl
@[simp] theorem Dev.modRef_marks (d : Dev) (r : Nat) (g : RefX → RefX) : (d.modRef r g).marks = d.marks := rfl
@[simp] theorem Dev.modRef_standQ (d : Dev) (r : Nat) (g : RefX → RefX) : (d.modRef r g).standQ = d.standQ := rfl
@[simp] theorem Dev.modRef_eaves (d : Dev) (r : Nat) (g : RefX → RefX) : (d.modRef r g).eaves = d.eaves := rfl
@[simp] theorem Dev.modRef_eng (d : Dev) (r : Nat) (g : RefX → RefX) : (d.modRef r g).eng = d.eng := rfl
@[simp] theorem Dev.modRef_mt (d : Dev) (r : Nat) (g : RefX → RefX) : (d.modRef r g).mt = d.mt := rfl
@[simp] theorem Dev.modRef_pu (d : Dev) (r : Nat) (g : RefX → RefX) : (d.modRef r g).pu = d.pu := rfl
@[simp] theorem Dev.modRef_fb (d : Dev) (r : Nat) (g : RefX → RefX) : (d.modRef r g).fb = d.fb := rfl
@[simp] theorem Dev.modRef_gut (d : Dev) (r : Nat) (g : RefX → RefX) : (d.modRef r g).gut = d.gut := rfl
@[simp] theorem Dev.modRef_img (d : Dev) (r : Nat) (g : RefX → RefX) : (d.modRef r g).img = d.img := rfl
@[simp] theorem Dev.modRef_gate (d : Dev) (r : Nat) (g : RefX → RefX) : (d.modRef r g).gate = d.gate := rfl
@[simp] theorem Dev.modRef_mb (d : Dev) (r : Nat) (g : RefX → RefX) : (d.modRef r g).mb = d.mb := rfl
@[simp] theorem Dev.modRef_fuse (d : Dev) (r : Nat) (g : RefX → RefX) : (d.modRef r g).fuse = d.fuse := rfl
@[simp] theorem Dev.modRef_points (d : Dev) (r : Nat) (g : RefX → RefX) : (d.modRef r g).points = d.points := rfl
@[simp] theorem Dev.modRef_cls (d : Dev) (r : Nat) (g : RefX → RefX) : (d.modRef r g).cls = d.cls := rfl
@[simp] theorem Dev.modRef_dm (d : Dev) (r : Nat) (g : RefX → RefX) : (d.modRef r g).dm = d.dm := rfl
@[simp] theorem Dev.modRef_jtag (d : Dev) (r : Nat) (g : RefX → RefX) : (d.modRef r g).jtag = d.jtag := rfl
@[simp] theorem Dev.modRef_now (d : Dev) (r : Nat) (g : RefX → RefX) : (d.modRef r g).now = d.now := rfl
@[simp] theorem Dev.modRef_draws (d : Dev) (r : Nat) (g : RefX → RefX) : (d.modRef r g).draws = d.draws := rfl

@[simp] theorem Dev.modPu_regs (d : Dev) (g : PuX → PuX) : (d.modPu g).regs = d.regs := rfl
@[simp] theorem Dev.modPu_watched (d : Dev) (g : PuX → PuX) : (d.modPu g).watched = d.watched := rfl
@[simp] theorem Dev.modPu_lanes (d : Dev) (g : PuX → PuX) : (d.modPu g).lanes = d.lanes := rfl
@[simp] theorem Dev.modPu_segs (d : Dev) (g : PuX → PuX) : (d.modPu g).segs = d.segs := rfl
@[simp] theorem Dev.modPu_courses (d : Dev) (g : PuX → PuX) : (d.modPu g).courses = d.courses := rfl
@[simp] theorem Dev.modPu_refs (d : Dev) (g : PuX → PuX) : (d.modPu g).refs = d.refs := rfl
@[simp] theorem Dev.modPu_tb (d : Dev) (g : PuX → PuX) : (d.modPu g).tb = d.tb := rfl
@[simp] theorem Dev.modPu_mg (d : Dev) (g : PuX → PuX) : (d.modPu g).mg = d.mg := rfl
@[simp] theorem Dev.modPu_trig (d : Dev) (g : PuX → PuX) : (d.modPu g).trig = d.trig := rfl
@[simp] theorem Dev.modPu_pw (d : Dev) (g : PuX → PuX) : (d.modPu g).pw = d.pw := rfl
@[simp] theorem Dev.modPu_cal (d : Dev) (g : PuX → PuX) : (d.modPu g).cal = d.cal := rfl
@[simp] theorem Dev.modPu_boot (d : Dev) (g : PuX → PuX) : (d.modPu g).boot = d.boot := rfl
@[simp] theorem Dev.modPu_bnd (d : Dev) (g : PuX → PuX) : (d.modPu g).bnd = d.bnd := rfl
@[simp] theorem Dev.modPu_svcTurn (d : Dev) (g : PuX → PuX) : (d.modPu g).svcTurn = d.svcTurn := rfl
@[simp] theorem Dev.modPu_marks (d : Dev) (g : PuX → PuX) : (d.modPu g).marks = d.marks := rfl
@[simp] theorem Dev.modPu_standQ (d : Dev) (g : PuX → PuX) : (d.modPu g).standQ = d.standQ := rfl
@[simp] theorem Dev.modPu_eaves (d : Dev) (g : PuX → PuX) : (d.modPu g).eaves = d.eaves := rfl
@[simp] theorem Dev.modPu_eng (d : Dev) (g : PuX → PuX) : (d.modPu g).eng = d.eng := rfl
@[simp] theorem Dev.modPu_mt (d : Dev) (g : PuX → PuX) : (d.modPu g).mt = d.mt := rfl
@[simp] theorem Dev.modPu_pu (d : Dev) (g : PuX → PuX) : (d.modPu g).pu = g d.pu := rfl
@[simp] theorem Dev.modPu_fb (d : Dev) (g : PuX → PuX) : (d.modPu g).fb = d.fb := rfl
@[simp] theorem Dev.modPu_gut (d : Dev) (g : PuX → PuX) : (d.modPu g).gut = d.gut := rfl
@[simp] theorem Dev.modPu_img (d : Dev) (g : PuX → PuX) : (d.modPu g).img = d.img := rfl
@[simp] theorem Dev.modPu_gate (d : Dev) (g : PuX → PuX) : (d.modPu g).gate = d.gate := rfl
@[simp] theorem Dev.modPu_mb (d : Dev) (g : PuX → PuX) : (d.modPu g).mb = d.mb := rfl
@[simp] theorem Dev.modPu_fuse (d : Dev) (g : PuX → PuX) : (d.modPu g).fuse = d.fuse := rfl
@[simp] theorem Dev.modPu_points (d : Dev) (g : PuX → PuX) : (d.modPu g).points = d.points := rfl
@[simp] theorem Dev.modPu_cls (d : Dev) (g : PuX → PuX) : (d.modPu g).cls = d.cls := rfl
@[simp] theorem Dev.modPu_dm (d : Dev) (g : PuX → PuX) : (d.modPu g).dm = d.dm := rfl
@[simp] theorem Dev.modPu_jtag (d : Dev) (g : PuX → PuX) : (d.modPu g).jtag = d.jtag := rfl
@[simp] theorem Dev.modPu_now (d : Dev) (g : PuX → PuX) : (d.modPu g).now = d.now := rfl
@[simp] theorem Dev.modPu_draws (d : Dev) (g : PuX → PuX) : (d.modPu g).draws = d.draws := rfl

@[simp] theorem Dev.modDm_regs (d : Dev) (g : DmX → DmX) : (d.modDm g).regs = d.regs := rfl
@[simp] theorem Dev.modDm_watched (d : Dev) (g : DmX → DmX) : (d.modDm g).watched = d.watched := rfl
@[simp] theorem Dev.modDm_lanes (d : Dev) (g : DmX → DmX) : (d.modDm g).lanes = d.lanes := rfl
@[simp] theorem Dev.modDm_segs (d : Dev) (g : DmX → DmX) : (d.modDm g).segs = d.segs := rfl
@[simp] theorem Dev.modDm_courses (d : Dev) (g : DmX → DmX) : (d.modDm g).courses = d.courses := rfl
@[simp] theorem Dev.modDm_refs (d : Dev) (g : DmX → DmX) : (d.modDm g).refs = d.refs := rfl
@[simp] theorem Dev.modDm_tb (d : Dev) (g : DmX → DmX) : (d.modDm g).tb = d.tb := rfl
@[simp] theorem Dev.modDm_mg (d : Dev) (g : DmX → DmX) : (d.modDm g).mg = d.mg := rfl
@[simp] theorem Dev.modDm_trig (d : Dev) (g : DmX → DmX) : (d.modDm g).trig = d.trig := rfl
@[simp] theorem Dev.modDm_pw (d : Dev) (g : DmX → DmX) : (d.modDm g).pw = d.pw := rfl
@[simp] theorem Dev.modDm_cal (d : Dev) (g : DmX → DmX) : (d.modDm g).cal = d.cal := rfl
@[simp] theorem Dev.modDm_boot (d : Dev) (g : DmX → DmX) : (d.modDm g).boot = d.boot := rfl
@[simp] theorem Dev.modDm_bnd (d : Dev) (g : DmX → DmX) : (d.modDm g).bnd = d.bnd := rfl
@[simp] theorem Dev.modDm_svcTurn (d : Dev) (g : DmX → DmX) : (d.modDm g).svcTurn = d.svcTurn := rfl
@[simp] theorem Dev.modDm_marks (d : Dev) (g : DmX → DmX) : (d.modDm g).marks = d.marks := rfl
@[simp] theorem Dev.modDm_standQ (d : Dev) (g : DmX → DmX) : (d.modDm g).standQ = d.standQ := rfl
@[simp] theorem Dev.modDm_eaves (d : Dev) (g : DmX → DmX) : (d.modDm g).eaves = d.eaves := rfl
@[simp] theorem Dev.modDm_eng (d : Dev) (g : DmX → DmX) : (d.modDm g).eng = d.eng := rfl
@[simp] theorem Dev.modDm_mt (d : Dev) (g : DmX → DmX) : (d.modDm g).mt = d.mt := rfl
@[simp] theorem Dev.modDm_pu (d : Dev) (g : DmX → DmX) : (d.modDm g).pu = d.pu := rfl
@[simp] theorem Dev.modDm_fb (d : Dev) (g : DmX → DmX) : (d.modDm g).fb = d.fb := rfl
@[simp] theorem Dev.modDm_gut (d : Dev) (g : DmX → DmX) : (d.modDm g).gut = d.gut := rfl
@[simp] theorem Dev.modDm_img (d : Dev) (g : DmX → DmX) : (d.modDm g).img = d.img := rfl
@[simp] theorem Dev.modDm_gate (d : Dev) (g : DmX → DmX) : (d.modDm g).gate = d.gate := rfl
@[simp] theorem Dev.modDm_mb (d : Dev) (g : DmX → DmX) : (d.modDm g).mb = d.mb := rfl
@[simp] theorem Dev.modDm_fuse (d : Dev) (g : DmX → DmX) : (d.modDm g).fuse = d.fuse := rfl
@[simp] theorem Dev.modDm_points (d : Dev) (g : DmX → DmX) : (d.modDm g).points = d.points := rfl
@[simp] theorem Dev.modDm_cls (d : Dev) (g : DmX → DmX) : (d.modDm g).cls = d.cls := rfl
@[simp] theorem Dev.modDm_dm (d : Dev) (g : DmX → DmX) : (d.modDm g).dm = g d.dm := rfl
@[simp] theorem Dev.modDm_jtag (d : Dev) (g : DmX → DmX) : (d.modDm g).jtag = d.jtag := rfl
@[simp] theorem Dev.modDm_now (d : Dev) (g : DmX → DmX) : (d.modDm g).now = d.now := rfl
@[simp] theorem Dev.modDm_draws (d : Dev) (g : DmX → DmX) : (d.modDm g).draws = d.draws := rfl

@[simp] theorem Dev.modMb_regs (d : Dev) (g : MbX → MbX) : (d.modMb g).regs = d.regs := rfl
@[simp] theorem Dev.modMb_watched (d : Dev) (g : MbX → MbX) : (d.modMb g).watched = d.watched := rfl
@[simp] theorem Dev.modMb_lanes (d : Dev) (g : MbX → MbX) : (d.modMb g).lanes = d.lanes := rfl
@[simp] theorem Dev.modMb_segs (d : Dev) (g : MbX → MbX) : (d.modMb g).segs = d.segs := rfl
@[simp] theorem Dev.modMb_courses (d : Dev) (g : MbX → MbX) : (d.modMb g).courses = d.courses := rfl
@[simp] theorem Dev.modMb_refs (d : Dev) (g : MbX → MbX) : (d.modMb g).refs = d.refs := rfl
@[simp] theorem Dev.modMb_tb (d : Dev) (g : MbX → MbX) : (d.modMb g).tb = d.tb := rfl
@[simp] theorem Dev.modMb_mg (d : Dev) (g : MbX → MbX) : (d.modMb g).mg = d.mg := rfl
@[simp] theorem Dev.modMb_trig (d : Dev) (g : MbX → MbX) : (d.modMb g).trig = d.trig := rfl
@[simp] theorem Dev.modMb_pw (d : Dev) (g : MbX → MbX) : (d.modMb g).pw = d.pw := rfl
@[simp] theorem Dev.modMb_cal (d : Dev) (g : MbX → MbX) : (d.modMb g).cal = d.cal := rfl
@[simp] theorem Dev.modMb_boot (d : Dev) (g : MbX → MbX) : (d.modMb g).boot = d.boot := rfl
@[simp] theorem Dev.modMb_bnd (d : Dev) (g : MbX → MbX) : (d.modMb g).bnd = d.bnd := rfl
@[simp] theorem Dev.modMb_svcTurn (d : Dev) (g : MbX → MbX) : (d.modMb g).svcTurn = d.svcTurn := rfl
@[simp] theorem Dev.modMb_marks (d : Dev) (g : MbX → MbX) : (d.modMb g).marks = d.marks := rfl
@[simp] theorem Dev.modMb_standQ (d : Dev) (g : MbX → MbX) : (d.modMb g).standQ = d.standQ := rfl
@[simp] theorem Dev.modMb_eaves (d : Dev) (g : MbX → MbX) : (d.modMb g).eaves = d.eaves := rfl
@[simp] theorem Dev.modMb_eng (d : Dev) (g : MbX → MbX) : (d.modMb g).eng = d.eng := rfl
@[simp] theorem Dev.modMb_mt (d : Dev) (g : MbX → MbX) : (d.modMb g).mt = d.mt := rfl
@[simp] theorem Dev.modMb_pu (d : Dev) (g : MbX → MbX) : (d.modMb g).pu = d.pu := rfl
@[simp] theorem Dev.modMb_fb (d : Dev) (g : MbX → MbX) : (d.modMb g).fb = d.fb := rfl
@[simp] theorem Dev.modMb_gut (d : Dev) (g : MbX → MbX) : (d.modMb g).gut = d.gut := rfl
@[simp] theorem Dev.modMb_img (d : Dev) (g : MbX → MbX) : (d.modMb g).img = d.img := rfl
@[simp] theorem Dev.modMb_gate (d : Dev) (g : MbX → MbX) : (d.modMb g).gate = d.gate := rfl
@[simp] theorem Dev.modMb_mb (d : Dev) (g : MbX → MbX) : (d.modMb g).mb = g d.mb := rfl
@[simp] theorem Dev.modMb_fuse (d : Dev) (g : MbX → MbX) : (d.modMb g).fuse = d.fuse := rfl
@[simp] theorem Dev.modMb_points (d : Dev) (g : MbX → MbX) : (d.modMb g).points = d.points := rfl
@[simp] theorem Dev.modMb_cls (d : Dev) (g : MbX → MbX) : (d.modMb g).cls = d.cls := rfl
@[simp] theorem Dev.modMb_dm (d : Dev) (g : MbX → MbX) : (d.modMb g).dm = d.dm := rfl
@[simp] theorem Dev.modMb_jtag (d : Dev) (g : MbX → MbX) : (d.modMb g).jtag = d.jtag := rfl
@[simp] theorem Dev.modMb_now (d : Dev) (g : MbX → MbX) : (d.modMb g).now = d.now := rfl
@[simp] theorem Dev.modMb_draws (d : Dev) (g : MbX → MbX) : (d.modMb g).draws = d.draws := rfl

@[simp] theorem Dev.modMg_regs (d : Dev) (g : MgX → MgX) : (d.modMg g).regs = d.regs := rfl
@[simp] theorem Dev.modMg_watched (d : Dev) (g : MgX → MgX) : (d.modMg g).watched = d.watched := rfl
@[simp] theorem Dev.modMg_lanes (d : Dev) (g : MgX → MgX) : (d.modMg g).lanes = d.lanes := rfl
@[simp] theorem Dev.modMg_segs (d : Dev) (g : MgX → MgX) : (d.modMg g).segs = d.segs := rfl
@[simp] theorem Dev.modMg_courses (d : Dev) (g : MgX → MgX) : (d.modMg g).courses = d.courses := rfl
@[simp] theorem Dev.modMg_refs (d : Dev) (g : MgX → MgX) : (d.modMg g).refs = d.refs := rfl
@[simp] theorem Dev.modMg_tb (d : Dev) (g : MgX → MgX) : (d.modMg g).tb = d.tb := rfl
@[simp] theorem Dev.modMg_mg (d : Dev) (g : MgX → MgX) : (d.modMg g).mg = g d.mg := rfl
@[simp] theorem Dev.modMg_trig (d : Dev) (g : MgX → MgX) : (d.modMg g).trig = d.trig := rfl
@[simp] theorem Dev.modMg_pw (d : Dev) (g : MgX → MgX) : (d.modMg g).pw = d.pw := rfl
@[simp] theorem Dev.modMg_cal (d : Dev) (g : MgX → MgX) : (d.modMg g).cal = d.cal := rfl
@[simp] theorem Dev.modMg_boot (d : Dev) (g : MgX → MgX) : (d.modMg g).boot = d.boot := rfl
@[simp] theorem Dev.modMg_bnd (d : Dev) (g : MgX → MgX) : (d.modMg g).bnd = d.bnd := rfl
@[simp] theorem Dev.modMg_svcTurn (d : Dev) (g : MgX → MgX) : (d.modMg g).svcTurn = d.svcTurn := rfl
@[simp] theorem Dev.modMg_marks (d : Dev) (g : MgX → MgX) : (d.modMg g).marks = d.marks := rfl
@[simp] theorem Dev.modMg_standQ (d : Dev) (g : MgX → MgX) : (d.modMg g).standQ = d.standQ := rfl
@[simp] theorem Dev.modMg_eaves (d : Dev) (g : MgX → MgX) : (d.modMg g).eaves = d.eaves := rfl
@[simp] theorem Dev.modMg_eng (d : Dev) (g : MgX → MgX) : (d.modMg g).eng = d.eng := rfl
@[simp] theorem Dev.modMg_mt (d : Dev) (g : MgX → MgX) : (d.modMg g).mt = d.mt := rfl
@[simp] theorem Dev.modMg_pu (d : Dev) (g : MgX → MgX) : (d.modMg g).pu = d.pu := rfl
@[simp] theorem Dev.modMg_fb (d : Dev) (g : MgX → MgX) : (d.modMg g).fb = d.fb := rfl
@[simp] theorem Dev.modMg_gut (d : Dev) (g : MgX → MgX) : (d.modMg g).gut = d.gut := rfl
@[simp] theorem Dev.modMg_img (d : Dev) (g : MgX → MgX) : (d.modMg g).img = d.img := rfl
@[simp] theorem Dev.modMg_gate (d : Dev) (g : MgX → MgX) : (d.modMg g).gate = d.gate := rfl
@[simp] theorem Dev.modMg_mb (d : Dev) (g : MgX → MgX) : (d.modMg g).mb = d.mb := rfl
@[simp] theorem Dev.modMg_fuse (d : Dev) (g : MgX → MgX) : (d.modMg g).fuse = d.fuse := rfl
@[simp] theorem Dev.modMg_points (d : Dev) (g : MgX → MgX) : (d.modMg g).points = d.points := rfl
@[simp] theorem Dev.modMg_cls (d : Dev) (g : MgX → MgX) : (d.modMg g).cls = d.cls := rfl
@[simp] theorem Dev.modMg_dm (d : Dev) (g : MgX → MgX) : (d.modMg g).dm = d.dm := rfl
@[simp] theorem Dev.modMg_jtag (d : Dev) (g : MgX → MgX) : (d.modMg g).jtag = d.jtag := rfl
@[simp] theorem Dev.modMg_now (d : Dev) (g : MgX → MgX) : (d.modMg g).now = d.now := rfl
@[simp] theorem Dev.modMg_draws (d : Dev) (g : MgX → MgX) : (d.modMg g).draws = d.draws := rfl

@[simp] theorem Dev.modDom_regs (d : Dev) (row : Nat) (g : DomX → DomX) : (d.modDom row g).regs = d.regs := rfl
@[simp] theorem Dev.modDom_watched (d : Dev) (row : Nat) (g : DomX → DomX) : (d.modDom row g).watched = d.watched := rfl
@[simp] theorem Dev.modDom_lanes (d : Dev) (row : Nat) (g : DomX → DomX) : (d.modDom row g).lanes = d.lanes := rfl
@[simp] theorem Dev.modDom_segs (d : Dev) (row : Nat) (g : DomX → DomX) : (d.modDom row g).segs = d.segs := rfl
@[simp] theorem Dev.modDom_courses (d : Dev) (row : Nat) (g : DomX → DomX) : (d.modDom row g).courses = d.courses := rfl
@[simp] theorem Dev.modDom_refs (d : Dev) (row : Nat) (g : DomX → DomX) : (d.modDom row g).refs = d.refs := rfl
@[simp] theorem Dev.modDom_tb (d : Dev) (row : Nat) (g : DomX → DomX) : (d.modDom row g).tb = d.tb := rfl
@[simp] theorem Dev.modDom_mg (d : Dev) (row : Nat) (g : DomX → DomX) : (d.modDom row g).mg = d.mg := rfl
@[simp] theorem Dev.modDom_trig (d : Dev) (row : Nat) (g : DomX → DomX) : (d.modDom row g).trig = d.trig := rfl
@[simp] theorem Dev.modDom_pw (d : Dev) (row : Nat) (g : DomX → DomX) : (d.modDom row g).pw = { d.pw with doms := d.pw.doms.put row (g (d.dom row)) } := rfl
@[simp] theorem Dev.modDom_cal (d : Dev) (row : Nat) (g : DomX → DomX) : (d.modDom row g).cal = d.cal := rfl
@[simp] theorem Dev.modDom_boot (d : Dev) (row : Nat) (g : DomX → DomX) : (d.modDom row g).boot = d.boot := rfl
@[simp] theorem Dev.modDom_bnd (d : Dev) (row : Nat) (g : DomX → DomX) : (d.modDom row g).bnd = d.bnd := rfl
@[simp] theorem Dev.modDom_svcTurn (d : Dev) (row : Nat) (g : DomX → DomX) : (d.modDom row g).svcTurn = d.svcTurn := rfl
@[simp] theorem Dev.modDom_marks (d : Dev) (row : Nat) (g : DomX → DomX) : (d.modDom row g).marks = d.marks := rfl
@[simp] theorem Dev.modDom_standQ (d : Dev) (row : Nat) (g : DomX → DomX) : (d.modDom row g).standQ = d.standQ := rfl
@[simp] theorem Dev.modDom_eaves (d : Dev) (row : Nat) (g : DomX → DomX) : (d.modDom row g).eaves = d.eaves := rfl
@[simp] theorem Dev.modDom_eng (d : Dev) (row : Nat) (g : DomX → DomX) : (d.modDom row g).eng = d.eng := rfl
@[simp] theorem Dev.modDom_mt (d : Dev) (row : Nat) (g : DomX → DomX) : (d.modDom row g).mt = d.mt := rfl
@[simp] theorem Dev.modDom_pu (d : Dev) (row : Nat) (g : DomX → DomX) : (d.modDom row g).pu = d.pu := rfl
@[simp] theorem Dev.modDom_fb (d : Dev) (row : Nat) (g : DomX → DomX) : (d.modDom row g).fb = d.fb := rfl
@[simp] theorem Dev.modDom_gut (d : Dev) (row : Nat) (g : DomX → DomX) : (d.modDom row g).gut = d.gut := rfl
@[simp] theorem Dev.modDom_img (d : Dev) (row : Nat) (g : DomX → DomX) : (d.modDom row g).img = d.img := rfl
@[simp] theorem Dev.modDom_gate (d : Dev) (row : Nat) (g : DomX → DomX) : (d.modDom row g).gate = d.gate := rfl
@[simp] theorem Dev.modDom_mb (d : Dev) (row : Nat) (g : DomX → DomX) : (d.modDom row g).mb = d.mb := rfl
@[simp] theorem Dev.modDom_fuse (d : Dev) (row : Nat) (g : DomX → DomX) : (d.modDom row g).fuse = d.fuse := rfl
@[simp] theorem Dev.modDom_points (d : Dev) (row : Nat) (g : DomX → DomX) : (d.modDom row g).points = d.points := rfl
@[simp] theorem Dev.modDom_cls (d : Dev) (row : Nat) (g : DomX → DomX) : (d.modDom row g).cls = d.cls := rfl
@[simp] theorem Dev.modDom_dm (d : Dev) (row : Nat) (g : DomX → DomX) : (d.modDom row g).dm = d.dm := rfl
@[simp] theorem Dev.modDom_jtag (d : Dev) (row : Nat) (g : DomX → DomX) : (d.modDom row g).jtag = d.jtag := rfl
@[simp] theorem Dev.modDom_now (d : Dev) (row : Nat) (g : DomX → DomX) : (d.modDom row g).now = d.now := rfl
@[simp] theorem Dev.modDom_draws (d : Dev) (row : Nat) (g : DomX → DomX) : (d.modDom row g).draws = d.draws := rfl

@[simp] theorem Dev.modPw_regs (d : Dev) (g : PwX → PwX) : (d.modPw g).regs = d.regs := rfl
@[simp] theorem Dev.modPw_watched (d : Dev) (g : PwX → PwX) : (d.modPw g).watched = d.watched := rfl
@[simp] theorem Dev.modPw_lanes (d : Dev) (g : PwX → PwX) : (d.modPw g).lanes = d.lanes := rfl
@[simp] theorem Dev.modPw_segs (d : Dev) (g : PwX → PwX) : (d.modPw g).segs = d.segs := rfl
@[simp] theorem Dev.modPw_courses (d : Dev) (g : PwX → PwX) : (d.modPw g).courses = d.courses := rfl
@[simp] theorem Dev.modPw_refs (d : Dev) (g : PwX → PwX) : (d.modPw g).refs = d.refs := rfl
@[simp] theorem Dev.modPw_tb (d : Dev) (g : PwX → PwX) : (d.modPw g).tb = d.tb := rfl
@[simp] theorem Dev.modPw_mg (d : Dev) (g : PwX → PwX) : (d.modPw g).mg = d.mg := rfl
@[simp] theorem Dev.modPw_trig (d : Dev) (g : PwX → PwX) : (d.modPw g).trig = d.trig := rfl
@[simp] theorem Dev.modPw_pw (d : Dev) (g : PwX → PwX) : (d.modPw g).pw = g d.pw := rfl
@[simp] theorem Dev.modPw_cal (d : Dev) (g : PwX → PwX) : (d.modPw g).cal = d.cal := rfl
@[simp] theorem Dev.modPw_boot (d : Dev) (g : PwX → PwX) : (d.modPw g).boot = d.boot := rfl
@[simp] theorem Dev.modPw_bnd (d : Dev) (g : PwX → PwX) : (d.modPw g).bnd = d.bnd := rfl
@[simp] theorem Dev.modPw_svcTurn (d : Dev) (g : PwX → PwX) : (d.modPw g).svcTurn = d.svcTurn := rfl
@[simp] theorem Dev.modPw_marks (d : Dev) (g : PwX → PwX) : (d.modPw g).marks = d.marks := rfl
@[simp] theorem Dev.modPw_standQ (d : Dev) (g : PwX → PwX) : (d.modPw g).standQ = d.standQ := rfl
@[simp] theorem Dev.modPw_eaves (d : Dev) (g : PwX → PwX) : (d.modPw g).eaves = d.eaves := rfl
@[simp] theorem Dev.modPw_eng (d : Dev) (g : PwX → PwX) : (d.modPw g).eng = d.eng := rfl
@[simp] theorem Dev.modPw_mt (d : Dev) (g : PwX → PwX) : (d.modPw g).mt = d.mt := rfl
@[simp] theorem Dev.modPw_pu (d : Dev) (g : PwX → PwX) : (d.modPw g).pu = d.pu := rfl
@[simp] theorem Dev.modPw_fb (d : Dev) (g : PwX → PwX) : (d.modPw g).fb = d.fb := rfl
@[simp] theorem Dev.modPw_gut (d : Dev) (g : PwX → PwX) : (d.modPw g).gut = d.gut := rfl
@[simp] theorem Dev.modPw_img (d : Dev) (g : PwX → PwX) : (d.modPw g).img = d.img := rfl
@[simp] theorem Dev.modPw_gate (d : Dev) (g : PwX → PwX) : (d.modPw g).gate = d.gate := rfl
@[simp] theorem Dev.modPw_mb (d : Dev) (g : PwX → PwX) : (d.modPw g).mb = d.mb := rfl
@[simp] theorem Dev.modPw_fuse (d : Dev) (g : PwX → PwX) : (d.modPw g).fuse = d.fuse := rfl
@[simp] theorem Dev.modPw_points (d : Dev) (g : PwX → PwX) : (d.modPw g).points = d.points := rfl
@[simp] theorem Dev.modPw_cls (d : Dev) (g : PwX → PwX) : (d.modPw g).cls = d.cls := rfl
@[simp] theorem Dev.modPw_dm (d : Dev) (g : PwX → PwX) : (d.modPw g).dm = d.dm := rfl
@[simp] theorem Dev.modPw_jtag (d : Dev) (g : PwX → PwX) : (d.modPw g).jtag = d.jtag := rfl
@[simp] theorem Dev.modPw_now (d : Dev) (g : PwX → PwX) : (d.modPw g).now = d.now := rfl
@[simp] theorem Dev.modPw_draws (d : Dev) (g : PwX → PwX) : (d.modPw g).draws = d.draws := rfl

end Sys2Proof.Machine
end

