-- ==== Sys2Proof/Laws/Mem.lean ====
section
/-! SUPPORT. Tier M's bytes: reading after writing, and the canonical form; every operation on the whole state keeps that form
and leaves the queue as it is. -/
set_option linter.unusedVariables false
namespace Sys2Proof.Machine

/-! ## Bytes -/

theorem Memory.wfFrom_mono {lo hi : Nat} (h : lo ≤ hi) (m : Memory) (w : Memory.wfFrom hi m = true) : Memory.wfFrom lo m = true := by
  cases m with
  | nil => rfl
  | cons c t =>
    simp only [Memory.wfFrom, Bool.and_eq_true, decide_eq_true_eq] at w ⊢
    exact ⟨⟨by omega, w.1.2⟩, w.2⟩

theorem Memory.get_below {lo a : Nat} (h : a < lo) (m : Memory) (w : Memory.wfFrom lo m = true) : m.get a = Memory.blank := by
  induction m generalizing lo with
  | nil => rfl
  | cons c t ih =>
    simp only [Memory.wfFrom, Bool.and_eq_true, decide_eq_true_eq] at w
    simp only [Memory.get]
    rw [if_neg (by omega)]
    exact ih (by omega) w.2

theorem Memory.get_put_same_from {lo : Nat} (m : Memory) (a : Nat) (v : Byte) (w : Memory.wfFrom lo m = true) : (m.put a v).get a = v := by
  induction m generalizing lo with
  | nil => simp only [Memory.put]; split <;> simp_all [Memory.get]
  | cons c t ih =>
    have w0 := w
    simp only [Memory.wfFrom, Bool.and_eq_true, decide_eq_true_eq] at w
    simp only [Memory.put]
    split
    · rename_i hlt
      split
      · rename_i hv; subst hv
        exact Memory.get_below hlt _ (by simp only [Memory.wfFrom, Bool.and_eq_true, decide_eq_true_eq]; exact ⟨⟨Nat.le_refl _, w.1.2⟩, w.2⟩)
      · simp [Memory.get]
    · split
      · rename_i hv
        split
        · rename_i hb; subst hb; rw [hv]; exact Memory.get_below (Nat.lt_succ_self _) _ w.2
        · simp [Memory.get]
      · rename_i hv
        simp only [Memory.get]; rw [if_neg hv]; exact ih w.2

/-- Read after write at one address. -/
theorem Memory.get_put_same (m : Memory) (a : Nat) (v : Byte) (w : Memory.wf m = true) : (m.put a v).get a = v :=
  Memory.get_put_same_from m a v w

/-- A write leaves every other address alone. -/
theorem Memory.get_put_ne (m : Memory) (a b : Nat) (v : Byte) (h : b ≠ a) : (m.put a v).get b = m.get b := by
  induction m with
  | nil => simp only [Memory.put]; split <;> simp [Memory.get, h]
  | cons c t ih =>
    simp only [Memory.put]
    (repeat' split) <;> simp_all [Memory.get]

theorem Memory.wfFrom_put {lo : Nat} (m : Memory) (a : Nat) (v : Byte) (ha : lo ≤ a) (w : Memory.wfFrom lo m = true) :
    Memory.wfFrom lo (m.put a v) = true := by
  induction m generalizing lo with
  | nil => simp only [Memory.put]; split <;> simp_all [Memory.wfFrom]
  | cons c t ih =>
    have w0 := w
    simp only [Memory.wfFrom, Bool.and_eq_true, decide_eq_true_eq] at w
    simp only [Memory.put]
    split
    · split
      · exact w0
      · rename_i hlt hv
        simp only [Memory.wfFrom, Bool.and_eq_true, decide_eq_true_eq]
        exact ⟨⟨ha, hv⟩, ⟨by omega, w.1.2⟩, w.2⟩
    · split
      · rename_i _ he
        split
        · exact Memory.wfFrom_mono (by omega) _ w.2
        · rename_i hv
          simp only [Memory.wfFrom, Bool.and_eq_true, decide_eq_true_eq]
          exact ⟨⟨ha, hv⟩, by rw [he]; exact w.2⟩
      · rename_i h1 h2
        simp only [Memory.wfFrom, Bool.and_eq_true, decide_eq_true_eq]
        exact ⟨w.1, ih (by omega) w.2⟩

/-- Writing a byte keeps the canonical form. -/
theorem Memory.wf_put (m : Memory) (a : Nat) (v : Byte) (w : Memory.wf m = true) : Memory.wf (m.put a v) = true :=
  Memory.wfFrom_put m a v (Nat.zero_le _) w

theorem Memory.wf_write (m : Memory) (a : Nat) (bs : List Byte) (w : Memory.wf m = true) : Memory.wf (m.write a bs) = true := by
  induction bs generalizing m a with
  | nil => exact w
  | cons b t ih => exact ih _ _ (Memory.wf_put m a b w)

theorem Memory.wf_foldl {α : Type} (g : Memory → α → Memory) (hg : ∀ m x, Memory.wf m = true → Memory.wf (g m x) = true)
    (l : List α) (m : Memory) (w : Memory.wf m = true) : Memory.wf (l.foldl g m) = true := by
  induction l generalizing m with
  | nil => exact w
  | cons x t ih => exact ih _ (hg m x w)

theorem Memory.wf_writeWord (m : Memory) (a view mask data : Nat) (w : Memory.wf m = true) :
    Memory.wf (m.writeWord a view mask data) = true :=
  Memory.wf_foldl _ (fun m k h => by split; exact Memory.wf_put _ _ _ h; exact h) _ m w

theorem Memory.wfFrom_filter {lo : Nat} (p : Host.Cell → Bool) (m : Memory) (w : Memory.wfFrom lo m = true) :
    Memory.wfFrom lo (m.filter p) = true := by
  induction m generalizing lo with
  | nil => rfl
  | cons c t ih =>
    simp only [Memory.wfFrom, Bool.and_eq_true, decide_eq_true_eq] at w
    simp only [List.filter_cons]
    split
    · simp only [Memory.wfFrom, Bool.and_eq_true, decide_eq_true_eq]; exact ⟨w.1, ih w.2⟩
    · exact Memory.wfFrom_mono (by omega) _ (ih w.2)

/-- Clearing an address range keeps the canonical form. -/
theorem Memory.wf_clear (m : Memory) (lo hi : Nat) (w : Memory.wf m = true) : Memory.wf (m.clear lo hi) = true :=
  Memory.wfFrom_filter _ m w

/-- Bytes written upward from an address read back; every other address reads as before. -/
theorem Memory.get_write_out (m : Memory) (a b : Nat) (bs : List Byte) (h : b < a ∨ a + bs.length ≤ b) : (m.write a bs).get b = m.get b := by
  induction bs generalizing m a with
  | nil => rfl
  | cons c t ih =>
    simp only [List.length_cons] at h
    simp only [Memory.write]
    rw [ih _ _ (by omega), Memory.get_put_ne _ _ _ _ (by omega)]

theorem Memory.get_clear_out (m : Memory) (lo hi b : Nat) (h : b < lo ∨ hi ≤ b) : (m.clear lo hi).get b = m.get b := by
  induction m with
  | nil => rfl
  | cons c t ih =>
    simp only [Memory.clear, List.filter_cons] at ih ⊢
    split
    · simp only [Memory.get, ih]
    · rename_i hc
      simp only [Bool.not_eq_true', decide_eq_false_iff_not, Decidable.not_not] at hc
      simp only [Memory.get, ih]
      rw [if_neg (by omega)]

theorem Memory.wf_nil : Memory.wf [] = true := rfl

/-! ## The whole state -/

/-- From `o` to `s` the queue is the same and Tier M has kept its canonical form. -/
structure Keeps (o s : State) : Prop where
  queue : s.pending = o.pending
  wf : Memory.wf o.mem = true → Memory.wf s.mem = true

theorem Keeps.refl (s : State) : Keeps s s := ⟨rfl, id⟩

theorem keeps_mk (o s : State) (d : Dev) (h : Keeps o s) : Keeps o ⟨d, s.mem, s.pending⟩ := ⟨h.queue, h.wf⟩

theorem keeps_mem (o s : State) (d : Dev) (m : Memory) (h : Keeps o s) (hm : Memory.wf s.mem = true → Memory.wf m = true) :
    Keeps o ⟨d, m, s.pending⟩ := ⟨h.queue, fun w => hm (h.wf w)⟩

theorem keeps_on (o s : State) (g : Dev → Dev) (h : Keeps o s) : Keeps o (s.on g) := ⟨h.queue, h.wf⟩

theorem keeps_foldl {α : Type} (o : State) (g : State → α → State) (hg : ∀ s x, Keeps o s → Keeps o (g s x)) (l : List α) (s : State)
    (h : Keeps o s) : Keeps o (l.foldl g s) := by
  induction l generalizing s with
  | nil => exact h
  | cons x t ih => exact ih _ (hg s x h)

theorem keeps_foldl_via {α β : Type} (o : State) (p : β → State) (g : β → α → β) (hg : ∀ s x, Keeps o (p s) → Keeps o (p (g s x)))
    (l : List α) (s : β) (h : Keeps o (p s)) : Keeps o (p (l.foldl g s)) := by
  induction l generalizing s with
  | nil => exact h
  | cons x t ih => exact ih _ (hg s x h)

theorem keeps_each (o s : State) (l : List Nat) (g : Nat → State → State) (hg : ∀ n s, Keeps o s → Keeps o (g n s)) (h : Keeps o s) :
    Keeps o (s.each l g) := keeps_foldl o _ (fun s n w => hg n s w) l s h

theorem wf_unrepair (n bank : Nat) (m : Memory) (r : Bool × Nat) (h : Memory.wf m = true) : Memory.wf (unrepair n bank m r) = true := by
  unfold unrepair
  (repeat' split)
  · exact h
  · exact Memory.wf_foldl _ (fun m k w => Memory.wf_put _ _ _ w) _ m h
  · exact Memory.wf_foldl _ (fun m k w => Memory.wf_put _ _ _ w) _ m h

theorem keeps_readWord (b0 s : State) (w master port : Nat) (seen : EccSeen) (hk : Keeps b0 s) : Keeps b0 (State.readWord s w master port seen).1 := by
  unfold State.readWord; exact keeps_mk b0 s _ hk

theorem keeps_writeWord (b0 s : State) (w view mask data master port : Nat) (seen : EccSeen) (hk : Keeps b0 s) : Keeps b0 (State.writeWord s w view mask data master port seen).1 := by
  unfold State.writeWord; dsimp only
  (repeat' split)
  · exact keeps_mem b0 s _ _ hk (Memory.wf_writeWord _ _ _ _ _)
  · exact keeps_mk b0 s _ hk
  · exact keeps_mem b0 s _ _ hk (Memory.wf_writeWord _ _ _ _ _)

theorem keeps_serveOp (b0 s : State) (o : Op) (ecc : List EccSeen) (hk : Keeps b0 s) : Keeps b0 (State.serveOp s o ecc).1 := by
  unfold State.serveOp; dsimp only
  split
  · exact hk
  · split
    · exact hk
    · split
      · refine keeps_foldl_via b0 Prod.fst _ (fun p k w => ?_) _ _ ?_
        · exact keeps_writeWord b0 p.1 _ _ _ _ _ _ _ w
        · exact hk
      · refine keeps_foldl_via b0 Prod.fst _ (fun p k w => ?_) _ _ ?_
        · exact keeps_readWord b0 p.1 _ _ _ _ w
        · exact hk

theorem keeps_serveIn (b0 s : State) (o : Op) (ecc : List EccSeen) (hk : Keeps b0 s) : Keeps b0 (State.serveIn s o ecc) := by
  unfold State.serveIn; (try dsimp only)
  (repeat' split) <;> (repeat' (first | with_reducible assumption | with_reducible apply keeps_serveOp | with_reducible apply keeps_on | with_reducible apply keeps_each | with_reducible apply keeps_foldl | (intro _) | with_reducible apply keeps_mk))

theorem keeps_serveAll (b0 s : State) (l : List Op) (seen : List (List EccSeen)) (hk : Keeps b0 s) : Keeps b0 (State.serveAll s l seen) := by
  induction l generalizing s seen with
  | nil => exact hk
  | cons o rest ih => exact ih _ _ (keeps_serveIn b0 s o _ hk)

theorem keeps_serve (b0 s : State) (o : Op) (ecc : List EccSeen) (earlier : List (List EccSeen)) (hk : Keeps b0 s) : Keeps b0 (State.serve s o ecc earlier) := by
  unfold State.serve; (try dsimp only)
  (repeat' split) <;> (repeat' (first | with_reducible assumption | with_reducible apply keeps_serveAll | with_reducible apply keeps_serveIn | with_reducible apply keeps_on | with_reducible apply keeps_each | with_reducible apply keeps_foldl | (intro _) | with_reducible apply keeps_mk))

theorem keeps_meetWord (b0 s : State) (w master port : Nat) (write : Bool) (seen : EccSeen) (hk : Keeps b0 s) : Keeps b0 (State.meetWord s w master port write seen) := by
  unfold State.meetWord; (try dsimp only)
  (repeat' split) <;> (repeat' (first | with_reducible assumption | with_reducible apply keeps_serveAll | with_reducible apply keeps_on | with_reducible apply keeps_each | with_reducible apply keeps_foldl | (intro _) | with_reducible apply keeps_mk))

theorem keeps_hardRead (b0 s : State) (w master port : Nat) (seen : EccSeen) (hk : Keeps b0 s) : Keeps b0 (State.hardRead s w master port seen).1 := by
  unfold State.hardRead; (try dsimp only)
  (repeat' split) <;> (repeat' (first | with_reducible assumption | with_reducible apply keeps_meetWord | with_reducible apply keeps_readWord | with_reducible apply keeps_on | with_reducible apply keeps_each | with_reducible apply keeps_foldl | (intro _) | with_reducible apply keeps_mk))

theorem keeps_hardWrite (b0 s : State) (w data master port : Nat) (hk : Keeps b0 s) : Keeps b0 (State.hardWrite s w data master port) := by
  unfold State.hardWrite; (try dsimp only)
  (repeat' split) <;> (repeat' (first | with_reducible assumption | with_reducible apply keeps_meetWord | with_reducible apply keeps_writeWord | with_reducible apply keeps_on | with_reducible apply keeps_each | with_reducible apply keeps_foldl | (intro _) | with_reducible apply keeps_mk))

theorem keeps_respond (b0 s : State) (master port tag : Nat) (ecc : List EccSeen) (earlier : List (List EccSeen)) (hk : Keeps b0 s) : Keeps b0 (State.respond s master port tag ecc earlier) := by
  unfold State.respond; (try dsimp only)
  (repeat' split) <;> (repeat' (first | with_reducible assumption | with_reducible apply keeps_serve | with_reducible apply keeps_on | with_reducible apply keeps_each | with_reducible apply keeps_foldl | (intro _) | with_reducible apply keeps_mk))

theorem keeps_windowAccess (b0 s : State) (o : Nat) (write : Option Nat) (seen : EccSeen) (hk : Keeps b0 s) : Keeps b0 (State.windowAccess s o write seen) := by
  unfold State.windowAccess; (try dsimp only)
  (repeat' split) <;> (repeat' (first | with_reducible assumption | with_reducible apply keeps_respond | with_reducible apply keeps_on | with_reducible apply keeps_each | with_reducible apply keeps_foldl | (intro _) | with_reducible apply keeps_mk))

theorem keeps_windowRead (b0 s : State) (o : Nat) (seen : EccSeen) (hk : Keeps b0 s) : Keeps b0 (State.windowRead s o seen) := by
  unfold State.windowRead; (try dsimp only)
  (repeat' split) <;> (repeat' (first | with_reducible assumption | with_reducible apply keeps_windowAccess | with_reducible apply keeps_on | with_reducible apply keeps_each | with_reducible apply keeps_foldl | (intro _) | with_reducible apply keeps_mk))

theorem keeps_windowWrite (b0 s : State) (o v : Nat) (seen : EccSeen) (hk : Keeps b0 s) : Keeps b0 (State.windowWrite s o v seen) := by
  unfold State.windowWrite; (try dsimp only)
  (repeat' split) <;> (repeat' (first | with_reducible assumption | with_reducible apply keeps_windowAccess | with_reducible apply keeps_on | with_reducible apply keeps_each | with_reducible apply keeps_foldl | (intro _) | with_reducible apply keeps_mk))

theorem keeps_repairClear (b0 s : State) (bank : Nat) (hk : Keeps b0 s) : Keeps b0 (State.repairClear s bank) := by
  unfold State.repairClear; dsimp only
  split
  · exact keeps_on b0 _ _ hk
  · exact keeps_mem b0 s _ _ hk (Memory.wf_foldl _ (wf_unrepair _ _) _ _)

theorem keeps_pageMeets (b0 s : State) (r p : Nat) (hk : Keeps b0 s) : Keeps b0 (State.pageMeets s r p) := by
  unfold State.pageMeets; (try dsimp only)
  (repeat' split) <;> (repeat' (first | with_reducible assumption | with_reducible apply keeps_meetWord | with_reducible apply keeps_on | with_reducible apply keeps_each | with_reducible apply keeps_foldl | (intro _) | with_reducible apply keeps_mk))

theorem keeps_writeRecord (b0 s : State) (ps : List Nat) (data : List Byte) (hk : Keeps b0 s) : Keeps b0 (State.writeRecord s ps data) := by
  unfold State.writeRecord; (try dsimp only)
  (repeat' split) <;> (repeat' (first | with_reducible assumption | with_reducible apply keeps_hardWrite | with_reducible apply keeps_on | with_reducible apply keeps_each | with_reducible apply keeps_foldl | (intro _) | with_reducible apply keeps_mk))

theorem keeps_enqueue (b0 s : State) (q : Nat) (data : List Byte) (pte : List EccSeen) (hk : Keeps b0 s) : Keeps b0 (State.enqueue s q data pte).1 := by
  unfold State.enqueue; dsimp only
  split
  · exact hk
  · split
    · exact hk
    · split
      · dsimp only; exact keeps_on b0 _ _ hk
      · split
        · exact keeps_mk b0 s _ hk
        · refine keeps_writeRecord b0 _ _ _ (keeps_mk b0 s _ hk)

theorem keeps_page (b0 : State) (w : Walk) (p fill : Nat) (pte : EccSeen) (h : Keeps b0 w.s) : Keeps b0 (w.page p fill pte).s := by
  unfold Walk.page; dsimp only
  split
  · exact h
  · split
    · exact keeps_mk b0 _ _ h
    · refine keeps_foldl_via b0 Walk.s _ (fun w k hw => ?_) _ _ (keeps_mk b0 _ _ h)
      dsimp only
      split
      · exact keeps_on b0 _ _ (keeps_hardRead b0 w.s _ _ _ _ hw)
      · exact keeps_hardRead b0 w.s _ _ _ _ hw

theorem keeps_takeRecord (b0 s : State) (q : Nat) (pte seen : List EccSeen) (hk : Keeps b0 s) : Keeps b0 (State.takeRecord s q pte seen).1 := by
  unfold State.takeRecord; dsimp only
  refine keeps_mk b0 _ _ (keeps_foldl_via b0 Walk.s _ (fun w k hw => ?_) _ _ ?_)
  · exact keeps_page b0 w _ _ _ hw
  · exact hk

theorem keeps_serveQueue (b0 s : State) (r : QReq) (hk : Keeps b0 s) : Keeps b0 (State.serveQueue s r) := by
  unfold State.serveQueue; (try dsimp only)
  (repeat' split) <;> (repeat' (first | with_reducible assumption | with_reducible apply keeps_enqueue | with_reducible apply keeps_takeRecord | with_reducible apply keeps_on | with_reducible apply keeps_each | with_reducible apply keeps_foldl | (intro _) | with_reducible apply keeps_mk))

theorem keeps_queueRequest (b0 s : State) (r : QReq) (hk : Keeps b0 s) : Keeps b0 (State.queueRequest s r) := by
  unfold State.queueRequest; (try dsimp only)
  (repeat' split) <;> (repeat' (first | with_reducible assumption | with_reducible apply keeps_serveQueue | with_reducible apply keeps_on | with_reducible apply keeps_each | with_reducible apply keeps_foldl | (intro _) | with_reducible apply keeps_mk))

theorem keeps_serveWaits (b0 s : State)  (hk : Keeps b0 s) : Keeps b0 (State.serveWaits s) := by
  unfold State.serveWaits; (try dsimp only)
  (repeat' split) <;> (repeat' (first | with_reducible assumption | with_reducible apply keeps_serveQueue | with_reducible apply keeps_on | with_reducible apply keeps_each | with_reducible apply keeps_foldl | (intro _) | with_reducible apply keeps_mk))

theorem keeps_hardReset (b0 s : State)  (hk : Keeps b0 s) : Keeps b0 (State.hardReset s) := by
  unfold State.hardReset
  exact keeps_mem b0 s _ _ hk (fun _ => rfl)

theorem keeps_dmSelect (b0 s : State) (seq : Nat) (seen : List EccSeen) (hk : Keeps b0 s) : Keeps b0 (State.dmSelect s seq seen) := by
  unfold State.dmSelect; dsimp only
  split
  · exact keeps_on b0 _ _ (keeps_on b0 _ _ hk)
  · refine keeps_on b0 _ _ (keeps_foldl_via b0 Prod.fst _ (fun p k w => ?_) _ _ ?_)
    · exact keeps_hardRead b0 p.1 _ _ _ _ w
    · dsimp only; exact keeps_on b0 _ _ hk

theorem keeps_raise (b0 s : State) (row : Nat) (loadOk : Bool) (hk : Keeps b0 s) : Keeps b0 (State.raise s row loadOk) := by
  unfold State.raise; (try dsimp only)
  (repeat' split) <;> (repeat' (first | with_reducible assumption | with_reducible apply keeps_serveWaits | with_reducible apply keeps_on | with_reducible apply keeps_each | with_reducible apply keeps_foldl | (intro _) | with_reducible apply keeps_mk))

theorem keeps_lower (b0 s : State) (row : Nat) (hk : Keeps b0 s) : Keeps b0 (State.lower s row) := by
  unfold State.lower; dsimp only
  split
  · refine keeps_mem b0 s _ _ hk (fun w => ?_)
    split
    · rfl
    · exact w
  · split
    · exact keeps_mk b0 s _ hk
    · split <;> exact keeps_mk b0 s _ hk

theorem keeps_stepDone (b0 s : State) (step : Nat) (up : List Nat) (next : Option Nat) (loadFailed : List (Fin 64)) (hk : Keeps b0 s) : Keeps b0 (State.stepDone s step up next loadFailed) := by
  unfold State.stepDone; (try dsimp only)
  (repeat' split) <;> (repeat' (first | with_reducible assumption | with_reducible apply keeps_raise | with_reducible apply keeps_on | with_reducible apply keeps_each | with_reducible apply keeps_foldl | (intro _) | with_reducible apply keeps_mk))

theorem keeps_clsRead (b0 s : State) (entry : Nat) (seen : EccSeen) (hk : Keeps b0 s) : Keeps b0 (State.clsRead s entry seen).1 := by
  unfold State.clsRead; (try dsimp only)
  (repeat' split) <;> (repeat' (first | with_reducible assumption | with_reducible apply keeps_hardRead | with_reducible apply keeps_on | with_reducible apply keeps_each | with_reducible apply keeps_foldl | (intro _) | with_reducible apply keeps_mk))

theorem keeps_bucket (b0 s : State) (b : Nat) (seen : List EccSeen) (hk : Keeps b0 s) : Keeps b0 (State.bucket s b seen).1 := by
  unfold State.bucket
  refine keeps_foldl_via b0 Prod.fst _ (fun p k w => ?_) _ _ ?_
  · exact keeps_clsRead b0 p.1 _ _ w
  · exact hk

theorem keeps_lookup (b0 s : State) (key : List Byte) (seen : List EccSeen) (hk : Keeps b0 s) : Keeps b0 (State.lookup s key seen).1 := by
  unfold State.lookup; (try dsimp only)
  (repeat' split) <;> (repeat' (first | with_reducible assumption | with_reducible apply keeps_bucket | with_reducible apply keeps_on | with_reducible apply keeps_each | with_reducible apply keeps_foldl | (intro _) | with_reducible apply keeps_mk))

theorem keeps_classify (b0 s : State) (course dir : Nat) (b : List Byte) (profiles : List Nat) (seen : List EccSeen) (hk : Keeps b0 s) : Keeps b0 (State.classify s course dir b profiles seen).1 := by
  induction profiles generalizing s seen with
  | nil => exact hk
  | cons p rest ih =>
    have hl := keeps_lookup b0 s (frameKey p dir course b) seen hk
    unfold State.classify
    split
    · rename_i heq; rw [heq] at hl; exact ih _ _ hl
    · rename_i heq; rw [heq] at hl; exact hl

theorem keeps_frameResult (b0 s : State) (u course dir : Nat) (f : FrameIn) (hk : Keeps b0 s) : Keeps b0 (State.frameResult s u course dir f).1 := by
  unfold State.frameResult; dsimp only
  have hc := keeps_classify b0 s course dir f.bytes (profilesOf (s.dev.rd F.TS_IE_CTL_PROF u) f.bytes) f.seen hk
  split
  · exact hk
  · split
    · dsimp only; exact keeps_on b0 _ _ hk
    · split <;> (rename_i heq; rw [heq] at hc; dsimp only at hc; (repeat' split) <;> first | exact hc | (dsimp only; exact keeps_on b0 _ _ hc))

theorem keeps_extract (b0 s : State) (p : Nat) (f : FrameIn) (queue : Nat) (record : List Byte) (hk : Keeps b0 s) : Keeps b0 (State.extract s p f queue record) := by
  unfold State.extract; (try dsimp only)
  (repeat' split) <;> (repeat' (first | with_reducible assumption | with_reducible apply keeps_enqueue | with_reducible apply keeps_on | with_reducible apply keeps_each | with_reducible apply keeps_foldl | (intro _) | with_reducible apply keeps_mk))

theorem keeps_frameIn (b0 s : State) (tp side course : Nat) (f : FrameIn) (hk : Keeps b0 s) : Keeps b0 (State.frameIn s tp side course f) := by
  unfold State.frameIn; (try dsimp only)
  (repeat' split) <;> (repeat' (first | with_reducible assumption | with_reducible apply keeps_frameResult | with_reducible apply keeps_extract | with_reducible apply keeps_on | with_reducible apply keeps_each | with_reducible apply keeps_foldl | (intro _) | with_reducible apply keeps_mk))

theorem keeps_confirm (b0 s : State) (r : List Byte) (status : Nat) (stamp : List Byte) (conf : List EccSeen) (hk : Keeps b0 s) : Keeps b0 (State.confirm s r status stamp conf) := by
  unfold State.confirm; (try dsimp only)
  (repeat' split) <;> (repeat' (first | with_reducible assumption | with_reducible apply keeps_enqueue | with_reducible apply keeps_on | with_reducible apply keeps_each | with_reducible apply keeps_foldl | (intro _) | with_reducible apply keeps_mk))

theorem keeps_takeFor (b0 s : State) (q : Nat) (pte seen : List EccSeen) (hk : Keeps b0 s) : Keeps b0 (State.takeFor s q pte seen).1 := by
  unfold State.takeFor; (try dsimp only)
  (repeat' split) <;> (repeat' (first | with_reducible assumption | with_reducible apply keeps_takeRecord | with_reducible apply keeps_on | with_reducible apply keeps_each | with_reducible apply keeps_foldl | (intro _) | with_reducible apply keeps_mk))

theorem keeps_place (b0 s : State) (u : Nat) (pte seen conf : List EccSeen) (hk : Keeps b0 s) : Keeps b0 (State.place s u pte seen conf) := by
  unfold State.place; (try dsimp only)
  (repeat' split) <;> (repeat' (first | with_reducible assumption | with_reducible apply keeps_takeFor | with_reducible apply keeps_confirm | with_reducible apply keeps_on | with_reducible apply keeps_each | with_reducible apply keeps_foldl | (intro _) | with_reducible apply keeps_mk))

theorem keeps_stampInserted (b0 s : State) (u interp pout : Nat) (conf : List EccSeen) (hk : Keeps b0 s) : Keeps b0 (State.stampInserted s u interp pout conf) := by
  unfold State.stampInserted; (try dsimp only)
  (repeat' split) <;> (repeat' (first | with_reducible assumption | with_reducible apply keeps_confirm | with_reducible apply keeps_on | with_reducible apply keeps_each | with_reducible apply keeps_foldl | (intro _) | with_reducible apply keeps_mk))

theorem keeps_clsEnd (b0 s : State) (result : Nat) (hk : Keeps b0 s) : Keeps b0 (State.clsEnd s result) := by
  unfold State.clsEnd; (try dsimp only)
  (repeat' split) <;> (repeat' (first | with_reducible assumption | with_reducible apply keeps_on | with_reducible apply keeps_each | with_reducible apply keeps_foldl | (intro _) | with_reducible apply keeps_mk))

theorem keeps_clsWrite (b0 s : State) (entry : Nat) (bytes : List Byte) (hk : Keeps b0 s) : Keeps b0 (State.clsWrite s entry bytes) := by
  unfold State.clsWrite; (try dsimp only)
  (repeat' split) <;> (repeat' (first | with_reducible assumption | with_reducible apply keeps_hardWrite | with_reducible apply keeps_on | with_reducible apply keeps_each | with_reducible apply keeps_foldl | (intro _) | with_reducible apply keeps_mk))

theorem keeps_clsCount (b0 s : State) (n : Nat) (hk : Keeps b0 s) : Keeps b0 (State.clsCount s n) := by
  unfold State.clsCount; (try dsimp only)
  (repeat' split) <;> (repeat' (first | with_reducible assumption | with_reducible apply keeps_on | with_reducible apply keeps_each | with_reducible apply keeps_foldl | (intro _) | with_reducible apply keeps_mk))

theorem keeps_clsRun (b0 s : State) (c : ClsX) (seen : List EccSeen) (hk : Keeps b0 s) : Keeps b0 (State.clsRun s c seen) := by
  unfold State.clsRun; (try dsimp only)
  (repeat' split) <;> (repeat' (first | with_reducible assumption | with_reducible apply keeps_bucket | with_reducible apply keeps_clsWrite | with_reducible apply keeps_clsEnd | with_reducible apply keeps_clsCount | with_reducible apply keeps_on | with_reducible apply keeps_each | with_reducible apply keeps_foldl | (intro _) | with_reducible apply keeps_mk))

theorem keeps_clsRecount (b0 s : State)  (hk : Keeps b0 s) : Keeps b0 (State.clsRecount s) := by
  unfold State.clsRecount; (try dsimp only)
  (repeat' split) <;> (repeat' (first | with_reducible assumption | with_reducible apply keeps_clsCount | with_reducible apply keeps_on | with_reducible apply keeps_each | with_reducible apply keeps_foldl | (intro _) | with_reducible apply keeps_mk))

theorem keeps_coreRow (b0 s : State) (row : Nat) (hk : Keeps b0 s) : Keeps b0 (State.coreRow s row) := by
  unfold State.coreRow; (try dsimp only)
  (repeat' split) <;> (repeat' (first | with_reducible assumption | with_reducible apply keeps_lower | with_reducible apply keeps_on | with_reducible apply keeps_each | with_reducible apply keeps_foldl | (intro _) | with_reducible apply keeps_mk))

theorem keeps_stageBytes (b0 s0 : State) (a : Nat) (bs : List Byte) (hk : Keeps b0 s0) : Keeps b0 (State.stageBytes s0 a bs) := by
  unfold State.stageBytes
  extract_lets hit s
  have h : Keeps b0 s := keeps_foldl b0 _ (fun s w k => keeps_meetWord b0 s _ _ _ _ _ k) _ _ hk
  exact keeps_mem b0 s _ _ h (Memory.wf_write _ _ _)

theorem keeps_stageImage (b0 s : State) (ys : List Yealm) (hk : Keeps b0 s) : Keeps b0 (State.stageImage s ys) := by
  unfold State.stageImage; dsimp only
  split
  · exact hk
  · refine keeps_foldl b0 _ (fun s y w => ?_) _ _ hk
    refine keeps_foldl b0 _ (fun s e w => ?_) _ _ w
    (repeat' split) <;> first | exact w | exact keeps_stageBytes b0 s _ _ w

theorem keeps_installEntries (b0 s : State) (ys : List Yealm) (hk : Keeps b0 s) : Keeps b0 (State.installEntries s ys) := by
  unfold State.installEntries; (try dsimp only)
  (repeat' split) <;> (repeat' (first | with_reducible assumption | with_reducible apply keeps_clsRun | with_reducible apply keeps_on | with_reducible apply keeps_each | with_reducible apply keeps_foldl | (intro _) | with_reducible apply keeps_mk))

theorem keeps_applyImage (b0 s : State) (h : ImageHeader) (ys : List Yealm) (hk : Keeps b0 s) : Keeps b0 (State.applyImage s h ys) := by
  unfold State.applyImage; (try dsimp only)
  (repeat' split) <;> (repeat' (first | with_reducible assumption | with_reducible apply keeps_clsRecount | with_reducible apply keeps_installEntries | with_reducible apply keeps_on | with_reducible apply keeps_each | with_reducible apply keeps_foldl | (intro _) | with_reducible apply keeps_mk))

theorem keeps_commitApply (b0 s : State) (k : Nat) (ws0 : List StagedWrite) (hk : Keeps b0 s) : Keeps b0 (State.commitApply s k ws0) := by
  unfold State.commitApply; (try dsimp only)
  (repeat' split) <;> (repeat' (first | with_reducible assumption | with_reducible apply keeps_clsRecount | with_reducible apply keeps_on | with_reducible apply keeps_each | with_reducible apply keeps_foldl | (intro _) | with_reducible apply keeps_mk))

theorem keeps_commitSlot (b0 s : State) (k : Nat) (hk : Keeps b0 s) : Keeps b0 (State.commitSlot s k) := by
  unfold State.commitSlot; (try dsimp only)
  (repeat' split) <;> (repeat' (first | with_reducible assumption | with_reducible apply keeps_commitApply | with_reducible apply keeps_on | with_reducible apply keeps_each | with_reducible apply keeps_foldl | (intro _) | with_reducible apply keeps_mk))

theorem keeps_commitTogether (b0 s : State) (j : Nat) (later : List Nat) (hk : Keeps b0 s) : Keeps b0 (State.commitTogether s j later) := by
  unfold State.commitTogether; (try dsimp only)
  (repeat' split) <;> (repeat' (first | with_reducible assumption | with_reducible apply keeps_commitSlot | with_reducible apply keeps_on | with_reducible apply keeps_each | with_reducible apply keeps_foldl | (intro _) | with_reducible apply keeps_mk))

theorem keeps_commitDueUpTo (b0 s : State) (k : Nat) (hk : Keeps b0 s) : Keeps b0 (State.commitDueUpTo s k) := by
  unfold State.commitDueUpTo; (try dsimp only)
  (repeat' split) <;> (repeat' (first | with_reducible assumption | with_reducible apply keeps_commitTogether | with_reducible apply keeps_on | with_reducible apply keeps_each | with_reducible apply keeps_foldl | (intro _) | with_reducible apply keeps_mk))

theorem keeps_repairCommand (b0 s : State) (w : Nat) (hk : Keeps b0 s) : Keeps b0 (State.repairCommand s w) := by
  unfold State.repairCommand; (try dsimp only)
  (repeat' split) <;> (repeat' (first | with_reducible assumption | with_reducible apply keeps_repairClear | with_reducible apply keeps_on | with_reducible apply keeps_each | with_reducible apply keeps_foldl | (intro _) | with_reducible apply keeps_mk))

theorem keeps_regWrite (b0 s : State) (r : Reg) (i w : Nat) (flash : Option FlashFound) (seen : List EccSeen) (hk : Keeps b0 s) : Keeps b0 (State.regWrite s r i w flash seen) := by
  unfold State.regWrite; (try dsimp only)
  (repeat' split) <;> (repeat' (first | with_reducible assumption | with_reducible apply keeps_dmSelect | with_reducible apply keeps_repairCommand | with_reducible apply keeps_on | with_reducible apply keeps_each | with_reducible apply keeps_foldl | (intro _) | with_reducible apply keeps_mk))

theorem keeps_hostWrite (b0 s : State) (a w : Nat) (flash : Option FlashFound) (seen : List EccSeen) (hk : Keeps b0 s) : Keeps b0 (State.hostWrite s a w flash seen) := by
  unfold State.hostWrite; (try dsimp only)
  (repeat' split) <;> (repeat' (first | with_reducible assumption | with_reducible apply keeps_windowWrite | with_reducible apply keeps_regWrite | with_reducible apply keeps_on | with_reducible apply keeps_each | with_reducible apply keeps_foldl | (intro _) | with_reducible apply keeps_mk))

theorem keeps_hostRead (b0 s : State) (a : Nat) (coincident : Bool) (seen : EccSeen) (hk : Keeps b0 s) : Keeps b0 (State.hostRead s a coincident seen).1 := by
  unfold State.hostRead; (try dsimp only)
  (repeat' split) <;> (repeat' (first | with_reducible assumption | with_reducible apply keeps_windowRead | with_reducible apply keeps_on | with_reducible apply keeps_each | with_reducible apply keeps_foldl | (intro _) | with_reducible apply keeps_mk))

theorem keeps_postWord (b0 s : State) (k w : Nat) (full : List Nat) (flash : Option FlashFound) (seen : List EccSeen) (hk : Keeps b0 s) : Keeps b0 (State.postWord s k w full flash seen) := by
  unfold State.postWord; (try dsimp only)
  (repeat' split) <;> (repeat' (first | with_reducible assumption | with_reducible apply keeps_hostWrite | with_reducible apply keeps_on | with_reducible apply keeps_each | with_reducible apply keeps_foldl | (intro _) | with_reducible apply keeps_mk))

theorem keeps_postWords (b0 s : State) (k : Nat) (ws : List Nat) (full : List Nat) (flash : Option FlashFound) (seen : List EccSeen) (hk : Keeps b0 s) : Keeps b0 (State.postWords s k ws full flash seen) := by
  induction ws generalizing s k seen with
  | nil => exact hk
  | cons w rest ih =>
    unfold State.postWords
    exact ih _ _ _ (keeps_postWord b0 s _ _ _ _ _ hk)

theorem keeps_privateWrite (b0 s : State) (i3c : Bool) (bytes : List BusByte) (full : List Nat) (flash : Option FlashFound) (seen : List EccSeen) (hk : Keeps b0 s) : Keeps b0 (State.privateWrite s i3c bytes full flash seen) := by
  unfold State.privateWrite; (try dsimp only)
  (repeat' split) <;> (repeat' (first | with_reducible assumption | with_reducible apply keeps_postWords | with_reducible apply keeps_on | with_reducible apply keeps_each | with_reducible apply keeps_foldl | (intro _) | with_reducible apply keeps_mk))

theorem keeps_readWords (b0 s : State) (k n : Nat) (coincident : List Nat) (seen : List EccSeen) (hk : Keeps b0 s) : Keeps b0 (State.readWords s k n coincident seen) := by
  induction n generalizing s k seen with
  | zero => exact hk
  | succ n ih =>
    unfold State.readWords
    exact ih _ _ _ (keeps_on b0 _ _ (keeps_on b0 _ _ (keeps_hostRead b0 s _ _ _ hk)))

theorem keeps_privateRead (b0 s : State) (i3c : Bool) (words ready : Nat) (coincident : List Nat) (seen : List EccSeen) (hk : Keeps b0 s) : Keeps b0 (State.privateRead s i3c words ready coincident seen) := by
  unfold State.privateRead; (try dsimp only)
  (repeat' split) <;> (repeat' (first | with_reducible assumption | with_reducible apply keeps_readWords | with_reducible apply keeps_on | with_reducible apply keeps_each | with_reducible apply keeps_foldl | (intro _) | with_reducible apply keeps_mk))

theorem keeps_partReset (b0 s : State)  (hk : Keeps b0 s) : Keeps b0 (State.partReset s) := by
  unfold State.partReset; (try dsimp only)
  (repeat' split) <;> (repeat' (first | with_reducible assumption | with_reducible apply keeps_hardReset | with_reducible apply keeps_on | with_reducible apply keeps_each | with_reducible apply keeps_foldl | (intro _) | with_reducible apply keeps_mk))

theorem keeps_tick (b0 s : State)  (hk : Keeps b0 s) : Keeps b0 (State.tick s) := by
  unfold State.tick; (try dsimp only)
  (repeat' split) <;> (repeat' (first | with_reducible assumption | with_reducible apply keeps_serveWaits | with_reducible apply keeps_on | with_reducible apply keeps_each | with_reducible apply keeps_foldl | (intro _) | with_reducible apply keeps_mk))

end Sys2Proof.Machine
end

