-- ==== Sys2Proof/Laws/Reads.lean ====
section
/-! SUPPORT. What every shared operation reads back as before: a field outside the blocks that the operation may write. One lemma
per operation, for simp with decide as discharger. -/
set_option linter.unusedVariables false
namespace Sys2Proof.Machine

/-- The field lies in one of the blocks. -/
def clash (f : Fld) (bs : List Blk) : Bool := bs.contains (blk f.reg f.lo)

theorem Dev.rd_wr_off (d : Dev) (f g : Fld) (i j v : Nat) (h : decide (g.reg = f.reg ∧ g.lo = f.lo) = false) : (d.wr f i v).rd g j = d.rd g j :=
  Dev.rd_wr_ne d f g i j v (fun e => by
    simp only [Fld.key, Key.mk.injEq] at e
    simp [e.1, e.2.1] at h)
theorem Dev.rd_wr0_off (d : Dev) (f g : Fld) (j v : Nat) (h : decide (g.reg = f.reg ∧ g.lo = f.lo) = false) : (d.wr0 f v).rd g j = d.rd g j :=
  Dev.rd_wr_off d f g 0 j v h
theorem Dev.rd_wrc_off (d : Dev) (f g : Fld) (i j v : Nat) (h : decide (g.reg = f.reg ∧ g.lo = f.lo) = false) : (d.wrc f i v).rd g j = d.rd g j := by
  unfold Dev.wrc; split
  · rfl
  · exact Dev.rd_wr_off d f g i j v h
theorem Dev.rd_bump_off (d : Dev) (f g : Fld) (i j : Nat) (h : decide (g.reg = f.reg ∧ g.lo = f.lo) = false) : (d.bump f i).rd g j = d.rd g j :=
  Dev.rd_wr_off d f g i j _ h
theorem Dev.rd_bumpBy_off (d : Dev) (f g : Fld) (i j n : Nat) (h : decide (g.reg = f.reg ∧ g.lo = f.lo) = false) : (d.bumpBy f i n).rd g j = d.rd g j := by
  unfold Dev.bumpBy; split
  · rfl
  · exact Dev.rd_wr_off d f g i j _ h
theorem Dev.rd_each_off (l : List Nat) (g : Nat → Dev → Dev) (f : Fld) (i : Nat) (h : ∀ n d, (g n d).rd f i = d.rd f i) (d : Dev) : (d.each l g).rd f i = d.rd f i := by
  unfold Dev.each
  induction l generalizing d with
  | nil => rfl
  | cons x t ih => simp only [List.foldl_cons, ih, h]
theorem Dev.rd_foldl_off {α : Type} (g : Dev → α → Dev) (f : Fld) (i : Nat) (h : ∀ d x, (g d x).rd f i = d.rd f i) (l : List α) (d : Dev) : (l.foldl g d).rd f i = d.rd f i := by
  induction l generalizing d with
  | nil => rfl
  | cons x t ih => simp only [List.foldl_cons, ih, h]
theorem Dev.rd_ite (c : Prop) [Decidable c] (a b : Dev) (f : Fld) (i : Nat) : (if c then a else b).rd f i = if c then a.rd f i else b.rd f i := by split <;> rfl

theorem rdk_modLane (d : Dev) (l : Nat) (g : LaneX → LaneX) (fl : Fld) (ix : Nat) (hc : clash fl ([] : List Blk) = false) : (Dev.modLane d l g).rd fl ix = d.rd fl ix :=
  Dev.rd_of_kept (fun b => List.contains ([] : List Blk) b) d _ (kept_modLane _ d l g ) fl ix hc

theorem rdk_modSeg (d : Dev) (k : Nat) (g : SegX → SegX) (fl : Fld) (ix : Nat) (hc : clash fl ([] : List Blk) = false) : (Dev.modSeg d k g).rd fl ix = d.rd fl ix :=
  Dev.rd_of_kept (fun b => List.contains ([] : List Blk) b) d _ (kept_modSeg _ d k g ) fl ix hc

theorem rdk_modCourse (d : Dev) (n : Nat) (g : CourseX → CourseX) (fl : Fld) (ix : Nat) (hc : clash fl ([] : List Blk) = false) : (Dev.modCourse d n g).rd fl ix = d.rd fl ix :=
  Dev.rd_of_kept (fun b => List.contains ([] : List Blk) b) d _ (kept_modCourse _ d n g ) fl ix hc

theorem rdk_modRef (d : Dev) (r : Nat) (g : RefX → RefX) (fl : Fld) (ix : Nat) (hc : clash fl ([] : List Blk) = false) : (Dev.modRef d r g).rd fl ix = d.rd fl ix :=
  Dev.rd_of_kept (fun b => List.contains ([] : List Blk) b) d _ (kept_modRef _ d r g ) fl ix hc

theorem rdk_alert (d : Dev) (b : Nat) (fl : Fld) (ix : Nat) (hc : clash fl ([.MG] : List Blk) = false) : (Dev.alert d b).rd fl ix = d.rd fl ix :=
  Dev.rd_of_kept (fun b => List.contains ([.MG] : List Blk) b) d _ (kept_alert _ d b rfl) fl ix hc

theorem rdk_unitFault (d : Dev) (id code : Nat) (fl : Fld) (ix : Nat) (hc : clash fl ([.MG, .UD] : List Blk) = false) : (Dev.unitFault d id code).rd fl ix = d.rd fl ix :=
  Dev.rd_of_kept (fun b => List.contains ([.MG, .UD] : List Blk) b) d _ (kept_unitFault _ d id code rfl rfl) fl ix hc

theorem rdk_publish (d : Dev) (id ks health : Nat) (fl : Fld) (ix : Nat) (hc : clash fl ([.UD] : List Blk) = false) : (Dev.publish d id ks health).rd fl ix = d.rd fl ix :=
  Dev.rd_of_kept (fun b => List.contains ([.UD] : List Blk) b) d _ (kept_publish _ d id ks health rfl) fl ix hc

theorem rdk_draw (d : Dev)  (fl : Fld) (ix : Nat) (hc : clash fl ([] : List Blk) = false) : (Dev.draw d).rd fl ix = d.rd fl ix :=
  Dev.rd_of_kept (fun b => List.contains ([] : List Blk) b) d _ (kept_draw _ d  ) fl ix hc

theorem rdk_latchSlot (d : Dev) (slot src : Nat) (fl : Fld) (ix : Nat) (hc : clash fl ([.SN, .UD] : List Blk) = false) : (Dev.latchSlot d slot src).rd fl ix = d.rd fl ix :=
  Dev.rd_of_kept (fun b => List.contains ([.SN, .UD] : List Blk) b) d _ (kept_latchSlot _ d slot src rfl rfl) fl ix hc

theorem rdk_fireEvent (d : Dev) (b : Nat) (fl : Fld) (ix : Nat) (hc : clash fl ([.MG, .SN, .UD] : List Blk) = false) : (Dev.fireEvent d b).rd fl ix = d.rd fl ix :=
  Dev.rd_of_kept (fun b => List.contains ([.MG, .SN, .UD] : List Blk) b) d _ (kept_fireEvent _ d b rfl rfl rfl) fl ix hc

theorem rdk_fire (d : Dev) (src : Nat) (fl : Fld) (ix : Nat) (hc : clash fl ([.MG, .SN, .UD] : List Blk) = false) : (Dev.fire d src).rd fl ix = d.rd fl ix :=
  Dev.rd_of_kept (fun b => List.contains ([.MG, .SN, .UD] : List Blk) b) d _ (kept_fire _ d src rfl rfl rfl) fl ix hc

theorem rdk_armSlot (d : Dev) (slot : Nat) (fl : Fld) (ix : Nat) (hc : clash fl ([.SN, .UD] : List Blk) = false) : (Dev.armSlot d slot).rd fl ix = d.rd fl ix :=
  Dev.rd_of_kept (fun b => List.contains ([.SN, .UD] : List Blk) b) d _ (kept_armSlot _ d slot rfl rfl) fl ix hc

theorem rdk_modDom (d : Dev) (row : Nat) (g : DomX → DomX) (fl : Fld) (ix : Nat) (hc : clash fl ([] : List Blk) = false) : (Dev.modDom d row g).rd fl ix = d.rd fl ix :=
  Dev.rd_of_kept (fun b => List.contains ([] : List Blk) b) d _ (kept_modDom _ d row g ) fl ix hc

theorem rdk_modPw (d : Dev) (g : PwX → PwX) (fl : Fld) (ix : Nat) (hc : clash fl ([] : List Blk) = false) : (Dev.modPw d g).rd fl ix = d.rd fl ix :=
  Dev.rd_of_kept (fun b => List.contains ([] : List Blk) b) d _ (kept_modPw _ d g ) fl ix hc

theorem rdk_domStart (d : Dev) (row : Nat) (ph : DomPhase) (off : Bool) (fl : Fld) (ix : Nat) (hc : clash fl ([.PWV] : List Blk) = false) : (Dev.domStart d row ph off).rd fl ix = d.rd fl ix :=
  Dev.rd_of_kept (fun b => List.contains ([.PWV] : List Blk) b) d _ (kept_domStart _ d row ph off rfl) fl ix hc

theorem rdk_domEval (d : Dev) (row : Nat) (fl : Fld) (ix : Nat) (hc : clash fl ([.PWV] : List Blk) = false) : (Dev.domEval d row).rd fl ix = d.rd fl ix :=
  Dev.rd_of_kept (fun b => List.contains ([.PWV] : List Blk) b) d _ (kept_domEval _ d row rfl) fl ix hc

theorem rdk_vote (d : Dev) (col row : Nat) (on : Bool) (fl : Fld) (ix : Nat) (hc : clash fl ([.PWV] : List Blk) = false) : (Dev.vote d col row on).rd fl ix = d.rd fl ix :=
  Dev.rd_of_kept (fun b => List.contains ([.PWV] : List Blk) b) d _ (kept_vote _ d col row on rfl) fl ix hc

theorem rdk_setTrims (d : Dev) (kind target param : Nat) (ws : List Nat) (fl : Fld) (ix : Nat) (hc : clash fl ([] : List Blk) = false) : (Dev.setTrims d kind target param ws).rd fl ix = d.rd fl ix :=
  Dev.rd_of_kept (fun b => List.contains ([] : List Blk) b) d _ (kept_setTrims _ d kind target param ws ) fl ix hc

theorem rdk_setRes (d : Dev) (ws : List Nat) (fl : Fld) (ix : Nat) (hc : clash fl ([.CL] : List Blk) = false) : (Dev.setRes d ws).rd fl ix = d.rd fl ix :=
  Dev.rd_of_kept (fun b => List.contains ([.CL] : List Blk) b) d _ (kept_setRes _ d ws rfl) fl ix hc

theorem rdk_calApply (d : Dev) (kind target param : Nat) (ws : List Nat) (fl : Fld) (ix : Nat) (hc : clash fl ([] : List Blk) = false) : (Dev.calApply d kind target param ws).rd fl ix = d.rd fl ix :=
  Dev.rd_of_kept (fun b => List.contains ([] : List Blk) b) d _ (kept_calApply _ d kind target param ws ) fl ix hc

theorem rdk_calEnd (d : Dev) (code : Nat) (fl : Fld) (ix : Nat) (hc : clash fl ([.MG, .PWV, .CL] : List Blk) = false) : (Dev.calEnd d code).rd fl ix = d.rd fl ix :=
  Dev.rd_of_kept (fun b => List.contains ([.MG, .PWV, .CL] : List Blk) b) d _ (kept_calEnd _ d code rfl rfl rfl) fl ix hc

theorem rdk_courseLaneStatus (d : Dev) (n : Nat) (fl : Fld) (ix : Nat) (hc : clash fl ([.CS] : List Blk) = false) : (Dev.courseLaneStatus d n).rd fl ix = d.rd fl ix :=
  Dev.rd_of_kept (fun b => List.contains ([.CS] : List Blk) b) d _ (kept_courseLaneStatus _ d n rfl) fl ix hc

theorem rdk_laneRefresh (d : Dev) (tp : Nat) (fl : Fld) (ix : Nat) (hc : clash fl ([.UD, .CS] : List Blk) = false) : (Dev.laneRefresh d tp).rd fl ix = d.rd fl ix :=
  Dev.rd_of_kept (fun b => List.contains ([.UD, .CS] : List Blk) b) d _ (kept_laneRefresh _ d tp rfl rfl) fl ix hc

theorem rdk_adaptHold (d : Dev) (l : Nat) (fl : Fld) (ix : Nat) (hc : clash fl ([.LN] : List Blk) = false) : (Dev.adaptHold d l).rd fl ix = d.rd fl ix :=
  Dev.rd_of_kept (fun b => List.contains ([.LN] : List Blk) b) d _ (kept_adaptHold _ d l rfl) fl ix hc

theorem rdk_setKs (d : Dev) (l ks : Nat) (fl : Fld) (ix : Nat) (hc : clash fl ([.UD, .LN, .CS] : List Blk) = false) : (Dev.setKs d l ks).rd fl ix = d.rd fl ix :=
  Dev.rd_of_kept (fun b => List.contains ([.UD, .LN, .CS] : List Blk) b) d _ (kept_setKs _ d l ks rfl rfl rfl) fl ix hc

theorem rdk_laneFault (d : Dev) (tp code : Nat) (fl : Fld) (ix : Nat) (hc : clash fl ([.MG, .UD] : List Blk) = false) : (Dev.laneFault d tp code).rd fl ix = d.rd fl ix :=
  Dev.rd_of_kept (fun b => List.contains ([.MG, .UD] : List Blk) b) d _ (kept_laneFault _ d tp code rfl rfl) fl ix hc

theorem rdk_setTxIdle (d : Dev) (l : Nat) (b : Bool) (fl : Fld) (ix : Nat) (hc : clash fl ([] : List Blk) = false) : (Dev.setTxIdle d l b).rd fl ix = d.rd fl ix :=
  Dev.rd_of_kept (fun b => List.contains ([] : List Blk) b) d _ (kept_setTxIdle _ d l b ) fl ix hc

theorem rdk_setOnFs (d : Dev) (l : Nat) (b : Bool) (fl : Fld) (ix : Nat) (hc : clash fl ([.LN, .TSU] : List Blk) = false) : (Dev.setOnFs d l b).rd fl ix = d.rd fl ix :=
  Dev.rd_of_kept (fun b => List.contains ([.LN, .TSU] : List Blk) b) d _ (kept_setOnFs _ d l b rfl rfl) fl ix hc

theorem rdk_onSlice (d : Dev) (l : Nat) (fl : Fld) (ix : Nat) (hc : clash fl ([.LN, .TSU] : List Blk) = false) : (Dev.onSlice d l).rd fl ix = d.rd fl ix :=
  Dev.rd_of_kept (fun b => List.contains ([.LN, .TSU] : List Blk) b) d _ (kept_onSlice _ d l rfl rfl) fl ix hc

theorem rdk_fsSet (d : Dev) (fs owner : Nat) (shadow carry : Bool) (pad : Nat) (fl : Fld) (ix : Nat) (hc : clash fl ([.LNF] : List Blk) = false) : (Dev.fsSet d fs owner shadow carry pad).rd fl ix = d.rd fl ix :=
  Dev.rd_of_kept (fun b => List.contains ([.LNF] : List Blk) b) d _ (kept_fsSet _ d fs owner shadow carry pad rfl) fl ix hc

theorem rdk_fsRelease (d : Dev) (fs : Nat) (fl : Fld) (ix : Nat) (hc : clash fl ([.LNF] : List Blk) = false) : (Dev.fsRelease d fs).rd fl ix = d.rd fl ix :=
  Dev.rd_of_kept (fun b => List.contains ([.LNF] : List Blk) b) d _ (kept_fsRelease _ d fs rfl) fl ix hc

theorem rdk_marginStop (d : Dev) (l : Nat) (release : Bool) (fl : Fld) (ix : Nat) (hc : clash fl ([.LNF, .CS] : List Blk) = false) : (Dev.marginStop d l release).rd fl ix = d.rd fl ix :=
  Dev.rd_of_kept (fun b => List.contains ([.LNF, .CS] : List Blk) b) d _ (kept_marginStop _ d l release rfl rfl) fl ix hc

theorem rdk_calAbortNow (d : Dev) (l : Nat) (fl : Fld) (ix : Nat) (hc : clash fl ([.MG, .PWV, .CL, .LNF] : List Blk) = false) : (Dev.calAbortNow d l).rd fl ix = d.rd fl ix :=
  Dev.rd_of_kept (fun b => List.contains ([.MG, .PWV, .CL, .LNF] : List Blk) b) d _ (kept_calAbortNow _ d l rfl rfl rfl rfl) fl ix hc

theorem rdk_calPreempt (d : Dev) (l : Nat) (fl : Fld) (ix : Nat) (hc : clash fl ([.MG, .PWV, .CL, .LNF] : List Blk) = false) : (Dev.calPreempt d l).rd fl ix = d.rd fl ix :=
  Dev.rd_of_kept (fun b => List.contains ([.MG, .PWV, .CL, .LNF] : List Blk) b) d _ (kept_calPreempt _ d l rfl rfl rfl rfl) fl ix hc

theorem rdk_toPrimary (d : Dev) (l : Nat) (fl : Fld) (ix : Nat) (hc : clash fl ([.MG, .PWV, .CL, .LN, .LNF, .TSU] : List Blk) = false) : (Dev.toPrimary d l).rd fl ix = d.rd fl ix :=
  Dev.rd_of_kept (fun b => List.contains ([.MG, .PWV, .CL, .LN, .LNF, .TSU] : List Blk) b) d _ (kept_toPrimary _ d l rfl rfl rfl rfl rfl rfl) fl ix hc

theorem rdk_stopSeq (d : Dev) (l : Nat) (fl : Fld) (ix : Nat) (hc : clash fl ([.MG, .PWV, .CL, .LN, .LNF, .TSU] : List Blk) = false) : (Dev.stopSeq d l).rd fl ix = d.rd fl ix :=
  Dev.rd_of_kept (fun b => List.contains ([.MG, .PWV, .CL, .LN, .LNF, .TSU] : List Blk) b) d _ (kept_stopSeq _ d l rfl rfl rfl rfl rfl rfl) fl ix hc

theorem rdk_ptVote (d : Dev) (bay : Nat) (fl : Fld) (ix : Nat) (hc : clash fl ([.PWV] : List Blk) = false) : (Dev.ptVote d bay).rd fl ix = d.rd fl ix :=
  Dev.rd_of_kept (fun b => List.contains ([.PWV] : List Blk) b) d _ (kept_ptVote _ d bay rfl) fl ix hc

theorem rdk_ptEnd (d : Dev) (l result : Nat) (fl : Fld) (ix : Nat) (hc : clash fl ([.MG, .PWV, .UD, .LN, .LNT, .CS] : List Blk) = false) : (Dev.ptEnd d l result).rd fl ix = d.rd fl ix :=
  Dev.rd_of_kept (fun b => List.contains ([.MG, .PWV, .UD, .LN, .LNT, .CS] : List Blk) b) d _ (kept_ptEnd _ d l result rfl rfl rfl rfl rfl rfl) fl ix hc

theorem rdk_ptAbort (d : Dev) (l : Nat) (fl : Fld) (ix : Nat) (hc : clash fl ([.MG, .PWV, .UD, .LN, .LNT, .CS] : List Blk) = false) : (Dev.ptAbort d l).rd fl ix = d.rd fl ix :=
  Dev.rd_of_kept (fun b => List.contains ([.MG, .PWV, .UD, .LN, .LNT, .CS] : List Blk) b) d _ (kept_ptAbort _ d l rfl rfl rfl rfl rfl rfl) fl ix hc

theorem rdk_squelch (d : Dev) (l : Nat) (fl : Fld) (ix : Nat) (hc : clash fl ([.MG, .PWV, .CL, .UD, .LN, .LNF, .CS, .TSU] : List Blk) = false) : (Dev.squelch d l).rd fl ix = d.rd fl ix :=
  Dev.rd_of_kept (fun b => List.contains ([.MG, .PWV, .CL, .UD, .LN, .LNF, .CS, .TSU] : List Blk) b) d _ (kept_squelch _ d l rfl rfl rfl rfl rfl rfl rfl rfl) fl ix hc

theorem rdk_setTaps (d : Dev) (l : Nat) (t : Taps) (fl : Fld) (ix : Nat) (hc : clash fl ([.LN] : List Blk) = false) : (Dev.setTaps d l t).rd fl ix = d.rd fl ix :=
  Dev.rd_of_kept (fun b => List.contains ([.LN] : List Blk) b) d _ (kept_setTaps _ d l t rfl) fl ix hc

theorem rdk_pllRefresh (d : Dev) (p : Nat) (fl : Fld) (ix : Nat) (hc : clash fl ([.LNP] : List Blk) = false) : (Dev.pllRefresh d p).rd fl ix = d.rd fl ix :=
  Dev.rd_of_kept (fun b => List.contains ([.LNP] : List Blk) b) d _ (kept_pllRefresh _ d p rfl) fl ix hc

theorem rdk_retune (d : Dev) (p fam ref : Nat) (fl : Fld) (ix : Nat) (hc : clash fl ([.LNP] : List Blk) = false) : (Dev.retune d p fam ref).rd fl ix = d.rd fl ix :=
  Dev.rd_of_kept (fun b => List.contains ([.LNP] : List Blk) b) d _ (kept_retune _ d p fam ref rfl) fl ix hc

theorem rdk_bayTakes (d : Dev) (n bay fam : Nat) (fl : Fld) (ix : Nat) (hc : clash fl ([.LNP] : List Blk) = false) : (Dev.bayTakes d n bay fam).rd fl ix = d.rd fl ix :=
  Dev.rd_of_kept (fun b => List.contains ([.LNP] : List Blk) b) d _ (kept_bayTakes _ d n bay fam rfl) fl ix hc

theorem rdk_laneToPll (d : Dev) (n l rate : Nat) (fl : Fld) (ix : Nat) (hc : clash fl ([.LN, .LNP] : List Blk) = false) : (Dev.laneToPll d n l rate).rd fl ix = d.rd fl ix :=
  Dev.rd_of_kept (fun b => List.contains ([.LN, .LNP] : List Blk) b) d _ (kept_laneToPll _ d n l rate rfl rfl) fl ix hc

theorem rdk_rxToRate (d : Dev) (n l rate : Nat) (fl : Fld) (ix : Nat) (hc : clash fl ([.LN, .LNP] : List Blk) = false) : (Dev.rxToRate d n l rate).rd fl ix = d.rd fl ix :=
  Dev.rd_of_kept (fun b => List.contains ([.LN, .LNP] : List Blk) b) d _ (kept_rxToRate _ d n l rate rfl rfl) fl ix hc

theorem rdk_laneToRate (d : Dev) (n l rate : Nat) (fl : Fld) (ix : Nat) (hc : clash fl ([.LN, .LNP] : List Blk) = false) : (Dev.laneToRate d n l rate).rd fl ix = d.rd fl ix :=
  Dev.rd_of_kept (fun b => List.contains ([.LN, .LNP] : List Blk) b) d _ (kept_laneToRate _ d n l rate rfl rfl) fl ix hc

theorem rdk_calCheck (d : Dev)  (fl : Fld) (ix : Nat) (hc : clash fl ([.MG, .PWV, .CL] : List Blk) = false) : (Dev.calCheck d).rd fl ix = d.rd fl ix :=
  Dev.rd_of_kept (fun b => List.contains ([.MG, .PWV, .CL] : List Blk) b) d _ (kept_calCheck _ d  rfl rfl rfl) fl ix hc

theorem rdk_shellRaise (d : Dev) (n : Nat) (fl : Fld) (ix : Nat) (hc : clash fl ([] : List Blk) = false) : (Dev.shellRaise d n).rd fl ix = d.rd fl ix :=
  Dev.rd_of_kept (fun b => List.contains ([] : List Blk) b) d _ (kept_shellRaise _ d n ) fl ix hc

theorem rdk_shellRelease (d : Dev) (bay : Nat) (fl : Fld) (ix : Nat) (hc : clash fl ([.PWV] : List Blk) = false) : (Dev.shellRelease d bay).rd fl ix = d.rd fl ix :=
  Dev.rd_of_kept (fun b => List.contains ([.PWV] : List Blk) b) d _ (kept_shellRelease _ d bay rfl) fl ix hc

theorem rdk_refuseRef (d : Dev) (n rate : Nat) (fl : Fld) (ix : Nat) (hc : clash fl ([.MG, .UD, .LNP] : List Blk) = false) : (Dev.refuseRef d n rate).rd fl ix = d.rd fl ix :=
  Dev.rd_of_kept (fun b => List.contains ([.MG, .UD, .LNP] : List Blk) b) d _ (kept_refuseRef _ d n rate rfl rfl rfl) fl ix hc

theorem rdk_setSeg (d : Dev) (n : Nat) (s : Side) (v : Nat) (fl : Fld) (ix : Nat) (hc : clash fl ([.CS] : List Blk) = false) : (Dev.setSeg d n s v).rd fl ix = d.rd fl ix :=
  Dev.rd_of_kept (fun b => List.contains ([.CS] : List Blk) b) d _ (kept_setSeg _ d n s v rfl) fl ix hc

theorem rdk_setSegs (d : Dev) (n v : Nat) (fl : Fld) (ix : Nat) (hc : clash fl ([.CS] : List Blk) = false) : (Dev.setSegs d n v).rd fl ix = d.rd fl ix :=
  Dev.rd_of_kept (fun b => List.contains ([.CS] : List Blk) b) d _ (kept_setSegs _ d n v rfl) fl ix hc

theorem rdk_modSegs (d : Dev) (n : Nat) (g : SegX → SegX) (fl : Fld) (ix : Nat) (hc : clash fl ([] : List Blk) = false) : (Dev.modSegs d n g).rd fl ix = d.rd fl ix :=
  Dev.rd_of_kept (fun b => List.contains ([] : List Blk) b) d _ (kept_modSegs _ d n g ) fl ix hc

theorem rdk_setCourse (d : Dev) (n ks : Nat) (fl : Fld) (ix : Nat) (hc : clash fl ([.MG, .PWV, .UD, .LN, .LNT, .CS] : List Blk) = false) : (Dev.setCourse d n ks).rd fl ix = d.rd fl ix :=
  Dev.rd_of_kept (fun b => List.contains ([.MG, .PWV, .UD, .LN, .LNT, .CS] : List Blk) b) d _ (kept_setCourse _ d n ks rfl rfl rfl rfl rfl rfl) fl ix hc

theorem rdk_courseFault (d : Dev) (n code : Nat) (fl : Fld) (ix : Nat) (hc : clash fl ([.MG, .UD, .CS] : List Blk) = false) : (Dev.courseFault d n code).rd fl ix = d.rd fl ix :=
  Dev.rd_of_kept (fun b => List.contains ([.MG, .UD, .CS] : List Blk) b) d _ (kept_courseFault _ d n code rfl rfl rfl) fl ix hc

theorem rdk_courseTxIdle (d : Dev) (n : Nat) (b : Bool) (fl : Fld) (ix : Nat) (hc : clash fl ([] : List Blk) = false) : (Dev.courseTxIdle d n b).rd fl ix = d.rd fl ix :=
  Dev.rd_of_kept (fun b => List.contains ([] : List Blk) b) d _ (kept_courseTxIdle _ d n b ) fl ix hc

theorem rdk_sideTxIdle (d : Dev) (n : Nat) (s : Side) (b : Bool) (fl : Fld) (ix : Nat) (hc : clash fl ([] : List Blk) = false) : (Dev.sideTxIdle d n s b).rd fl ix = d.rd fl ix :=
  Dev.rd_of_kept (fun b => List.contains ([] : List Blk) b) d _ (kept_sideTxIdle _ d n s b ) fl ix hc

theorem rdk_courseVotes (d : Dev) (n : Nat) (fl : Fld) (ix : Nat) (hc : clash fl ([.PWV] : List Blk) = false) : (Dev.courseVotes d n).rd fl ix = d.rd fl ix :=
  Dev.rd_of_kept (fun b => List.contains ([.PWV] : List Blk) b) d _ (kept_courseVotes _ d n rfl) fl ix hc

theorem rdk_pciClear (d : Dev) (n : Nat) (fl : Fld) (ix : Nat) (hc : clash fl ([.LNF, .CS] : List Blk) = false) : (Dev.pciClear d n).rd fl ix = d.rd fl ix :=
  Dev.rd_of_kept (fun b => List.contains ([.LNF, .CS] : List Blk) b) d _ (kept_pciClear _ d n rfl rfl) fl ix hc

theorem rdk_enterDisabled (d : Dev) (n : Nat) (fl : Fld) (ix : Nat) (hc : clash fl ([.MG, .PWV, .CL, .UD, .LN, .LNF, .LNT, .CS, .TSU] : List Blk) = false) : (Dev.enterDisabled d n).rd fl ix = d.rd fl ix :=
  Dev.rd_of_kept (fun b => List.contains ([.MG, .PWV, .CL, .UD, .LN, .LNF, .LNT, .CS, .TSU] : List Blk) b) d _ (kept_enterDisabled _ d n rfl rfl rfl rfl rfl rfl rfl rfl rfl) fl ix hc

theorem rdk_pcieTaps (d : Dev) (l : Nat) (fl : Fld) (ix : Nat) (hc : clash fl ([.LN] : List Blk) = false) : (Dev.pcieTaps d l).rd fl ix = d.rd fl ix :=
  Dev.rd_of_kept (fun b => List.contains ([.LN] : List Blk) b) d _ (kept_pcieTaps _ d l rfl) fl ix hc

theorem rdk_laneAcquire (d : Dev) (n l : Nat) (fl : Fld) (ix : Nat) (hc : clash fl ([.MG, .UD, .LN, .CS] : List Blk) = false) : (Dev.laneAcquire d n l).rd fl ix = d.rd fl ix :=
  Dev.rd_of_kept (fun b => List.contains ([.MG, .UD, .LN, .CS] : List Blk) b) d _ (kept_laneAcquire _ d n l rfl rfl rfl rfl) fl ix hc

theorem rdk_enterDetect (d : Dev) (n : Nat) (fl : Fld) (ix : Nat) (hc : clash fl ([.MG, .PWV, .CL, .UD, .LN, .LNF, .LNT, .CS, .TSU] : List Blk) = false) : (Dev.enterDetect d n).rd fl ix = d.rd fl ix :=
  Dev.rd_of_kept (fun b => List.contains ([.MG, .PWV, .CL, .UD, .LN, .LNF, .LNT, .CS, .TSU] : List Blk) b) d _ (kept_enterDetect _ d n rfl rfl rfl rfl rfl rfl rfl rfl rfl) fl ix hc

theorem rdk_spanDetect (d : Dev) (n : Nat) (fl : Fld) (ix : Nat) (hc : clash fl ([.MG, .PWV, .CL, .UD, .LN, .LNF, .LNT, .CS, .TSU] : List Blk) = false) : (Dev.spanDetect d n).rd fl ix = d.rd fl ix :=
  Dev.rd_of_kept (fun b => List.contains ([.MG, .PWV, .CL, .UD, .LN, .LNF, .LNT, .CS, .TSU] : List Blk) b) d _ (kept_spanDetect _ d n rfl rfl rfl rfl rfl rfl rfl rfl rfl) fl ix hc

theorem rdk_backoffStep (d : Dev) (n : Nat) (fl : Fld) (ix : Nat) (hc : clash fl ([] : List Blk) = false) : (Dev.backoffStep d n).rd fl ix = d.rd fl ix :=
  Dev.rd_of_kept (fun b => List.contains ([] : List Blk) b) d _ (kept_backoffStep _ d n ) fl ix hc

theorem rdk_segNegotiate (d : Dev) (n : Nat) (s : Side) (fl : Fld) (ix : Nat) (hc : clash fl ([.CS] : List Blk) = false) : (Dev.segNegotiate d n s).rd fl ix = d.rd fl ix :=
  Dev.rd_of_kept (fun b => List.contains ([.CS] : List Blk) b) d _ (kept_segNegotiate _ d n s rfl) fl ix hc

theorem rdk_forwardIdle (d : Dev) (n : Nat) (s : Side) (idle : Bool) (fl : Fld) (ix : Nat) (hc : clash fl ([] : List Blk) = false) : (Dev.forwardIdle d n s idle).rd fl ix = d.rd fl ix :=
  Dev.rd_of_kept (fun b => List.contains ([] : List Blk) b) d _ (kept_forwardIdle _ d n s idle ) fl ix hc

theorem rdk_enterNegotiate (d : Dev) (n : Nat) (fl : Fld) (ix : Nat) (hc : clash fl ([.MG, .PWV, .UD, .LN, .LNP, .LNT, .CS] : List Blk) = false) : (Dev.enterNegotiate d n).rd fl ix = d.rd fl ix :=
  Dev.rd_of_kept (fun b => List.contains ([.MG, .PWV, .UD, .LN, .LNP, .LNT, .CS] : List Blk) b) d _ (kept_enterNegotiate _ d n rfl rfl rfl rfl rfl rfl rfl) fl ix hc

theorem rdk_trClear (d : Dev) (k : Nat) (fl : Fld) (ix : Nat) (hc : clash fl ([.CS] : List Blk) = false) : (Dev.trClear d k).rd fl ix = d.rd fl ix :=
  Dev.rd_of_kept (fun b => List.contains ([.CS] : List Blk) b) d _ (kept_trClear _ d k rfl) fl ix hc

theorem rdk_pciIdleState (d : Dev) (n : Nat) (fl : Fld) (ix : Nat) (hc : clash fl ([.CS] : List Blk) = false) : (Dev.pciIdleState d n).rd fl ix = d.rd fl ix :=
  Dev.rd_of_kept (fun b => List.contains ([.CS] : List Blk) b) d _ (kept_pciIdleState _ d n rfl) fl ix hc

theorem rdk_laneIdleShown (d : Dev) (l : Nat) (fl : Fld) (ix : Nat) (hc : clash fl ([.CS] : List Blk) = false) : (Dev.laneIdleShown d l).rd fl ix = d.rd fl ix :=
  Dev.rd_of_kept (fun b => List.contains ([.CS] : List Blk) b) d _ (kept_laneIdleShown _ d l rfl) fl ix hc

theorem rdk_segTrain (d : Dev) (n : Nat) (s : Side) (fl : Fld) (ix : Nat) (hc : clash fl ([.CS] : List Blk) = false) : (Dev.segTrain d n s).rd fl ix = d.rd fl ix :=
  Dev.rd_of_kept (fun b => List.contains ([.CS] : List Blk) b) d _ (kept_segTrain _ d n s rfl) fl ix hc

theorem rdk_enterTrain (d : Dev) (n : Nat) (fl : Fld) (ix : Nat) (hc : clash fl ([.MG, .PWV, .UD, .LN, .LNP, .LNT, .CS] : List Blk) = false) : (Dev.enterTrain d n).rd fl ix = d.rd fl ix :=
  Dev.rd_of_kept (fun b => List.contains ([.MG, .PWV, .UD, .LN, .LNP, .LNT, .CS] : List Blk) b) d _ (kept_enterTrain _ d n rfl rfl rfl rfl rfl rfl rfl) fl ix hc

theorem rdk_leaveService (d : Dev) (n : Nat) (fl : Fld) (ix : Nat) (hc : clash fl ([.MG, .PWV, .CL, .UD, .LN, .LNF, .CS, .TSU] : List Blk) = false) : (Dev.leaveService d n).rd fl ix = d.rd fl ix :=
  Dev.rd_of_kept (fun b => List.contains ([.MG, .PWV, .CL, .UD, .LN, .LNF, .CS, .TSU] : List Blk) b) d _ (kept_leaveService _ d n rfl rfl rfl rfl rfl rfl rfl rfl) fl ix hc

theorem rdk_writeLat (d : Dev) (n : Nat) (lat : Option (BitVec 24 × BitVec 24)) (fl : Fld) (ix : Nat) (hc : clash fl ([.CS] : List Blk) = false) : (Dev.writeLat d n lat).rd fl ix = d.rd fl ix :=
  Dev.rd_of_kept (fun b => List.contains ([.CS] : List Blk) b) d _ (kept_writeLat _ d n lat rfl) fl ix hc

theorem rdk_enterRun (d : Dev) (n : Nat) (lat : Option (BitVec 24 × BitVec 24)) (fl : Fld) (ix : Nat) (hc : clash fl ([.MG, .PWV, .UD, .LN, .LNT, .CS] : List Blk) = false) : (Dev.enterRun d n lat).rd fl ix = d.rd fl ix :=
  Dev.rd_of_kept (fun b => List.contains ([.MG, .PWV, .UD, .LN, .LNT, .CS] : List Blk) b) d _ (kept_enterRun _ d n lat rfl rfl rfl rfl rfl rfl) fl ix hc

theorem rdk_segLost (d : Dev) (n : Nat) (s : Side) (partner : Bool) (fl : Fld) (ix : Nat) (hc : clash fl ([.CS] : List Blk) = false) : (Dev.segLost d n s partner).rd fl ix = d.rd fl ix :=
  Dev.rd_of_kept (fun b => List.contains ([.CS] : List Blk) b) d _ (kept_segLost _ d n s partner rfl) fl ix hc

theorem rdk_segReady (d : Dev) (n : Nat) (s : Side) (fl : Fld) (ix : Nat) (hc : clash fl ([.CS] : List Blk) = false) : (Dev.segReady d n s).rd fl ix = d.rd fl ix :=
  Dev.rd_of_kept (fun b => List.contains ([.CS] : List Blk) b) d _ (kept_segReady _ d n s rfl) fl ix hc

theorem rdk_segsReady (d : Dev) (n : Nat) (fl : Fld) (ix : Nat) (hc : clash fl ([.CS] : List Blk) = false) : (Dev.segsReady d n).rd fl ix = d.rd fl ix :=
  Dev.rd_of_kept (fun b => List.contains ([.CS] : List Blk) b) d _ (kept_segsReady _ d n rfl) fl ix hc

theorem rdk_receiverReady (d : Dev) (n : Nat) (fl : Fld) (ix : Nat) (hc : clash fl ([.CS] : List Blk) = false) : (Dev.receiverReady d n).rd fl ix = d.rd fl ix :=
  Dev.rd_of_kept (fun b => List.contains ([.CS] : List Blk) b) d _ (kept_receiverReady _ d n rfl) fl ix hc

theorem rdk_skewFault (d : Dev) (n : Nat) (s : Side) (fl : Fld) (ix : Nat) (hc : clash fl ([.MG, .UD] : List Blk) = false) : (Dev.skewFault d n s).rd fl ix = d.rd fl ix :=
  Dev.rd_of_kept (fun b => List.contains ([.MG, .UD] : List Blk) b) d _ (kept_skewFault _ d n s rfl rfl) fl ix hc

theorem rdk_noPll (d : Dev) (n : Nat) (fl : Fld) (ix : Nat) (hc : clash fl ([.MG, .UD] : List Blk) = false) : (Dev.noPll d n).rd fl ix = d.rd fl ix :=
  Dev.rd_of_kept (fun b => List.contains ([.MG, .UD] : List Blk) b) d _ (kept_noPll _ d n rfl rfl) fl ix hc

theorem rdk_resolve (d : Dev) (n : Nat) (fl : Fld) (ix : Nat) (hc : clash fl ([.MG, .PWV, .CL, .UD, .LN, .LNF, .LNP, .LNT, .CS, .TSU] : List Blk) = false) : (Dev.resolve d n).rd fl ix = d.rd fl ix :=
  Dev.rd_of_kept (fun b => List.contains ([.MG, .PWV, .CL, .UD, .LN, .LNF, .LNP, .LNT, .CS, .TSU] : List Blk) b) d _ (kept_resolve _ d n rfl rfl rfl rfl rfl rfl rfl rfl rfl rfl) fl ix hc

theorem rdk_courseRun (d : Dev) (fuel n : Nat) (e : CourseEv) (fl : Fld) (ix : Nat) (hc : clash fl ([.MG, .PWV, .CL, .UD, .LN, .LNF, .LNP, .LNT, .CS, .TSU] : List Blk) = false) : (Dev.courseRun d fuel n e).rd fl ix = d.rd fl ix :=
  Dev.rd_of_kept (fun b => List.contains ([.MG, .PWV, .CL, .UD, .LN, .LNF, .LNP, .LNT, .CS, .TSU] : List Blk) b) d _ (kept_courseRun _ d fuel n e rfl rfl rfl rfl rfl rfl rfl rfl rfl rfl) fl ix hc

theorem rdk_aggregateSwitch (d : Dev) (n : Nat) (fl : Fld) (ix : Nat) (hc : clash fl ([.UD, .CS] : List Blk) = false) : (Dev.aggregateSwitch d n).rd fl ix = d.rd fl ix :=
  Dev.rd_of_kept (fun b => List.contains ([.UD, .CS] : List Blk) b) d _ (kept_aggregateSwitch _ d n rfl rfl) fl ix hc

theorem rdk_aggregateEval (d : Dev) (n : Nat) (fl : Fld) (ix : Nat) (hc : clash fl ([.MG, .PWV, .UD, .LN, .LNT, .CS] : List Blk) = false) : (Dev.aggregateEval d n).rd fl ix = d.rd fl ix :=
  Dev.rd_of_kept (fun b => List.contains ([.MG, .PWV, .UD, .LN, .LNT, .CS] : List Blk) b) d _ (kept_aggregateEval _ d n rfl rfl rfl rfl rfl rfl) fl ix hc

theorem rdk_belowEval (d : Dev) (n : Nat) (fl : Fld) (ix : Nat) (hc : clash fl ([.MG, .PWV, .CL, .UD, .LN, .LNF, .LNP, .LNT, .CS, .TSU] : List Blk) = false) : (Dev.belowEval d n).rd fl ix = d.rd fl ix :=
  Dev.rd_of_kept (fun b => List.contains ([.MG, .PWV, .CL, .UD, .LN, .LNF, .LNP, .LNT, .CS, .TSU] : List Blk) b) d _ (kept_belowEval _ d n rfl rfl rfl rfl rfl rfl rfl rfl rfl rfl) fl ix hc

theorem rdk_courseEval (d : Dev) (n : Nat) (e : CourseEv) (fl : Fld) (ix : Nat) (hc : clash fl ([.MG, .PWV, .CL, .UD, .LN, .LNF, .LNP, .LNT, .CS, .TSU] : List Blk) = false) : (Dev.courseEval d n e).rd fl ix = d.rd fl ix :=
  Dev.rd_of_kept (fun b => List.contains ([.MG, .PWV, .CL, .UD, .LN, .LNF, .LNP, .LNT, .CS, .TSU] : List Blk) b) d _ (kept_courseEval _ d n e rfl rfl rfl rfl rfl rfl rfl rfl rfl rfl) fl ix hc

theorem rdk_evalLaneCourse (d : Dev) (l : Nat) (e : CourseEv) (fl : Fld) (ix : Nat) (hc : clash fl ([.MG, .PWV, .CL, .UD, .LN, .LNF, .LNP, .LNT, .CS, .TSU] : List Blk) = false) : (Dev.evalLaneCourse d l e).rd fl ix = d.rd fl ix :=
  Dev.rd_of_kept (fun b => List.contains ([.MG, .PWV, .CL, .UD, .LN, .LNF, .LNP, .LNT, .CS, .TSU] : List Blk) b) d _ (kept_evalLaneCourse _ d l e rfl rfl rfl rfl rfl rfl rfl rfl rfl rfl) fl ix hc

theorem rdk_modDm (d : Dev) (g : DmX → DmX) (fl : Fld) (ix : Nat) (hc : clash fl ([] : List Blk) = false) : (Dev.modDm d g).rd fl ix = d.rd fl ix :=
  Dev.rd_of_kept (fun b => List.contains ([] : List Blk) b) d _ (kept_modDm _ d g ) fl ix hc

theorem rdk_setMeters (d : Dev) (ks code : Nat) (fl : Fld) (ix : Nat) (hc : clash fl ([.MG, .UD] : List Blk) = false) : (Dev.setMeters d ks code).rd fl ix = d.rd fl ix :=
  Dev.rd_of_kept (fun b => List.contains ([.MG, .UD] : List Blk) b) d _ (kept_setMeters _ d ks code rfl rfl) fl ix hc

theorem rdk_intervalStart (d : Dev)  (fl : Fld) (ix : Nat) (hc : clash fl ([] : List Blk) = false) : (Dev.intervalStart d).rd fl ix = d.rd fl ix :=
  Dev.rd_of_kept (fun b => List.contains ([] : List Blk) b) d _ (kept_intervalStart _ d  ) fl ix hc

theorem rdk_intervalEnd (d : Dev) (short : Bool) (fl : Fld) (ix : Nat) (hc : clash fl ([] : List Blk) = false) : (Dev.intervalEnd d short).rd fl ix = d.rd fl ix :=
  Dev.rd_of_kept (fun b => List.contains ([] : List Blk) b) d _ (kept_intervalEnd _ d short ) fl ix hc

theorem rdk_ringOpen (d : Dev)  (fl : Fld) (ix : Nat) (hc : clash fl ([.MG, .UD, .DM] : List Blk) = false) : (Dev.ringOpen d).rd fl ix = d.rd fl ix :=
  Dev.rd_of_kept (fun b => List.contains ([.MG, .UD, .DM] : List Blk) b) d _ (kept_ringOpen _ d  rfl rfl rfl) fl ix hc

theorem rdk_ringDrop (d : Dev)  (fl : Fld) (ix : Nat) (hc : clash fl ([] : List Blk) = false) : (Dev.ringDrop d).rd fl ix = d.rd fl ix :=
  Dev.rd_of_kept (fun b => List.contains ([] : List Blk) b) d _ (kept_ringDrop _ d  ) fl ix hc

theorem rdk_dormerVotes (d : Dev) (on : Bool) (fl : Fld) (ix : Nat) (hc : clash fl ([.PWV] : List Blk) = false) : (Dev.dormerVotes d on).rd fl ix = d.rd fl ix :=
  Dev.rd_of_kept (fun b => List.contains ([.PWV] : List Blk) b) d _ (kept_dormerVotes _ d on rfl) fl ix hc

theorem rdk_unseal (d : Dev)  (fl : Fld) (ix : Nat) (hc : clash fl ([.MG, .PWV, .UD, .DM] : List Blk) = false) : (Dev.unseal d).rd fl ix = d.rd fl ix :=
  Dev.rd_of_kept (fun b => List.contains ([.MG, .PWV, .UD, .DM] : List Blk) b) d _ (kept_unseal _ d  rfl rfl rfl rfl) fl ix hc

theorem rdk_restCheck (d : Dev)  (fl : Fld) (ix : Nat) (hc : clash fl ([.PWV, .DM] : List Blk) = false) : (Dev.restCheck d).rd fl ix = d.rd fl ix :=
  Dev.rd_of_kept (fun b => List.contains ([.PWV, .DM] : List Blk) b) d _ (kept_restCheck _ d  rfl rfl) fl ix hc

theorem rdk_dormerRest (d : Dev)  (fl : Fld) (ix : Nat) (hc : clash fl ([.PWV, .DM] : List Blk) = false) : (Dev.dormerRest d).rd fl ix = d.rd fl ix :=
  Dev.rd_of_kept (fun b => List.contains ([.PWV, .DM] : List Blk) b) d _ (kept_dormerRest _ d  rfl rfl) fl ix hc

theorem rdk_dormerWake (d : Dev)  (fl : Fld) (ix : Nat) (hc : clash fl ([.PWV, .DM] : List Blk) = false) : (Dev.dormerWake d).rd fl ix = d.rd fl ix :=
  Dev.rd_of_kept (fun b => List.contains ([.PWV, .DM] : List Blk) b) d _ (kept_dormerWake _ d  rfl rfl) fl ix hc

theorem rdk_modGate (d : Dev) (k : Nat) (g : GateX → GateX) (fl : Fld) (ix : Nat) (hc : clash fl ([] : List Blk) = false) : (Dev.modGate d k g).rd fl ix = d.rd fl ix :=
  Dev.rd_of_kept (fun b => List.contains ([] : List Blk) b) d _ (kept_modGate _ d k g ) fl ix hc

theorem rdk_gateEnd (d : Dev) (k outcome : Nat) (fl : Fld) (ix : Nat) (hc : clash fl ([.MG, .TG, .SN, .UD] : List Blk) = false) : (Dev.gateEnd d k outcome).rd fl ix = d.rd fl ix :=
  Dev.rd_of_kept (fun b => List.contains ([.MG, .TG, .SN, .UD] : List Blk) b) d _ (kept_gateEnd _ d k outcome rfl rfl rfl rfl) fl ix hc

theorem rdk_revoke (d : Dev) (ks : List Nat) (fl : Fld) (ix : Nat) (hc : clash fl ([.MG, .TG, .SN, .UD] : List Blk) = false) : (Dev.revoke d ks).rd fl ix = d.rd fl ix :=
  Dev.rd_of_kept (fun b => List.contains ([.MG, .TG, .SN, .UD] : List Blk) b) d _ (kept_revoke _ d ks rfl rfl rfl rfl) fl ix hc

theorem rdk_gateRelock (d : Dev)  (fl : Fld) (ix : Nat) (hc : clash fl ([.MG, .TG, .SN, .UD] : List Blk) = false) : (Dev.gateRelock d).rd fl ix = d.rd fl ix :=
  Dev.rd_of_kept (fun b => List.contains ([.MG, .TG, .SN, .UD] : List Blk) b) d _ (kept_gateRelock _ d  rfl rfl rfl rfl) fl ix hc

theorem rdk_setDom (d : Dev) (row st : Nat) (fl : Fld) (ix : Nat) (hc : clash fl ([.PWV, .PWS, .UD] : List Blk) = false) : (Dev.setDom d row st).rd fl ix = d.rd fl ix :=
  Dev.rd_of_kept (fun b => List.contains ([.PWV, .PWS, .UD] : List Blk) b) d _ (kept_setDom _ d row st rfl rfl rfl) fl ix hc

theorem rdk_supplyUp (d : Dev) (row : Nat) (fl : Fld) (ix : Nat) (hc : clash fl ([.PWV] : List Blk) = false) : (Dev.supplyUp d row).rd fl ix = d.rd fl ix :=
  Dev.rd_of_kept (fun b => List.contains ([.PWV] : List Blk) b) d _ (kept_supplyUp _ d row rfl) fl ix hc

theorem rdk_supplyDown (d : Dev) (row : Nat) (off : Bool) (fl : Fld) (ix : Nat) (hc : clash fl ([.PWV] : List Blk) = false) : (Dev.supplyDown d row off).rd fl ix = d.rd fl ix :=
  Dev.rd_of_kept (fun b => List.contains ([.PWV] : List Blk) b) d _ (kept_supplyDown _ d row off rfl) fl ix hc

theorem rdk_domRaised (d : Dev) (row : Nat) (fl : Fld) (ix : Nat) (hc : clash fl ([.PWV, .PWS, .UD, .TB] : List Blk) = false) : (Dev.domRaised d row).rd fl ix = d.rd fl ix :=
  Dev.rd_of_kept (fun b => List.contains ([.PWV, .PWS, .UD, .TB] : List Blk) b) d _ (kept_domRaised _ d row rfl rfl rfl rfl) fl ix hc

theorem rdk_domStop (d : Dev) (row : Nat) (fl : Fld) (ix : Nat) (hc : clash fl ([.MG, .PWV, .TG, .SN, .CL, .UD, .LNF, .LNP, .TB] : List Blk) = false) : (Dev.domStop d row).rd fl ix = d.rd fl ix :=
  Dev.rd_of_kept (fun b => List.contains ([.MG, .PWV, .TG, .SN, .CL, .UD, .LNF, .LNP, .TB] : List Blk) b) d _ (kept_domStop _ d row rfl rfl rfl rfl rfl rfl rfl rfl rfl) fl ix hc

theorem rdk_devVotes (d : Dev) (mask : Nat) (fl : Fld) (ix : Nat) (hc : clash fl ([.PWV] : List Blk) = false) : (Dev.devVotes d mask).rd fl ix = d.rd fl ix :=
  Dev.rd_of_kept (fun b => List.contains ([.PWV] : List Blk) b) d _ (kept_devVotes _ d mask rfl) fl ix hc

theorem rdk_holdPads (d : Dev) (groups : Nat) (fl : Fld) (ix : Nat) (hc : clash fl ([.PW] : List Blk) = false) : (Dev.holdPads d groups).rd fl ix = d.rd fl ix :=
  Dev.rd_of_kept (fun b => List.contains ([.PW] : List Blk) b) d _ (kept_holdPads _ d groups rfl) fl ix hc

theorem rdk_goDown (d : Dev) (target : Nat) (fl : Fld) (ix : Nat) (hc : clash fl ([.MG, .PW, .PWV, .TG, .SN, .UD, .DM] : List Blk) = false) : (Dev.goDown d target).rd fl ix = d.rd fl ix :=
  Dev.rd_of_kept (fun b => List.contains ([.MG, .PW, .PWV, .TG, .SN, .UD, .DM] : List Blk) b) d _ (kept_goDown _ d target rfl rfl rfl rfl rfl rfl rfl) fl ix hc

theorem rdk_loaderVotes (d : Dev)  (fl : Fld) (ix : Nat) (hc : clash fl ([.PWV] : List Blk) = false) : (Dev.loaderVotes d).rd fl ix = d.rd fl ix :=
  Dev.rd_of_kept (fun b => List.contains ([.PWV] : List Blk) b) d _ (kept_loaderVotes _ d  rfl) fl ix hc

theorem rdk_goUp (d : Dev) (target : Nat) (fl : Fld) (ix : Nat) (hc : clash fl ([.PW, .PWV, .CF, .UD, .DM] : List Blk) = false) : (Dev.goUp d target).rd fl ix = d.rd fl ix :=
  Dev.rd_of_kept (fun b => List.contains ([.PW, .PWV, .CF, .UD, .DM] : List Blk) b) d _ (kept_goUp _ d target rfl rfl rfl rfl rfl) fl ix hc

theorem rdk_transition (d : Dev) (target : Nat) (fl : Fld) (ix : Nat) (hc : clash fl ([.MG, .PW, .PWV, .CF, .TG, .SN, .UD, .DM] : List Blk) = false) : (Dev.transition d target).rd fl ix = d.rd fl ix :=
  Dev.rd_of_kept (fun b => List.contains ([.MG, .PW, .PWV, .CF, .TG, .SN, .UD, .DM] : List Blk) b) d _ (kept_transition _ d target rfl rfl rfl rfl rfl rfl rfl rfl) fl ix hc

theorem rdk_reportHeld (d : Dev)  (fl : Fld) (ix : Nat) (hc : clash fl ([.MG, .PW] : List Blk) = false) : (Dev.reportHeld d).rd fl ix = d.rd fl ix :=
  Dev.rd_of_kept (fun b => List.contains ([.MG, .PW] : List Blk) b) d _ (kept_reportHeld _ d  rfl rfl) fl ix hc

theorem rdk_recordWake (d : Dev) (src course timer : Nat) (replay : Bool) (fl : Fld) (ix : Nat) (hc : clash fl ([.PW] : List Blk) = false) : (Dev.recordWake d src course timer replay).rd fl ix = d.rd fl ix :=
  Dev.rd_of_kept (fun b => List.contains ([.PW] : List Blk) b) d _ (kept_recordWake _ d src course timer replay rfl) fl ix hc

theorem rdk_transitionEnd (d : Dev)  (fl : Fld) (ix : Nat) (hc : clash fl ([.MG, .PW] : List Blk) = false) : (Dev.transitionEnd d).rd fl ix = d.rd fl ix :=
  Dev.rd_of_kept (fun b => List.contains ([.MG, .PW] : List Blk) b) d _ (kept_transitionEnd _ d  rfl rfl) fl ix hc

theorem rdk_runPending (d : Dev)  (fl : Fld) (ix : Nat) (hc : clash fl ([.MG, .PW, .PWV, .CF, .TG, .SN, .UD, .DM] : List Blk) = false) : (Dev.runPending d).rd fl ix = d.rd fl ix :=
  Dev.rd_of_kept (fun b => List.contains ([.MG, .PW, .PWV, .CF, .TG, .SN, .UD, .DM] : List Blk) b) d _ (kept_runPending _ d  rfl rfl rfl rfl rfl rfl rfl rfl) fl ix hc

theorem rdk_transitionCheck (d : Dev)  (fl : Fld) (ix : Nat) (hc : clash fl ([.MG, .PW, .PWV, .CF, .TG, .SN, .UD, .DM] : List Blk) = false) : (Dev.transitionCheck d).rd fl ix = d.rd fl ix :=
  Dev.rd_of_kept (fun b => List.contains ([.MG, .PW, .PWV, .CF, .TG, .SN, .UD, .DM] : List Blk) b) d _ (kept_transitionCheck _ d  rfl rfl rfl rfl rfl rfl rfl rfl) fl ix hc

theorem rdk_undoRequest (d : Dev) (u : UndoX) (fl : Fld) (ix : Nat) (hc : clash fl ([.PW, .PWV] : List Blk) = false) : (Dev.undoRequest d u).rd fl ix = d.rd fl ix :=
  Dev.rd_of_kept (fun b => List.contains ([.PW, .PWV] : List Blk) b) d _ (kept_undoRequest _ d u rfl rfl) fl ix hc

theorem rdk_wake (d : Dev) (src course timer : Nat) (fl : Fld) (ix : Nat) (hc : clash fl ([.MG, .PW, .PWV, .CF, .TG, .SN, .UD, .DM] : List Blk) = false) : (Dev.wake d src course timer).rd fl ix = d.rd fl ix :=
  Dev.rd_of_kept (fun b => List.contains ([.MG, .PW, .PWV, .CF, .TG, .SN, .UD, .DM] : List Blk) b) d _ (kept_wake _ d src course timer rfl rfl rfl rfl rfl rfl rfl rfl) fl ix hc

theorem rdk_request (d : Dev) (req : Nat) (fl : Fld) (ix : Nat) (hc : clash fl ([.MG, .PW, .PWV, .CF, .TG, .SN, .UD, .DM] : List Blk) = false) : (Dev.request d req).rd fl ix = d.rd fl ix :=
  Dev.rd_of_kept (fun b => List.contains ([.MG, .PW, .PWV, .CF, .TG, .SN, .UD, .DM] : List Blk) b) d _ (kept_request _ d req rfl rfl rfl rfl rfl rfl rfl rfl) fl ix hc

theorem rdk_tbRefUpdate (d : Dev)  (fl : Fld) (ix : Nat) (hc : clash fl ([.TB] : List Blk) = false) : (Dev.tbRefUpdate d).rd fl ix = d.rd fl ix :=
  Dev.rd_of_kept (fun b => List.contains ([.TB] : List Blk) b) d _ (kept_tbRefUpdate _ d  rfl) fl ix hc

theorem rdk_tbRefSelect (d : Dev) (k : Nat) (fl : Fld) (ix : Nat) (hc : clash fl ([.TB] : List Blk) = false) : (Dev.tbRefSelect d k).rd fl ix = d.rd fl ix :=
  Dev.rd_of_kept (fun b => List.contains ([.TB] : List Blk) b) d _ (kept_tbRefSelect _ d k rfl) fl ix hc

theorem rdk_courseImageWrite (d : Dev) (n : Nat) (im : CourseImage) (fl : Fld) (ix : Nat) (hc : clash fl ([.UD, .CS] : List Blk) = false) : (Dev.courseImageWrite d n im).rd fl ix = d.rd fl ix :=
  Dev.rd_of_kept (fun b => List.contains ([.UD, .CS] : List Blk) b) d _ (kept_courseImageWrite _ d n im rfl rfl) fl ix hc

theorem rdk_imagePlls (d : Dev)  (fl : Fld) (ix : Nat) (hc : clash fl ([.LNP] : List Blk) = false) : (Dev.imagePlls d).rd fl ix = d.rd fl ix :=
  Dev.rd_of_kept (fun b => List.contains ([.LNP] : List Blk) b) d _ (kept_imagePlls _ d  rfl) fl ix hc

theorem rdk_startPending (d : Dev)  (fl : Fld) (ix : Nat) (hc : clash fl ([.MG, .PW, .PWV, .CF, .TG, .SN, .UD, .DM] : List Blk) = false) : (Dev.startPending d).rd fl ix = d.rd fl ix :=
  Dev.rd_of_kept (fun b => List.contains ([.MG, .PW, .PWV, .CF, .TG, .SN, .UD, .DM] : List Blk) b) d _ (kept_startPending _ d  rfl rfl rfl rfl rfl rfl rfl rfl) fl ix hc

theorem rdk_loaderVotesOff (d : Dev)  (fl : Fld) (ix : Nat) (hc : clash fl ([.PWV] : List Blk) = false) : (Dev.loaderVotesOff d).rd fl ix = d.rd fl ix :=
  Dev.rd_of_kept (fun b => List.contains ([.PWV] : List Blk) b) d _ (kept_loaderVotesOff _ d  rfl) fl ix hc

theorem rdk_imageResult (d : Dev) (code yealm : Nat) (fl : Fld) (ix : Nat) (hc : clash fl ([.CF] : List Blk) = false) : (Dev.imageResult d code yealm).rd fl ix = d.rd fl ix :=
  Dev.rd_of_kept (fun b => List.contains ([.CF] : List Blk) b) d _ (kept_imageResult _ d code yealm rfl) fl ix hc

theorem rdk_loaderEnd (d : Dev) (code yealm item : Nat) (fl : Fld) (ix : Nat) (hc : clash fl ([.MG, .PW, .PWV, .CF, .TG, .SN, .UD, .DM] : List Blk) = false) : (Dev.loaderEnd d code yealm item).rd fl ix = d.rd fl ix :=
  Dev.rd_of_kept (fun b => List.contains ([.MG, .PW, .PWV, .CF, .TG, .SN, .UD, .DM] : List Blk) b) d _ (kept_loaderEnd _ d code yealm item rfl rfl rfl rfl rfl rfl rfl rfl) fl ix hc

theorem rdk_fullService (d : Dev)  (fl : Fld) (ix : Nat) (hc : clash fl ([.MG, .PW, .PWV, .CF, .TG, .SN, .UD, .DM] : List Blk) = false) : (Dev.fullService d).rd fl ix = d.rd fl ix :=
  Dev.rd_of_kept (fun b => List.contains ([.MG, .PW, .PWV, .CF, .TG, .SN, .UD, .DM] : List Blk) b) d _ (kept_fullService _ d  rfl rfl rfl rfl rfl rfl rfl rfl) fl ix hc

theorem rdk_courseHandover (d : Dev) (n : Nat) (fl : Fld) (ix : Nat) (hc : clash fl ([.MG, .PW, .PWV, .CF, .TG, .SN, .CL, .UD, .LN, .LNF, .LNP, .LNT, .CS, .TSU, .DM] : List Blk) = false) : (Dev.courseHandover d n).rd fl ix = d.rd fl ix :=
  Dev.rd_of_kept (fun b => List.contains ([.MG, .PW, .PWV, .CF, .TG, .SN, .CL, .UD, .LN, .LNF, .LNP, .LNT, .CS, .TSU, .DM] : List Blk) b) d _ (kept_courseHandover _ d n rfl rfl rfl rfl rfl rfl rfl rfl rfl rfl rfl rfl rfl rfl rfl) fl ix hc

theorem rdk_countBoundary (d : Dev) (fuel n : Nat) (fl : Fld) (ix : Nat) (hc : clash fl ([] : List Blk) = false) : (Dev.countBoundary d fuel n).rd fl ix = d.rd fl ix :=
  Dev.rd_of_kept (fun b => List.contains ([] : List Blk) b) d _ (kept_countBoundary _ d fuel n ) fl ix hc

theorem rdk_boundary (d : Dev) (n : Nat) (fl : Fld) (ix : Nat) (hc : clash fl ([.MG, .PW, .PWV, .CF, .TG, .SN, .CL, .UD, .LN, .LNF, .LNP, .LNT, .CS, .TSU, .DM] : List Blk) = false) : (Dev.boundary d n).rd fl ix = d.rd fl ix :=
  Dev.rd_of_kept (fun b => List.contains ([.MG, .PW, .PWV, .CF, .TG, .SN, .CL, .UD, .LN, .LNF, .LNP, .LNT, .CS, .TSU, .DM] : List Blk) b) d _ (kept_boundary _ d n rfl rfl rfl rfl rfl rfl rfl rfl rfl rfl rfl rfl rfl rfl rfl) fl ix hc

theorem rdk_marker (d : Dev) (n : Nat) (fl : Fld) (ix : Nat) (hc : clash fl ([.MG, .PW, .PWV, .CF, .TG, .SN, .CL, .UD, .LN, .LNF, .LNP, .LNT, .CS, .TSU, .DM] : List Blk) = false) : (Dev.marker d n).rd fl ix = d.rd fl ix :=
  Dev.rd_of_kept (fun b => List.contains ([.MG, .PW, .PWV, .CF, .TG, .SN, .CL, .UD, .LN, .LNF, .LNP, .LNT, .CS, .TSU, .DM] : List Blk) b) d _ (kept_marker _ d n rfl rfl rfl rfl rfl rfl rfl rfl rfl rfl rfl rfl rfl rfl rfl) fl ix hc

theorem rdk_applyHeld (d : Dev) (t : Nat) (fl : Fld) (ix : Nat) (hc : clash fl ([.LN] : List Blk) = false) : (Dev.applyHeld d t).rd fl ix = d.rd fl ix :=
  Dev.rd_of_kept (fun b => List.contains ([.LN] : List Blk) b) d _ (kept_applyHeld _ d t rfl) fl ix hc

theorem rdk_laneBoundary (d : Dev) (l : Nat) (fl : Fld) (ix : Nat) (hc : clash fl ([.MG, .PW, .PWV, .CF, .TG, .SN, .CL, .UD, .LN, .LNF, .LNP, .LNT, .CS, .TSU, .DM] : List Blk) = false) : (Dev.laneBoundary d l).rd fl ix = d.rd fl ix :=
  Dev.rd_of_kept (fun b => List.contains ([.MG, .PW, .PWV, .CF, .TG, .SN, .CL, .UD, .LN, .LNF, .LNP, .LNT, .CS, .TSU, .DM] : List Blk) b) d _ (kept_laneBoundary _ d l rfl rfl rfl rfl rfl rfl rfl rfl rfl rfl rfl rfl rfl rfl rfl) fl ix hc

theorem rdk_groupSwitch (d : Dev) (g : Nat) (fl : Fld) (ix : Nat) (hc : clash fl ([.UD] : List Blk) = false) : (Dev.groupSwitch d g).rd fl ix = d.rd fl ix :=
  Dev.rd_of_kept (fun b => List.contains ([.UD] : List Blk) b) d _ (kept_groupSwitch _ d g rfl) fl ix hc

theorem rdk_publishUnit (d : Dev) (id : Nat) (fl : Fld) (ix : Nat) (hc : clash fl ([.MG, .PWV, .PWS, .CL, .UD, .LN, .LNF, .LNP, .LNT, .CS, .TSU] : List Blk) = false) : (Dev.publishUnit d id).rd fl ix = d.rd fl ix :=
  Dev.rd_of_kept (fun b => List.contains ([.MG, .PWV, .PWS, .CL, .UD, .LN, .LNF, .LNP, .LNT, .CS, .TSU] : List Blk) b) d _ (kept_publishUnit _ d id rfl rfl rfl rfl rfl rfl rfl rfl rfl rfl rfl) fl ix hc

theorem rdk_matchCheck (d : Dev)  (fl : Fld) (ix : Nat) (hc : clash fl ([.MG, .SN, .UD] : List Blk) = false) : (Dev.matchCheck d).rd fl ix = d.rd fl ix :=
  Dev.rd_of_kept (fun b => List.contains ([.MG, .SN, .UD] : List Blk) b) d _ (kept_matchCheck _ d  rfl rfl rfl) fl ix hc

theorem rdk_modEng (d : Dev) (g : EngX → EngX) (fl : Fld) (ix : Nat) (hc : clash fl ([] : List Blk) = false) : (Dev.modEng d g).rd fl ix = d.rd fl ix :=
  Dev.rd_of_kept (fun b => List.contains ([] : List Blk) b) d _ (kept_modEng _ d g ) fl ix hc

theorem rdk_modSlot (d : Dev) (k : Nat) (g : SlotX → SlotX) (fl : Fld) (ix : Nat) (hc : clash fl ([] : List Blk) = false) : (Dev.modSlot d k g).rd fl ix = d.rd fl ix :=
  Dev.rd_of_kept (fun b => List.contains ([] : List Blk) b) d _ (kept_modSlot _ d k g ) fl ix hc

theorem rdk_setEng (d : Dev) (st : Nat) (fl : Fld) (ix : Nat) (hc : clash fl ([.MG, .TS] : List Blk) = false) : (Dev.setEng d st).rd fl ix = d.rd fl ix :=
  Dev.rd_of_kept (fun b => List.contains ([.MG, .TS] : List Blk) b) d _ (kept_setEng _ d st rfl rfl) fl ix hc

theorem rdk_setRate (d : Dev) (r : Int) (fl : Fld) (ix : Nat) (hc : clash fl ([.TB] : List Blk) = false) : (Dev.setRate d r).rd fl ix = d.rd fl ix :=
  Dev.rd_of_kept (fun b => List.contains ([.TB] : List Blk) b) d _ (kept_setRate _ d r rfl) fl ix hc

theorem rdk_servo (d : Dev) (te dt : Q) (tau : Nat) (fl : Fld) (ix : Nat) (hc : clash fl ([.TB] : List Blk) = false) : (Dev.servo d te dt tau).rd fl ix = d.rd fl ix :=
  Dev.rd_of_kept (fun b => List.contains ([.TB] : List Blk) b) d _ (kept_servo _ d te dt tau rfl) fl ix hc

theorem rdk_servoStart (d : Dev)  (fl : Fld) (ix : Nat) (hc : clash fl ([] : List Blk) = false) : (Dev.servoStart d).rd fl ix = d.rd fl ix :=
  Dev.rd_of_kept (fun b => List.contains ([] : List Blk) b) d _ (kept_servoStart _ d  ) fl ix hc

theorem rdk_showTe (d : Dev) (te : Int) (fl : Fld) (ix : Nat) (hc : clash fl ([.TS] : List Blk) = false) : (Dev.showTe d te).rd fl ix = d.rd fl ix :=
  Dev.rd_of_kept (fun b => List.contains ([.TS] : List Blk) b) d _ (kept_showTe _ d te rfl) fl ix hc

theorem rdk_stepTime (d : Dev) (by_ : Int) (fl : Fld) (ix : Nat) (hc : clash fl ([.MG, .SN, .UD, .TB] : List Blk) = false) : (Dev.stepTime d by_).rd fl ix = d.rd fl ix :=
  Dev.rd_of_kept (fun b => List.contains ([.MG, .SN, .UD, .TB] : List Blk) b) d _ (kept_stepTime _ d by_ rfl rfl rfl rfl) fl ix hc

theorem rdk_engJump (d : Dev) (te : Int) (fl : Fld) (ix : Nat) (hc : clash fl ([.MG, .SN, .UD, .TB] : List Blk) = false) : (Dev.engJump d te).rd fl ix = d.rd fl ix :=
  Dev.rd_of_kept (fun b => List.contains ([.MG, .SN, .UD, .TB] : List Blk) b) d _ (kept_engJump _ d te rfl rfl rfl rfl) fl ix hc

theorem rdk_acquire (d : Dev) (r : Nat) (fl : Fld) (ix : Nat) (hc : clash fl ([.MG, .SN, .UD, .TB, .TS] : List Blk) = false) : (Dev.acquire d r).rd fl ix = d.rd fl ix :=
  Dev.rd_of_kept (fun b => List.contains ([.MG, .SN, .UD, .TB, .TS] : List Blk) b) d _ (kept_acquire _ d r rfl rfl rfl rfl rfl) fl ix hc

theorem rdk_showEnsemble (d : Dev)  (fl : Fld) (ix : Nat) (hc : clash fl ([.TS] : List Blk) = false) : (Dev.showEnsemble d).rd fl ix = d.rd fl ix :=
  Dev.rd_of_kept (fun b => List.contains ([.TS] : List Blk) b) d _ (kept_showEnsemble _ d  rfl) fl ix hc

theorem rdk_holdover (d : Dev)  (fl : Fld) (ix : Nat) (hc : clash fl ([.MG, .SN, .UD, .TB, .TS] : List Blk) = false) : (Dev.holdover d).rd fl ix = d.rd fl ix :=
  Dev.rd_of_kept (fun b => List.contains ([.MG, .SN, .UD, .TB, .TS] : List Blk) b) d _ (kept_holdover _ d  rfl rfl rfl rfl rfl) fl ix hc

theorem rdk_engRun (d : Dev) (fuel : Nat) (fl : Fld) (ix : Nat) (hc : clash fl ([.MG, .SN, .UD, .TB, .TS] : List Blk) = false) : (Dev.engRun d fuel).rd fl ix = d.rd fl ix :=
  Dev.rd_of_kept (fun b => List.contains ([.MG, .SN, .UD, .TB, .TS] : List Blk) b) d _ (kept_engRun _ d fuel rfl rfl rfl rfl rfl) fl ix hc

theorem rdk_synEval (d : Dev)  (fl : Fld) (ix : Nat) (hc : clash fl ([.TS] : List Blk) = false) : (Dev.synEval d).rd fl ix = d.rd fl ix :=
  Dev.rd_of_kept (fun b => List.contains ([.TS] : List Blk) b) d _ (kept_synEval _ d  rfl) fl ix hc

theorem rdk_engEval (d : Dev)  (fl : Fld) (ix : Nat) (hc : clash fl ([.MG, .SN, .UD, .TB, .TS] : List Blk) = false) : (Dev.engEval d).rd fl ix = d.rd fl ix :=
  Dev.rd_of_kept (fun b => List.contains ([.MG, .SN, .UD, .TB, .TS] : List Blk) b) d _ (kept_engEval _ d  rfl rfl rfl rfl rfl) fl ix hc

theorem rdk_teSample (d : Dev) (te : Int) (use : Bool) (fl : Fld) (ix : Nat) (hc : clash fl ([.TB, .TS] : List Blk) = false) : (Dev.teSample d te use).rd fl ix = d.rd fl ix :=
  Dev.rd_of_kept (fun b => List.contains ([.TB, .TS] : List Blk) b) d _ (kept_teSample _ d te use rfl rfl) fl ix hc

theorem rdk_ppsDisqualify (d : Dev)  (fl : Fld) (ix : Nat) (hc : clash fl ([.MG, .SN, .UD, .TB, .TS] : List Blk) = false) : (Dev.ppsDisqualify d).rd fl ix = d.rd fl ix :=
  Dev.rd_of_kept (fun b => List.contains ([.MG, .SN, .UD, .TB, .TS] : List Blk) b) d _ (kept_ppsDisqualify _ d  rfl rfl rfl rfl rfl) fl ix hc

theorem rdk_ppsPulse (d : Dev) (interp : Nat) (fl : Fld) (ix : Nat) (hc : clash fl ([.MG, .SN, .UD, .TB, .TS] : List Blk) = false) : (Dev.ppsPulse d interp).rd fl ix = d.rd fl ix :=
  Dev.rd_of_kept (fun b => List.contains ([.MG, .SN, .UD, .TB, .TS] : List Blk) b) d _ (kept_ppsPulse _ d interp rfl rfl rfl rfl rfl) fl ix hc

theorem rdk_ppsMessage (d : Dev) (m : TimeMessage) (fl : Fld) (ix : Nat) (hc : clash fl ([.MG, .SN, .UD, .TB, .TS] : List Blk) = false) : (Dev.ppsMessage d m).rd fl ix = d.rd fl ix :=
  Dev.rd_of_kept (fun b => List.contains ([.MG, .SN, .UD, .TB, .TS] : List Blk) b) d _ (kept_ppsMessage _ d m rfl rfl rfl rfl rfl) fl ix hc

theorem rdk_ptpDisqualify (d : Dev)  (fl : Fld) (ix : Nat) (hc : clash fl ([.MG, .SN, .UD, .TB, .TS] : List Blk) = false) : (Dev.ptpDisqualify d).rd fl ix = d.rd fl ix :=
  Dev.rd_of_kept (fun b => List.contains ([.MG, .SN, .UD, .TB, .TS] : List Blk) b) d _ (kept_ptpDisqualify _ d  rfl rfl rfl rfl rfl) fl ix hc

theorem rdk_leaveGroup (d : Dev) (k : Nat) (fl : Fld) (ix : Nat) (hc : clash fl ([] : List Blk) = false) : (Dev.leaveGroup d k).rd fl ix = d.rd fl ix :=
  Dev.rd_of_kept (fun b => List.contains ([] : List Blk) b) d _ (kept_leaveGroup _ d k ) fl ix hc

theorem rdk_slotDisqualify (d : Dev) (k : Nat) (fl : Fld) (ix : Nat) (hc : clash fl ([.TS] : List Blk) = false) : (Dev.slotDisqualify d k).rd fl ix = d.rd fl ix :=
  Dev.rd_of_kept (fun b => List.contains ([.TS] : List Blk) b) d _ (kept_slotDisqualify _ d k rfl) fl ix hc

theorem rdk_slotEval (d : Dev) (k : Nat) (fl : Fld) (ix : Nat) (hc : clash fl ([.TS] : List Blk) = false) : (Dev.slotEval d k).rd fl ix = d.rd fl ix :=
  Dev.rd_of_kept (fun b => List.contains ([.TS] : List Blk) b) d _ (kept_slotEval _ d k rfl) fl ix hc

theorem rdk_slotsEval (d : Dev)  (fl : Fld) (ix : Nat) (hc : clash fl ([.MG, .SN, .UD, .TB, .TS] : List Blk) = false) : (Dev.slotsEval d).rd fl ix = d.rd fl ix :=
  Dev.rd_of_kept (fun b => List.contains ([.MG, .SN, .UD, .TB, .TS] : List Blk) b) d _ (kept_slotsEval _ d  rfl rfl rfl rfl rfl) fl ix hc

theorem rdk_slotsFollow (d : Dev)  (fl : Fld) (ix : Nat) (hc : clash fl ([.MG, .SN, .UD, .TB, .TS] : List Blk) = false) : (Dev.slotsFollow d).rd fl ix = d.rd fl ix :=
  Dev.rd_of_kept (fun b => List.contains ([.MG, .SN, .UD, .TB, .TS] : List Blk) b) d _ (kept_slotsFollow _ d  rfl rfl rfl rfl rfl) fl ix hc

theorem rdk_learnGroup (d : Dev) (slots : List Nat) (fl : Fld) (ix : Nat) (hc : clash fl ([.TS] : List Blk) = false) : (Dev.learnGroup d slots).rd fl ix = d.rd fl ix :=
  Dev.rd_of_kept (fun b => List.contains ([.TS] : List Blk) b) d _ (kept_learnGroup _ d slots rfl) fl ix hc

theorem rdk_regroup (d : Dev)  (fl : Fld) (ix : Nat) (hc : clash fl ([.TS] : List Blk) = false) : (Dev.regroup d).rd fl ix = d.rd fl ix :=
  Dev.rd_of_kept (fun b => List.contains ([.TS] : List Blk) b) d _ (kept_regroup _ d  rfl) fl ix hc

theorem rdk_secondEnd (d : Dev)  (fl : Fld) (ix : Nat) (hc : clash fl ([.TB] : List Blk) = false) : (Dev.secondEnd d).rd fl ix = d.rd fl ix :=
  Dev.rd_of_kept (fun b => List.contains ([.TB] : List Blk) b) d _ (kept_secondEnd _ d  rfl) fl ix hc

theorem rdk_modMt (d : Dev) (g : MtX → MtX) (fl : Fld) (ix : Nat) (hc : clash fl ([] : List Blk) = false) : (Dev.modMt d g).rd fl ix = d.rd fl ix :=
  Dev.rd_of_kept (fun b => List.contains ([] : List Blk) b) d _ (kept_modMt _ d g ) fl ix hc

theorem rdk_poisonEvent (d : Dev) (port master dir src : Nat) (addr : Option Nat) (fl : Fld) (ix : Nat) (hc : clash fl ([.MG, .SN, .UD, .MT] : List Blk) = false) : (Dev.poisonEvent d port master dir src addr).rd fl ix = d.rd fl ix :=
  Dev.rd_of_kept (fun b => List.contains ([.MG, .SN, .UD, .MT] : List Blk) b) d _ (kept_poisonEvent _ d port master dir src addr rfl rfl rfl rfl) fl ix hc

theorem rdk_keepError (d : Dev) (w synd : Nat) (fl : Fld) (ix : Nat) (hc : clash fl ([] : List Blk) = false) : (Dev.keepError d w synd).rd fl ix = d.rd fl ix :=
  Dev.rd_of_kept (fun b => List.contains ([] : List Blk) b) d _ (kept_keepError _ d w synd ) fl ix hc

theorem rdk_uncorrectable (d : Dev) (w master port synd : Nat) (write : Bool) (fl : Fld) (ix : Nat) (hc : clash fl ([.MG, .SN, .UD, .MT] : List Blk) = false) : (Dev.uncorrectable d w master port synd write).rd fl ix = d.rd fl ix :=
  Dev.rd_of_kept (fun b => List.contains ([.MG, .SN, .UD, .MT] : List Blk) b) d _ (kept_uncorrectable _ d w master port synd write rfl rfl rfl rfl) fl ix hc

theorem rdk_collide (d : Dev) (o : Op) (others : List Op) (fl : Fld) (ix : Nat) (hc : clash fl ([.MG, .MT] : List Blk) = false) : (Dev.collide d o others).rd fl ix = d.rd fl ix :=
  Dev.rd_of_kept (fun b => List.contains ([.MG, .MT] : List Blk) b) d _ (kept_collide _ d o others rfl rfl) fl ix hc

theorem rdk_showOps (d : Dev) (master : Nat) (fl : Fld) (ix : Nat) (hc : clash fl ([.FB, .MT] : List Blk) = false) : (Dev.showOps d master).rd fl ix = d.rd fl ix :=
  Dev.rd_of_kept (fun b => List.contains ([.FB, .MT] : List Blk) b) d _ (kept_showOps _ d master rfl rfl) fl ix hc

theorem rdk_countDenial (d : Dev) (o : Op) (fl : Fld) (ix : Nat) (hc : clash fl ([.FB, .MT] : List Blk) = false) : (Dev.countDenial d o).rd fl ix = d.rd fl ix :=
  Dev.rd_of_kept (fun b => List.contains ([.FB, .MT] : List Blk) b) d _ (kept_countDenial _ d o rfl rfl) fl ix hc

theorem rdk_arrive (d : Dev) (o : Op) (fl : Fld) (ix : Nat) (hc : clash fl ([.MG, .MT] : List Blk) = false) : (Dev.arrive d o).rd fl ix = d.rd fl ix :=
  Dev.rd_of_kept (fun b => List.contains ([.MG, .MT] : List Blk) b) d _ (kept_arrive _ d o rfl rfl) fl ix hc

theorem rdk_issue (d : Dev) (o : Op) (fl : Fld) (ix : Nat) (hc : clash fl ([.MG, .FB, .MT] : List Blk) = false) : (Dev.issue d o).rd fl ix = d.rd fl ix :=
  Dev.rd_of_kept (fun b => List.contains ([.MG, .FB, .MT] : List Blk) b) d _ (kept_issue _ d o rfl rfl rfl) fl ix hc

theorem rdk_request_ (d : Dev) (o : Op) (fl : Fld) (ix : Nat) (hc : clash fl ([.MG, .FB, .MT] : List Blk) = false) : (Dev.request_ d o).rd fl ix = d.rd fl ix :=
  Dev.rd_of_kept (fun b => List.contains ([.MG, .FB, .MT] : List Blk) b) d _ (kept_request_ _ d o rfl rfl rfl) fl ix hc

theorem rdk_admitWaiting (d : Dev)  (fl : Fld) (ix : Nat) (hc : clash fl ([.MG, .FB, .MT] : List Blk) = false) : (Dev.admitWaiting d).rd fl ix = d.rd fl ix :=
  Dev.rd_of_kept (fun b => List.contains ([.MG, .FB, .MT] : List Blk) b) d _ (kept_admitWaiting _ d  rfl rfl rfl) fl ix hc

theorem rdk_mbTouch (d : Dev) (o : Op) (fl : Fld) (ix : Nat) (hc : clash fl ([] : List Blk) = false) : (Dev.mbTouch d o).rd fl ix = d.rd fl ix :=
  Dev.rd_of_kept (fun b => List.contains ([] : List Blk) b) d _ (kept_mbTouch _ d o ) fl ix hc

theorem rdk_windowStatus (d : Dev) (st : Nat) (fl : Fld) (ix : Nat) (hc : clash fl ([.MT] : List Blk) = false) : (Dev.windowStatus d st).rd fl ix = d.rd fl ix :=
  Dev.rd_of_kept (fun b => List.contains ([.MT] : List Blk) b) d _ (kept_windowStatus _ d st rfl) fl ix hc

theorem rdk_windowDone (d : Dev) (o : Op) (beats : List (Nat × List Byte)) (fl : Fld) (ix : Nat) (hc : clash fl ([.MT] : List Blk) = false) : (Dev.windowDone d o beats).rd fl ix = d.rd fl ix :=
  Dev.rd_of_kept (fun b => List.contains ([.MT] : List Blk) b) d _ (kept_windowDone _ d o beats rfl) fl ix hc

theorem rdk_modFb (d : Dev) (r : Nat) (g : FbX → FbX) (fl : Fld) (ix : Nat) (hc : clash fl ([] : List Blk) = false) : (Dev.modFb d r g).rd fl ix = d.rd fl ix :=
  Dev.rd_of_kept (fun b => List.contains ([] : List Blk) b) d _ (kept_modFb _ d r g ) fl ix hc

theorem rdk_modGut (d : Dev) (l : Nat) (g : GutX → GutX) (fl : Fld) (ix : Nat) (hc : clash fl ([] : List Blk) = false) : (Dev.modGut d l g).rd fl ix = d.rd fl ix :=
  Dev.rd_of_kept (fun b => List.contains ([] : List Blk) b) d _ (kept_modGut _ d l g ) fl ix hc

theorem rdk_showLimit (d : Dev) (r : Nat) (fl : Fld) (ix : Nat) (hc : clash fl ([.FB] : List Blk) = false) : (Dev.showLimit d r).rd fl ix = d.rd fl ix :=
  Dev.rd_of_kept (fun b => List.contains ([.FB] : List Blk) b) d _ (kept_showLimit _ d r rfl) fl ix hc

theorem rdk_voltStep (d : Dev) (row : Nat) (fl : Fld) (ix : Nat) (hc : clash fl ([.PWV, .FB] : List Blk) = false) : (Dev.voltStep d row).rd fl ix = d.rd fl ix :=
  Dev.rd_of_kept (fun b => List.contains ([.PWV, .FB] : List Blk) b) d _ (kept_voltStep _ d row rfl rfl) fl ix hc

theorem rdk_pwDomWrite (d : Dev) (row w : Nat) (fl : Fld) (ix : Nat) (hc : clash fl ([.PWV, .FB] : List Blk) = false) : (Dev.pwDomWrite d row w).rd fl ix = d.rd fl ix :=
  Dev.rd_of_kept (fun b => List.contains ([.PWV, .FB] : List Blk) b) d _ (kept_pwDomWrite _ d row w rfl rfl) fl ix hc

theorem rdk_voltSettled (d : Dev) (row : Nat) (fl : Fld) (ix : Nat) (hc : clash fl ([.MG, .PWV, .CL, .UD, .LN, .LNF, .LNP, .LNT, .CS, .TSU, .FB] : List Blk) = false) : (Dev.voltSettled d row).rd fl ix = d.rd fl ix :=
  Dev.rd_of_kept (fun b => List.contains ([.MG, .PWV, .CL, .UD, .LN, .LNF, .LNP, .LNT, .CS, .TSU, .FB] : List Blk) b) d _ (kept_voltSettled _ d row rfl rfl rfl rfl rfl rfl rfl rfl rfl rfl rfl) fl ix hc

theorem rdk_fbPaceWrite (d : Dev) (r w : Nat) (fl : Fld) (ix : Nat) (hc : clash fl ([.PWV, .FB] : List Blk) = false) : (Dev.fbPaceWrite d r w).rd fl ix = d.rd fl ix :=
  Dev.rd_of_kept (fun b => List.contains ([.PWV, .FB] : List Blk) b) d _ (kept_fbPaceWrite _ d r w rfl rfl) fl ix hc

theorem rdk_regionRefresh (d : Dev) (r : Nat) (fl : Fld) (ix : Nat) (hc : clash fl ([.UD] : List Blk) = false) : (Dev.regionRefresh d r).rd fl ix = d.rd fl ix :=
  Dev.rd_of_kept (fun b => List.contains ([.UD] : List Blk) b) d _ (kept_regionRefresh _ d r rfl) fl ix hc

theorem rdk_lbEnd (d : Dev) (r result sig count : Nat) (fl : Fld) (ix : Nat) (hc : clash fl ([.MG, .PWV, .SN, .ST, .UD] : List Blk) = false) : (Dev.lbEnd d r result sig count).rd fl ix = d.rd fl ix :=
  Dev.rd_of_kept (fun b => List.contains ([.MG, .PWV, .SN, .ST, .UD] : List Blk) b) d _ (kept_lbEnd _ d r result sig count rfl rfl rfl rfl rfl) fl ix hc

theorem rdk_lbAbort (d : Dev) (r : Nat) (fl : Fld) (ix : Nat) (hc : clash fl ([.MG, .PWV, .SN, .ST, .UD] : List Blk) = false) : (Dev.lbAbort d r).rd fl ix = d.rd fl ix :=
  Dev.rd_of_kept (fun b => List.contains ([.MG, .PWV, .SN, .ST, .UD] : List Blk) b) d _ (kept_lbAbort _ d r rfl rfl rfl rfl rfl) fl ix hc

theorem rdk_ctxRefresh (d : Dev) (r : Nat) (c : Ctx) (fl : Fld) (ix : Nat) (hc : clash fl ([.UD] : List Blk) = false) : (Dev.ctxRefresh d r c).rd fl ix = d.rd fl ix :=
  Dev.rd_of_kept (fun b => List.contains ([.UD] : List Blk) b) d _ (kept_ctxRefresh _ d r c rfl) fl ix hc

theorem rdk_slotRefresh (d : Dev) (r k : Nat) (fl : Fld) (ix : Nat) (hc : clash fl ([.UD] : List Blk) = false) : (Dev.slotRefresh d r k).rd fl ix = d.rd fl ix :=
  Dev.rd_of_kept (fun b => List.contains ([.UD] : List Blk) b) d _ (kept_slotRefresh _ d r k rfl) fl ix hc

theorem rdk_purlinVote (d : Dev)  (fl : Fld) (ix : Nat) (hc : clash fl ([.PWV] : List Blk) = false) : (Dev.purlinVote d).rd fl ix = d.rd fl ix :=
  Dev.rd_of_kept (fun b => List.contains ([.PWV] : List Blk) b) d _ (kept_purlinVote _ d  rfl) fl ix hc

theorem rdk_setSel (d : Dev) (r : Nat) (s : Option SelX) (fl : Fld) (ix : Nat) (hc : clash fl ([.FB] : List Blk) = false) : (Dev.setSel d r s).rd fl ix = d.rd fl ix :=
  Dev.rd_of_kept (fun b => List.contains ([.FB] : List Blk) b) d _ (kept_setSel _ d r s rfl) fl ix hc

theorem rdk_selStart (d : Dev) (r : Nat) (fl : Fld) (ix : Nat) (hc : clash fl ([.PWV, .UD, .FB] : List Blk) = false) : (Dev.selStart d r).rd fl ix = d.rd fl ix :=
  Dev.rd_of_kept (fun b => List.contains ([.PWV, .UD, .FB] : List Blk) b) d _ (kept_selStart _ d r rfl rfl rfl) fl ix hc

theorem rdk_select (d : Dev) (r : Nat) (c : Ctx) (course : Option (Nat × Nat)) (self : Bool) (fl : Fld) (ix : Nat) (hc : clash fl ([.MG, .PWV, .SN, .ST, .UD, .FB] : List Blk) = false) : (Dev.select d r c course self).rd fl ix = d.rd fl ix :=
  Dev.rd_of_kept (fun b => List.contains ([.MG, .PWV, .SN, .ST, .UD, .FB] : List Blk) b) d _ (kept_select _ d r c course self rfl rfl rfl rfl rfl rfl) fl ix hc

theorem rdk_runSlot (d : Dev) (r k : Nat) (work : Nat) (fl : Fld) (ix : Nat) (hc : clash fl ([.UD, .FB] : List Blk) = false) : (Dev.runSlot d r k work).rd fl ix = d.rd fl ix :=
  Dev.rd_of_kept (fun b => List.contains ([.UD, .FB] : List Blk) b) d _ (kept_runSlot _ d r k work rfl rfl) fl ix hc

theorem rdk_contextSwitch (d : Dev) (r : Nat) (fl : Fld) (ix : Nat) (hc : clash fl ([.MG, .PWV, .SN, .ST, .UD, .FB] : List Blk) = false) : (Dev.contextSwitch d r).rd fl ix = d.rd fl ix :=
  Dev.rd_of_kept (fun b => List.contains ([.MG, .PWV, .SN, .ST, .UD, .FB] : List Blk) b) d _ (kept_contextSwitch _ d r rfl rfl rfl rfl rfl rfl) fl ix hc

theorem rdk_pageInDone (d : Dev) (r : Nat) (ok : Bool) (fl : Fld) (ix : Nat) (hc : clash fl ([.MG, .PWV, .CF, .UD, .FB, .MT] : List Blk) = false) : (Dev.pageInDone d r ok).rd fl ix = d.rd fl ix :=
  Dev.rd_of_kept (fun b => List.contains ([.MG, .PWV, .CF, .UD, .FB, .MT] : List Blk) b) d _ (kept_pageInDone _ d r ok rfl rfl rfl rfl rfl rfl) fl ix hc

theorem rdk_reloadContext (d : Dev) (r : Nat) (fl : Fld) (ix : Nat) (hc : clash fl ([.MG, .PWV, .SN, .ST, .UD, .FB] : List Blk) = false) : (Dev.reloadContext d r).rd fl ix = d.rd fl ix :=
  Dev.rd_of_kept (fun b => List.contains ([.MG, .PWV, .SN, .ST, .UD, .FB] : List Blk) b) d _ (kept_reloadContext _ d r rfl rfl rfl rfl rfl rfl) fl ix hc

theorem rdk_switchBefore (d : Dev) (l : Nat) (fl : Fld) (ix : Nat) (hc : clash fl ([.MG, .PWV, .SN, .ST, .UD, .FB] : List Blk) = false) : (Dev.switchBefore d l).rd fl ix = d.rd fl ix :=
  Dev.rd_of_kept (fun b => List.contains ([.MG, .PWV, .SN, .ST, .UD, .FB] : List Blk) b) d _ (kept_switchBefore _ d l rfl rfl rfl rfl rfl rfl) fl ix hc

theorem rdk_gutterTake (d : Dev) (l n : Nat) (fl : Fld) (ix : Nat) (hc : clash fl ([.MG, .PWV, .SN, .ST, .UD, .FB] : List Blk) = false) : (Dev.gutterTake d l n).rd fl ix = d.rd fl ix :=
  Dev.rd_of_kept (fun b => List.contains ([.MG, .PWV, .SN, .ST, .UD, .FB] : List Blk) b) d _ (kept_gutterTake _ d l n rfl rfl rfl rfl rfl rfl) fl ix hc

theorem rdk_gutterIn (d : Dev) (l : Nat) (w : GutterWord) (fl : Fld) (ix : Nat) (hc : clash fl ([.FB] : List Blk) = false) : (Dev.gutterIn d l w).rd fl ix = d.rd fl ix :=
  Dev.rd_of_kept (fun b => List.contains ([.FB] : List Blk) b) d _ (kept_gutterIn _ d l w rfl) fl ix hc

theorem rdk_gutterOut (d : Dev) (l : Nat) (w : GutterWord) (fl : Fld) (ix : Nat) (hc : clash fl ([] : List Blk) = false) : (Dev.gutterOut d l w).rd fl ix = d.rd fl ix :=
  Dev.rd_of_kept (fun b => List.contains ([] : List Blk) b) d _ (kept_gutterOut _ d l w ) fl ix hc

theorem rdk_shellTake (d : Dev) (l : Nat) (fl : Fld) (ix : Nat) (hc : clash fl ([] : List Blk) = false) : (Dev.shellTake d l).rd fl ix = d.rd fl ix :=
  Dev.rd_of_kept (fun b => List.contains ([] : List Blk) b) d _ (kept_shellTake _ d l ) fl ix hc

theorem rdk_tickGutter (d : Dev) (l : Nat) (fl : Fld) (ix : Nat) (hc : clash fl ([] : List Blk) = false) : (Dev.tickGutter d l).rd fl ix = d.rd fl ix :=
  Dev.rd_of_kept (fun b => List.contains ([] : List Blk) b) d _ (kept_tickGutter _ d l ) fl ix hc

theorem rdk_tickGutters (d : Dev)  (fl : Fld) (ix : Nat) (hc : clash fl ([] : List Blk) = false) : (Dev.tickGutters d).rd fl ix = d.rd fl ix :=
  Dev.rd_of_kept (fun b => List.contains ([] : List Blk) b) d _ (kept_tickGutters _ d  ) fl ix hc

theorem rdk_gutterUnderrun (d : Dev) (l : Nat) (between : Bool) (fl : Fld) (ix : Nat) (hc : clash fl ([.FB] : List Blk) = false) : (Dev.gutterUnderrun d l between).rd fl ix = d.rd fl ix :=
  Dev.rd_of_kept (fun b => List.contains ([.FB] : List Blk) b) d _ (kept_gutterUnderrun _ d l between rfl) fl ix hc

theorem rdk_sparRequest (d : Dev) (p : SparPort) (tag kind addr : Nat) (beats : List (Nat × Nat)) (fl : Fld) (ix : Nat) (hc : clash fl ([.MG, .FB, .MT] : List Blk) = false) : (Dev.sparRequest d p tag kind addr beats).rd fl ix = d.rd fl ix :=
  Dev.rd_of_kept (fun b => List.contains ([.MG, .FB, .MT] : List Blk) b) d _ (kept_sparRequest _ d p tag kind addr beats rfl rfl rfl) fl ix hc

theorem rdk_givePlace (d : Dev)  (fl : Fld) (ix : Nat) (hc : clash fl ([.MG, .FB, .MT] : List Blk) = false) : (Dev.givePlace d).rd fl ix = d.rd fl ix :=
  Dev.rd_of_kept (fun b => List.contains ([.MG, .FB, .MT] : List Blk) b) d _ (kept_givePlace _ d  rfl rfl rfl) fl ix hc

theorem rdk_markOp (d : Dev) (p : SparPort) (tag : Nat) (g : Op → Op) (fl : Fld) (ix : Nat) (hc : clash fl ([] : List Blk) = false) : (Dev.markOp d p tag g).rd fl ix = d.rd fl ix :=
  Dev.rd_of_kept (fun b => List.contains ([] : List Blk) b) d _ (kept_markOp _ d p tag g ) fl ix hc

theorem rdk_guardHold (d : Dev) (b : GuardedBlock) (on : Bool) (fl : Fld) (ix : Nat) (hc : clash fl ([.MG, .PW, .PWV, .CF, .TG, .SN, .UD, .DM] : List Blk) = false) : (Dev.guardHold d b on).rd fl ix = d.rd fl ix :=
  Dev.rd_of_kept (fun b => List.contains ([.MG, .PW, .PWV, .CF, .TG, .SN, .UD, .DM] : List Blk) b) d _ (kept_guardHold _ d b on rfl rfl rfl rfl rfl rfl rfl rfl) fl ix hc

theorem rdk_guardAccept (d : Dev) (b : GuardedBlock) (fl : Fld) (ix : Nat) (hc : clash fl ([.MG, .PW, .PWV, .CF, .TG, .SN, .UD, .FB, .DM] : List Blk) = false) : (Dev.guardAccept d b).rd fl ix = d.rd fl ix :=
  Dev.rd_of_kept (fun b => List.contains ([.MG, .PW, .PWV, .CF, .TG, .SN, .UD, .FB, .DM] : List Blk) b) d _ (kept_guardAccept _ d b rfl rfl rfl rfl rfl rfl rfl rfl rfl) fl ix hc

theorem rdk_guardPoison (d : Dev) (b : GuardedBlock) (fl : Fld) (ix : Nat) (hc : clash fl ([.MG, .PW, .PWV, .CF, .TG, .SN, .UD, .TS, .FB, .MT, .DM] : List Blk) = false) : (Dev.guardPoison d b).rd fl ix = d.rd fl ix :=
  Dev.rd_of_kept (fun b => List.contains ([.MG, .PW, .PWV, .CF, .TG, .SN, .UD, .TS, .FB, .MT, .DM] : List Blk) b) d _ (kept_guardPoison _ d b rfl rfl rfl rfl rfl rfl rfl rfl rfl rfl rfl) fl ix hc

theorem rdk_guardFail (d : Dev) (b : GuardedBlock) (n : Nat) (fl : Fld) (ix : Nat) (hc : clash fl ([.MG, .PW, .PWV, .CF, .TG, .SN, .UD, .TS, .FB, .MT, .DM] : List Blk) = false) : (Dev.guardFail d b n).rd fl ix = d.rd fl ix :=
  Dev.rd_of_kept (fun b => List.contains ([.MG, .PW, .PWV, .CF, .TG, .SN, .UD, .TS, .FB, .MT, .DM] : List Blk) b) d _ (kept_guardFail _ d b n rfl rfl rfl rfl rfl rfl rfl rfl rfl rfl rfl) fl ix hc

theorem rdk_modMb (d : Dev) (g : MbX → MbX) (fl : Fld) (ix : Nat) (hc : clash fl ([] : List Blk) = false) : (Dev.modMb d g).rd fl ix = d.rd fl ix :=
  Dev.rd_of_kept (fun b => List.contains ([] : List Blk) b) d _ (kept_modMb _ d g ) fl ix hc

theorem rdk_mbPass (d : Dev)  (fl : Fld) (ix : Nat) (hc : clash fl ([.ST] : List Blk) = false) : (Dev.mbPass d).rd fl ix = d.rd fl ix :=
  Dev.rd_of_kept (fun b => List.contains ([.ST] : List Blk) b) d _ (kept_mbPass _ d  rfl) fl ix hc

theorem rdk_mbDone (d : Dev) (result : Nat) (fl : Fld) (ix : Nat) (hc : clash fl ([.MG, .PWV, .ST] : List Blk) = false) : (Dev.mbDone d result).rd fl ix = d.rd fl ix :=
  Dev.rd_of_kept (fun b => List.contains ([.MG, .PWV, .ST] : List Blk) b) d _ (kept_mbDone _ d result rfl rfl rfl) fl ix hc

theorem rdk_mbPassEnd (d : Dev)  (fl : Fld) (ix : Nat) (hc : clash fl ([.MG, .PWV, .ST] : List Blk) = false) : (Dev.mbPassEnd d).rd fl ix = d.rd fl ix :=
  Dev.rd_of_kept (fun b => List.contains ([.MG, .PWV, .ST] : List Blk) b) d _ (kept_mbPassEnd _ d  rfl rfl rfl) fl ix hc

theorem rdk_mbStart (d : Dev)  (fl : Fld) (ix : Nat) (hc : clash fl ([.PWV, .ST] : List Blk) = false) : (Dev.mbStart d).rd fl ix = d.rd fl ix :=
  Dev.rd_of_kept (fun b => List.contains ([.PWV, .ST] : List Blk) b) d _ (kept_mbStart _ d  rfl rfl) fl ix hc

theorem rdk_mbStop (d : Dev)  (fl : Fld) (ix : Nat) (hc : clash fl ([.MG, .PWV, .ST] : List Blk) = false) : (Dev.mbStop d).rd fl ix = d.rd fl ix :=
  Dev.rd_of_kept (fun b => List.contains ([.MG, .PWV, .ST] : List Blk) b) d _ (kept_mbStop _ d  rfl rfl rfl) fl ix hc

theorem rdk_mbFails (d : Dev) (b : Nat) (fails : List BitFail) (fl : Fld) (ix : Nat) (hc : clash fl ([.MG, .SN, .ST, .UD] : List Blk) = false) : (Dev.mbFails d b fails).rd fl ix = d.rd fl ix :=
  Dev.rd_of_kept (fun b => List.contains ([.MG, .SN, .ST, .UD] : List Blk) b) d _ (kept_mbFails _ d b fails rfl rfl rfl rfl) fl ix hc

theorem rdk_mbYield (d : Dev) (b : Nat) (fl : Fld) (ix : Nat) (hc : clash fl ([.ST] : List Blk) = false) : (Dev.mbYield d b).rd fl ix = d.rd fl ix :=
  Dev.rd_of_kept (fun b => List.contains ([.ST] : List Blk) b) d _ (kept_mbYield _ d b rfl) fl ix hc

theorem rdk_showSpares (d : Dev) (bank : Nat) (fl : Fld) (ix : Nat) (hc : clash fl ([.ST] : List Blk) = false) : (Dev.showSpares d bank).rd fl ix = d.rd fl ix :=
  Dev.rd_of_kept (fun b => List.contains ([.ST] : List Blk) b) d _ (kept_showSpares _ d bank rfl) fl ix hc

theorem rdk_repairApply (d : Dev) (bank : Nat) (column : Bool) (index : Nat) (fl : Fld) (ix : Nat) (hc : clash fl ([.ST] : List Blk) = false) : (Dev.repairApply d bank column index).rd fl ix = d.rd fl ix :=
  Dev.rd_of_kept (fun b => List.contains ([.ST] : List Blk) b) d _ (kept_repairApply _ d bank column index rfl) fl ix hc

theorem rdk_lbStart (d : Dev) (r npat : Nat) (fl : Fld) (ix : Nat) (hc : clash fl ([.PWV, .ST, .UD] : List Blk) = false) : (Dev.lbStart d r npat).rd fl ix = d.rd fl ix :=
  Dev.rd_of_kept (fun b => List.contains ([.PWV, .ST, .UD] : List Blk) b) d _ (kept_lbStart _ d r npat rfl rfl rfl) fl ix hc

theorem rdk_lbStop (d : Dev)  (fl : Fld) (ix : Nat) (hc : clash fl ([.MG, .PWV, .SN, .ST, .UD] : List Blk) = false) : (Dev.lbStop d).rd fl ix = d.rd fl ix :=
  Dev.rd_of_kept (fun b => List.contains ([.MG, .PWV, .SN, .ST, .UD] : List Blk) b) d _ (kept_lbStop _ d  rfl rfl rfl rfl rfl) fl ix hc

theorem rdk_lbFinish (d : Dev) (sig count : Nat) (fl : Fld) (ix : Nat) (hc : clash fl ([.MG, .PWV, .SN, .ST, .UD] : List Blk) = false) : (Dev.lbFinish d sig count).rd fl ix = d.rd fl ix :=
  Dev.rd_of_kept (fun b => List.contains ([.MG, .PWV, .SN, .ST, .UD] : List Blk) b) d _ (kept_lbFinish _ d sig count rfl rfl rfl rfl rfl) fl ix hc

theorem rdk_ptStart (d : Dev) (l : Nat) (fl : Fld) (ix : Nat) (hc : clash fl ([.MG, .PWV, .UD, .LN, .LNT, .CS] : List Blk) = false) : (Dev.ptStart d l).rd fl ix = d.rd fl ix :=
  Dev.rd_of_kept (fun b => List.contains ([.MG, .PWV, .UD, .LN, .LNT, .CS] : List Blk) b) d _ (kept_ptStart _ d l rfl rfl rfl rfl rfl rfl) fl ix hc

theorem rdk_writePtCtl (d : Dev) (l w : Nat) (fl : Fld) (ix : Nat) (hc : clash fl ([.MG, .PWV, .UD, .LN, .LNT, .CS] : List Blk) = false) : (Dev.writePtCtl d l w).rd fl ix = d.rd fl ix :=
  Dev.rd_of_kept (fun b => List.contains ([.MG, .PWV, .UD, .LN, .LNT, .CS] : List Blk) b) d _ (kept_writePtCtl _ d l w rfl rfl rfl rfl rfl rfl) fl ix hc

theorem rdk_checkEvent (d : Dev) (l : Nat) (ev : CheckEvent) (fl : Fld) (ix : Nat) (hc : clash fl ([.MG, .SN, .UD, .LNT] : List Blk) = false) : (Dev.checkEvent d l ev).rd fl ix = d.rd fl ix :=
  Dev.rd_of_kept (fun b => List.contains ([.MG, .SN, .UD, .LNT] : List Blk) b) d _ (kept_checkEvent _ d l ev rfl rfl rfl rfl) fl ix hc

theorem rdk_lnReject (d : Dev) (l : Nat) (fl : Fld) (ix : Nat) (hc : clash fl ([.LN] : List Blk) = false) : (Dev.lnReject d l).rd fl ix = d.rd fl ix :=
  Dev.rd_of_kept (fun b => List.contains ([.LN] : List Blk) b) d _ (kept_lnReject _ d l rfl) fl ix hc

theorem rdk_writeLnCtl (d : Dev) (l w : Nat) (fl : Fld) (ix : Nat) (hc : clash fl ([.LN] : List Blk) = false) : (Dev.writeLnCtl d l w).rd fl ix = d.rd fl ix :=
  Dev.rd_of_kept (fun b => List.contains ([.LN] : List Blk) b) d _ (kept_writeLnCtl _ d l w rfl) fl ix hc

theorem rdk_writeTxFfe (d : Dev) (l w : Nat) (fl : Fld) (ix : Nat) (hc : clash fl ([.LN] : List Blk) = false) : (Dev.writeTxFfe d l w).rd fl ix = d.rd fl ix :=
  Dev.rd_of_kept (fun b => List.contains ([.LN] : List Blk) b) d _ (kept_writeTxFfe _ d l w rfl) fl ix hc

theorem rdk_writeRxEq (d : Dev) (l w : Nat) (fl : Fld) (ix : Nat) (hc : clash fl ([.LN] : List Blk) = false) : (Dev.writeRxEq d l w).rd fl ix = d.rd fl ix :=
  Dev.rd_of_kept (fun b => List.contains ([.LN] : List Blk) b) d _ (kept_writeRxEq _ d l w rfl) fl ix hc

theorem rdk_writeRxDfe (d : Dev) (l j w : Nat) (fl : Fld) (ix : Nat) (hc : clash fl ([.LN] : List Blk) = false) : (Dev.writeRxDfe d l j w).rd fl ix = d.rd fl ix :=
  Dev.rd_of_kept (fun b => List.contains ([.LN] : List Blk) b) d _ (kept_writeRxDfe _ d l j w rfl) fl ix hc

theorem rdk_writeRxFfe (d : Dev) (l w : Nat) (fl : Fld) (ix : Nat) (hc : clash fl ([.LN] : List Blk) = false) : (Dev.writeRxFfe d l w).rd fl ix = d.rd fl ix :=
  Dev.rd_of_kept (fun b => List.contains ([.LN] : List Blk) b) d _ (kept_writeRxFfe _ d l w rfl) fl ix hc

theorem rdk_pllLost (d : Dev) (p : Nat) (code : Nat) (fl : Fld) (ix : Nat) (hc : clash fl ([.MG, .PWV, .CL, .UD, .LN, .LNF, .LNP, .CS, .TSU] : List Blk) = false) : (Dev.pllLost d p code).rd fl ix = d.rd fl ix :=
  Dev.rd_of_kept (fun b => List.contains ([.MG, .PWV, .CL, .UD, .LN, .LNF, .LNP, .CS, .TSU] : List Blk) b) d _ (kept_pllLost _ d p code rfl rfl rfl rfl rfl rfl rfl rfl rfl) fl ix hc

theorem rdk_bareCourse (d : Dev) (p n : Nat) (tps : List Nat) (fl : Fld) (ix : Nat) (hc : clash fl ([.MG, .PWV, .CL, .UD, .LN, .LNF, .LNP, .LNT, .CS, .TSU] : List Blk) = false) : (Dev.bareCourse d p n tps).rd fl ix = d.rd fl ix :=
  Dev.rd_of_kept (fun b => List.contains ([.MG, .PWV, .CL, .UD, .LN, .LNF, .LNP, .LNT, .CS, .TSU] : List Blk) b) d _ (kept_bareCourse _ d p n tps rfl rfl rfl rfl rfl rfl rfl rfl rfl rfl) fl ix hc

theorem rdk_bareBay (d : Dev) (bay : Nat) (fl : Fld) (ix : Nat) (hc : clash fl ([.MG, .PWV, .CL, .UD, .LN, .LNF, .LNP, .LNT, .CS, .TSU] : List Blk) = false) : (Dev.bareBay d bay).rd fl ix = d.rd fl ix :=
  Dev.rd_of_kept (fun b => List.contains ([.MG, .PWV, .CL, .UD, .LN, .LNF, .LNP, .LNT, .CS, .TSU] : List Blk) b) d _ (kept_bareBay _ d bay rfl rfl rfl rfl rfl rfl rfl rfl rfl rfl) fl ix hc

theorem rdk_bareDone (d : Dev)  (fl : Fld) (ix : Nat) (hc : clash fl ([.CF] : List Blk) = false) : (Dev.bareDone d).rd fl ix = d.rd fl ix :=
  Dev.rd_of_kept (fun b => List.contains ([.CF] : List Blk) b) d _ (kept_bareDone _ d  rfl) fl ix hc

theorem rdk_remeasure (d : Dev) (l : Nat) (fl : Fld) (ix : Nat) (hc : clash fl ([] : List Blk) = false) : (Dev.remeasure d l).rd fl ix = d.rd fl ix :=
  Dev.rd_of_kept (fun b => List.contains ([] : List Blk) b) d _ (kept_remeasure _ d l ) fl ix hc

theorem rdk_pllLocked (d : Dev) (p : Nat) (fl : Fld) (ix : Nat) (hc : clash fl ([.MG, .PWV, .CF, .CL, .UD, .LN, .LNF, .LNP, .LNT, .CS, .TSU] : List Blk) = false) : (Dev.pllLocked d p).rd fl ix = d.rd fl ix :=
  Dev.rd_of_kept (fun b => List.contains ([.MG, .PWV, .CF, .CL, .UD, .LN, .LNF, .LNP, .LNT, .CS, .TSU] : List Blk) b) d _ (kept_pllLocked _ d p rfl rfl rfl rfl rfl rfl rfl rfl rfl rfl rfl) fl ix hc

theorem rdk_bareMismatch (d : Dev) (id : Nat) (fl : Fld) (ix : Nat) (hc : clash fl ([.MG, .UD] : List Blk) = false) : (Dev.bareMismatch d id).rd fl ix = d.rd fl ix :=
  Dev.rd_of_kept (fun b => List.contains ([.MG, .UD] : List Blk) b) d _ (kept_bareMismatch _ d id rfl rfl) fl ix hc

theorem rdk_refGone (d : Dev) (ref : Nat) (edges : Bool) (fl : Fld) (ix : Nat) (hc : clash fl ([.MG, .PWV, .CL, .UD, .LN, .LNF, .LNP, .CS, .TB, .TSU] : List Blk) = false) : (Dev.refGone d ref edges).rd fl ix = d.rd fl ix :=
  Dev.rd_of_kept (fun b => List.contains ([.MG, .PWV, .CL, .UD, .LN, .LNF, .LNP, .CS, .TB, .TSU] : List Blk) b) d _ (kept_refGone _ d ref edges rfl rfl rfl rfl rfl rfl rfl rfl rfl rfl) fl ix hc

theorem rdk_refIdentified (d : Dev) (ref id hz : Nat) (fl : Fld) (ix : Nat) (hc : clash fl ([.MG, .UD, .LNP, .TB] : List Blk) = false) : (Dev.refIdentified d ref id hz).rd fl ix = d.rd fl ix :=
  Dev.rd_of_kept (fun b => List.contains ([.MG, .UD, .LNP, .TB] : List Blk) b) d _ (kept_refIdentified _ d ref id hz rfl rfl rfl rfl) fl ix hc

theorem rdk_detectEval (d : Dev)  (fl : Fld) (ix : Nat) (hc : clash fl ([.MG, .PWV, .CL, .UD, .LN, .LNF, .LNP, .LNT, .CS, .TSU] : List Blk) = false) : (Dev.detectEval d).rd fl ix = d.rd fl ix :=
  Dev.rd_of_kept (fun b => List.contains ([.MG, .PWV, .CL, .UD, .LN, .LNF, .LNP, .LNT, .CS, .TSU] : List Blk) b) d _ (kept_detectEval _ d  rfl rfl rfl rfl rfl rfl rfl rfl rfl rfl) fl ix hc

theorem rdk_refSpread (d : Dev) (ref ppm : Nat) (above : Int) (fl : Fld) (ix : Nat) (hc : clash fl ([.MG, .PWV, .CL, .UD, .LN, .LNF, .LNP, .LNT, .CS, .TB, .TSU] : List Blk) = false) : (Dev.refSpread d ref ppm above).rd fl ix = d.rd fl ix :=
  Dev.rd_of_kept (fun b => List.contains ([.MG, .PWV, .CL, .UD, .LN, .LNF, .LNP, .LNT, .CS, .TB, .TSU] : List Blk) b) d _ (kept_refSpread _ d ref ppm above rfl rfl rfl rfl rfl rfl rfl rfl rfl rfl rfl) fl ix hc

theorem rdk_takeoverEnd (d : Dev) (l : Nat) (fl : Fld) (ix : Nat) (hc : clash fl ([.MG, .PWV, .CL, .LNF] : List Blk) = false) : (Dev.takeoverEnd d l).rd fl ix = d.rd fl ix :=
  Dev.rd_of_kept (fun b => List.contains ([.MG, .PWV, .CL, .LNF] : List Blk) b) d _ (kept_takeoverEnd _ d l rfl rfl rfl rfl) fl ix hc

theorem rdk_handoverCut (d : Dev) (l : Nat) (fl : Fld) (ix : Nat) (hc : clash fl ([.MG, .PWV, .CL, .LNF] : List Blk) = false) : (Dev.handoverCut d l).rd fl ix = d.rd fl ix :=
  Dev.rd_of_kept (fun b => List.contains ([.MG, .PWV, .CL, .LNF] : List Blk) b) d _ (kept_handoverCut _ d l rfl rfl rfl rfl) fl ix hc

theorem rdk_lossIndication (d : Dev) (l : Nat) (c : LossCause) (fl : Fld) (ix : Nat) (hc : clash fl ([.MG, .PWV, .CL, .LN, .LNF] : List Blk) = false) : (Dev.lossIndication d l c).rd fl ix = d.rd fl ix :=
  Dev.rd_of_kept (fun b => List.contains ([.MG, .PWV, .CL, .LN, .LNF] : List Blk) b) d _ (kept_lossIndication _ d l c rfl rfl rfl rfl rfl) fl ix hc

theorem rdk_lossConfirmed (d : Dev) (l : Nat) (fl : Fld) (ix : Nat) (hc : clash fl ([.MG, .PWV, .SN, .CL, .UD, .LN, .LNF, .LNP, .LNT, .CS, .TSU] : List Blk) = false) : (Dev.lossConfirmed d l).rd fl ix = d.rd fl ix :=
  Dev.rd_of_kept (fun b => List.contains ([.MG, .PWV, .SN, .CL, .UD, .LN, .LNF, .LNP, .LNT, .CS, .TSU] : List Blk) b) d _ (kept_lossConfirmed _ d l rfl rfl rfl rfl rfl rfl rfl rfl rfl rfl rfl) fl ix hc

theorem rdk_reacqExpired (d : Dev) (l : Nat) (fl : Fld) (ix : Nat) (hc : clash fl ([.MG, .PWV, .CL, .UD, .LN, .LNF, .CS, .TSU] : List Blk) = false) : (Dev.reacqExpired d l).rd fl ix = d.rd fl ix :=
  Dev.rd_of_kept (fun b => List.contains ([.MG, .PWV, .CL, .UD, .LN, .LNF, .CS, .TSU] : List Blk) b) d _ (kept_reacqExpired _ d l rfl rfl rfl rfl rfl rfl rfl rfl) fl ix hc

theorem rdk_rescued (d : Dev) (l : Nat) (fl : Fld) (ix : Nat) (hc : clash fl ([.UD, .LN, .LNF, .CS, .TSU] : List Blk) = false) : (Dev.rescued d l).rd fl ix = d.rd fl ix :=
  Dev.rd_of_kept (fun b => List.contains ([.UD, .LN, .LNF, .CS, .TSU] : List Blk) b) d _ (kept_rescued _ d l rfl rfl rfl rfl rfl) fl ix hc

theorem rdk_unsquelch (d : Dev) (l : Nat) (fl : Fld) (ix : Nat) (hc : clash fl ([.UD, .LN, .CS] : List Blk) = false) : (Dev.unsquelch d l).rd fl ix = d.rd fl ix :=
  Dev.rd_of_kept (fun b => List.contains ([.UD, .LN, .CS] : List Blk) b) d _ (kept_unsquelch _ d l rfl rfl rfl) fl ix hc

theorem rdk_handoverSwitch (d : Dev) (l : Nat) (off : Int) (fl : Fld) (ix : Nat) (hc : clash fl ([.MG, .PW, .PWV, .CF, .TG, .SN, .CL, .UD, .LN, .LNF, .LNP, .LNT, .CS, .TSU, .DM] : List Blk) = false) : (Dev.handoverSwitch d l off).rd fl ix = d.rd fl ix :=
  Dev.rd_of_kept (fun b => List.contains ([.MG, .PW, .PWV, .CF, .TG, .SN, .CL, .UD, .LN, .LNF, .LNP, .LNT, .CS, .TSU, .DM] : List Blk) b) d _ (kept_handoverSwitch _ d l off rfl rfl rfl rfl rfl rfl rfl rfl rfl rfl rfl rfl rfl rfl rfl) fl ix hc

theorem rdk_laneIdleEntry (d : Dev) (l : Nat) (fl : Fld) (ix : Nat) (hc : clash fl ([.MG, .PW, .PWV, .CF, .TG, .SN, .CL, .UD, .LN, .LNF, .LNP, .LNT, .CS, .TSU, .DM] : List Blk) = false) : (Dev.laneIdleEntry d l).rd fl ix = d.rd fl ix :=
  Dev.rd_of_kept (fun b => List.contains ([.MG, .PW, .PWV, .CF, .TG, .SN, .CL, .UD, .LN, .LNF, .LNP, .LNT, .CS, .TSU, .DM] : List Blk) b) d _ (kept_laneIdleEntry _ d l rfl rfl rfl rfl rfl rfl rfl rfl rfl rfl rfl rfl rfl rfl rfl) fl ix hc

theorem rdk_signalLost (d : Dev) (l : Nat) (lpi : Bool) (fl : Fld) (ix : Nat) (hc : clash fl ([.MG, .PW, .PWV, .CF, .TG, .SN, .CL, .UD, .LN, .LNF, .LNP, .LNT, .CS, .TSU, .DM] : List Blk) = false) : (Dev.signalLost d l lpi).rd fl ix = d.rd fl ix :=
  Dev.rd_of_kept (fun b => List.contains ([.MG, .PW, .PWV, .CF, .TG, .SN, .CL, .UD, .LN, .LNF, .LNP, .LNT, .CS, .TSU, .DM] : List Blk) b) d _ (kept_signalLost _ d l lpi rfl rfl rfl rfl rfl rfl rfl rfl rfl rfl rfl rfl rfl rfl rfl) fl ix hc

theorem rdk_idleForwarded (d : Dev) (n l : Nat) (fl : Fld) (ix : Nat) (hc : clash fl ([] : List Blk) = false) : (Dev.idleForwarded d n l).rd fl ix = d.rd fl ix :=
  Dev.rd_of_kept (fun b => List.contains ([] : List Blk) b) d _ (kept_idleForwarded _ d n l ) fl ix hc

theorem rdk_signalFound (d : Dev) (l : Nat) (fl : Fld) (ix : Nat) (hc : clash fl ([.MG, .PW, .PWV, .CF, .TG, .SN, .CL, .UD, .LN, .LNF, .LNP, .LNT, .CS, .TSU, .DM] : List Blk) = false) : (Dev.signalFound d l).rd fl ix = d.rd fl ix :=
  Dev.rd_of_kept (fun b => List.contains ([.MG, .PW, .PWV, .CF, .TG, .SN, .CL, .UD, .LN, .LNF, .LNP, .LNT, .CS, .TSU, .DM] : List Blk) b) d _ (kept_signalFound _ d l rfl rfl rfl rfl rfl rfl rfl rfl rfl rfl rfl rfl rfl rfl rfl) fl ix hc

theorem rdk_learnPos (d : Dev) (n : Nat) (fl : Fld) (ix : Nat) (hc : clash fl ([.CS] : List Blk) = false) : (Dev.learnPos d n).rd fl ix = d.rd fl ix :=
  Dev.rd_of_kept (fun b => List.contains ([.CS] : List Blk) b) d _ (kept_learnPos _ d n rfl) fl ix hc

theorem rdk_learnPresets (d : Dev) (n : Nat) (s : Side) (l : Nat) (f : TsFields) (fl : Fld) (ix : Nat) (hc : clash fl ([] : List Blk) = false) : (Dev.learnPresets d n s l f).rd fl ix = d.rd fl ix :=
  Dev.rd_of_kept (fun b => List.contains ([] : List Blk) b) d _ (kept_learnPresets _ d n s l f ) fl ix hc

theorem rdk_eqShow (d : Dev) (n : Nat) (s : Side) (fl : Fld) (ix : Nat) (hc : clash fl ([] : List Blk) = false) : (Dev.eqShow d n s).rd fl ix = d.rd fl ix :=
  Dev.rd_of_kept (fun b => List.contains ([] : List Blk) b) d _ (kept_eqShow _ d n s ) fl ix hc

theorem rdk_eqStart (d : Dev) (n : Nat) (s : Side) (p : Nat) (fl : Fld) (ix : Nat) (hc : clash fl ([] : List Blk) = false) : (Dev.eqStart d n s p).rd fl ix = d.rd fl ix :=
  Dev.rd_of_kept (fun b => List.contains ([] : List Blk) b) d _ (kept_eqStart _ d n s p ) fl ix hc

theorem rdk_eqEnd (d : Dev) (n : Nat) (s : Side) (fl : Fld) (ix : Nat) (hc : clash fl ([] : List Blk) = false) : (Dev.eqEnd d n s).rd fl ix = d.rd fl ix :=
  Dev.rd_of_kept (fun b => List.contains ([] : List Blk) b) d _ (kept_eqEnd _ d n s ) fl ix hc

theorem rdk_eqEval (d : Dev) (n : Nat) (fl : Fld) (ix : Nat) (hc : clash fl ([.CS] : List Blk) = false) : (Dev.eqEval d n).rd fl ix = d.rd fl ix :=
  Dev.rd_of_kept (fun b => List.contains ([.CS] : List Blk) b) d _ (kept_eqEval _ d n rfl) fl ix hc

theorem rdk_outsideIdle (d : Dev) (n : Nat) (fl : Fld) (ix : Nat) (hc : clash fl ([.MG, .PW, .PWV, .CF, .TG, .SN, .CL, .UD, .LN, .LNF, .LNP, .LNT, .CS, .TSU, .DM] : List Blk) = false) : (Dev.outsideIdle d n).rd fl ix = d.rd fl ix :=
  Dev.rd_of_kept (fun b => List.contains ([.MG, .PW, .PWV, .CF, .TG, .SN, .CL, .UD, .LN, .LNF, .LNP, .LNT, .CS, .TSU, .DM] : List Blk) b) d _ (kept_outsideIdle _ d n rfl rfl rfl rfl rfl rfl rfl rfl rfl rfl rfl rfl rfl rfl rfl) fl ix hc

theorem rdk_seeTs (d : Dev) (n : Nat) (s : Side) (l : Nat) (f : TsFields) (fl : Fld) (ix : Nat) (hc : clash fl ([.MG, .PW, .PWV, .CF, .TG, .SN, .CL, .UD, .LN, .LNF, .LNP, .LNT, .CS, .TSU, .DM] : List Blk) = false) : (Dev.seeTs d n s l f).rd fl ix = d.rd fl ix :=
  Dev.rd_of_kept (fun b => List.contains ([.MG, .PW, .PWV, .CF, .TG, .SN, .CL, .UD, .LN, .LNF, .LNP, .LNT, .CS, .TSU, .DM] : List Blk) b) d _ (kept_seeTs _ d n s l f rfl rfl rfl rfl rfl rfl rfl rfl rfl rfl rfl rfl rfl rfl rfl) fl ix hc

theorem rdk_recovery (d : Dev) (n : Nat) (s : Side) (fl : Fld) (ix : Nat) (hc : clash fl ([.MG, .PWV, .CL, .UD, .LN, .LNF, .LNP, .LNT, .CS, .TSU] : List Blk) = false) : (Dev.recovery d n s).rd fl ix = d.rd fl ix :=
  Dev.rd_of_kept (fun b => List.contains ([.MG, .PWV, .CL, .UD, .LN, .LNF, .LNP, .LNT, .CS, .TSU] : List Blk) b) d _ (kept_recovery _ d n s rfl rfl rfl rfl rfl rfl rfl rfl rfl rfl) fl ix hc

theorem rdk_segL0 (d : Dev) (n : Nat) (s : Side) (fl : Fld) (ix : Nat) (hc : clash fl ([.MG, .PWV, .CL, .UD, .LN, .LNF, .LNP, .LNT, .CS, .TSU] : List Blk) = false) : (Dev.segL0 d n s).rd fl ix = d.rd fl ix :=
  Dev.rd_of_kept (fun b => List.contains ([.MG, .PWV, .CL, .UD, .LN, .LNF, .LNP, .LNT, .CS, .TSU] : List Blk) b) d _ (kept_segL0 _ d n s rfl rfl rfl rfl rfl rfl rfl rfl rfl rfl) fl ix hc

theorem rdk_phaseZero (d : Dev) (n rate : Nat) (fl : Fld) (ix : Nat) (hc : clash fl ([.LN] : List Blk) = false) : (Dev.phaseZero d n rate).rd fl ix = d.rd fl ix :=
  Dev.rd_of_kept (fun b => List.contains ([.LN] : List Blk) b) d _ (kept_phaseZero _ d n rate rfl) fl ix hc

theorem rdk_speedChange (d : Dev) (n rate : Nat) (fl : Fld) (ix : Nat) (hc : clash fl ([.PWV, .LN, .LNP, .CS] : List Blk) = false) : (Dev.speedChange d n rate).rd fl ix = d.rd fl ix :=
  Dev.rd_of_kept (fun b => List.contains ([.PWV, .LN, .LNP, .CS] : List Blk) b) d _ (kept_speedChange _ d n rate rfl rfl rfl rfl) fl ix hc

theorem rdk_marginReply (d : Dev) (n l : Nat) (a : MarginAnswer) (fl : Fld) (ix : Nat) (hc : clash fl ([.CS] : List Blk) = false) : (Dev.marginReply d n l a).rd fl ix = d.rd fl ix :=
  Dev.rd_of_kept (fun b => List.contains ([.CS] : List Blk) b) d _ (kept_marginReply _ d n l a rfl) fl ix hc

theorem rdk_marginStep (d : Dev) (n l : Nat) (s : Side) (cmd : MarginCmd) (fl : Fld) (ix : Nat) (hc : clash fl ([.LNF, .CS] : List Blk) = false) : (Dev.marginStep d n l s cmd).rd fl ix = d.rd fl ix :=
  Dev.rd_of_kept (fun b => List.contains ([.LNF, .CS] : List Blk) b) d _ (kept_marginStep _ d n l s cmd rfl rfl) fl ix hc

theorem rdk_followRate (d : Dev) (n : Nat) (side : Side) (l rate : Nat) (fl : Fld) (ix : Nat) (hc : clash fl ([.PWV, .LN, .LNP] : List Blk) = false) : (Dev.followRate d n side l rate).rd fl ix = d.rd fl ix :=
  Dev.rd_of_kept (fun b => List.contains ([.PWV, .LN, .LNP] : List Blk) b) d _ (kept_followRate _ d n side l rate rfl rfl rfl) fl ix hc

theorem rdk_commonRate (d : Dev) (n : Nat) (fl : Fld) (ix : Nat) (hc : clash fl ([.CS] : List Blk) = false) : (Dev.commonRate d n).rd fl ix = d.rd fl ix :=
  Dev.rd_of_kept (fun b => List.contains ([.CS] : List Blk) b) d _ (kept_commonRate _ d n rfl) fl ix hc

theorem rdk_cswResult (d : Dev) (r v : Nat) (fl : Fld) (ix : Nat) (hc : clash fl ([] : List Blk) = false) : (Dev.cswResult d r v).rd fl ix = d.rd fl ix :=
  Dev.rd_of_kept (fun b => List.contains ([] : List Blk) b) d _ (kept_cswResult _ d r v ) fl ix hc

theorem rdk_cswReq (d : Dev) (r : Nat) (c : Ctx) (fl : Fld) (ix : Nat) (hc : clash fl ([.MG, .PWV, .SN, .ST, .UD, .FB] : List Blk) = false) : (Dev.cswReq d r c).rd fl ix = d.rd fl ix :=
  Dev.rd_of_kept (fun b => List.contains ([.MG, .PWV, .SN, .ST, .UD, .FB] : List Blk) b) d _ (kept_cswReq _ d r c rfl rfl rfl rfl rfl rfl) fl ix hc

theorem rdk_shellResume (d : Dev) (n : Nat) (fl : Fld) (ix : Nat) (hc : clash fl ([.PWV, .LN, .LNP, .CS] : List Blk) = false) : (Dev.shellResume d n).rd fl ix = d.rd fl ix :=
  Dev.rd_of_kept (fun b => List.contains ([.PWV, .LN, .LNP, .CS] : List Blk) b) d _ (kept_shellResume _ d n rfl rfl rfl rfl) fl ix hc

theorem rdk_gutterAcks (d : Dev) (l took : Nat) (fl : Fld) (ix : Nat) (hc : clash fl ([.MG, .PWV, .SN, .ST, .UD, .FB] : List Blk) = false) : (Dev.gutterAcks d l took).rd fl ix = d.rd fl ix :=
  Dev.rd_of_kept (fun b => List.contains ([.MG, .PWV, .SN, .ST, .UD, .FB] : List Blk) b) d _ (kept_gutterAcks _ d l took rfl rfl rfl rfl rfl rfl) fl ix hc

theorem rdk_pgResult (d : Dev) (r v : Nat) (fl : Fld) (ix : Nat) (hc : clash fl ([.FB] : List Blk) = false) : (Dev.pgResult d r v).rd fl ix = d.rd fl ix :=
  Dev.rd_of_kept (fun b => List.contains ([.FB] : List Blk) b) d _ (kept_pgResult _ d r v rfl) fl ix hc

theorem rdk_pgPrefetch (d : Dev) (r p : Nat) (fl : Fld) (ix : Nat) (hc : clash fl ([.PWV, .UD, .FB] : List Blk) = false) : (Dev.pgPrefetch d r p).rd fl ix = d.rd fl ix :=
  Dev.rd_of_kept (fun b => List.contains ([.PWV, .UD, .FB] : List Blk) b) d _ (kept_pgPrefetch _ d r p rfl rfl rfl) fl ix hc

theorem rdk_pgPin (d : Dev) (r p : Nat) (on : Bool) (fl : Fld) (ix : Nat) (hc : clash fl ([.FB] : List Blk) = false) : (Dev.pgPin d r p on).rd fl ix = d.rd fl ix :=
  Dev.rd_of_kept (fun b => List.contains ([.FB] : List Blk) b) d _ (kept_pgPin _ d r p on rfl) fl ix hc

theorem rdk_pgEvict (d : Dev) (r p : Nat) (fl : Fld) (ix : Nat) (hc : clash fl ([.UD, .FB] : List Blk) = false) : (Dev.pgEvict d r p).rd fl ix = d.rd fl ix :=
  Dev.rd_of_kept (fun b => List.contains ([.UD, .FB] : List Blk) b) d _ (kept_pgEvict _ d r p rfl rfl) fl ix hc

theorem rdk_modPu (d : Dev) (g : PuX → PuX) (fl : Fld) (ix : Nat) (hc : clash fl ([] : List Blk) = false) : (Dev.modPu d g).rd fl ix = d.rd fl ix :=
  Dev.rd_of_kept (fun b => List.contains ([] : List Blk) b) d _ (kept_modPu _ d g ) fl ix hc

theorem rdk_setPte (d : Dev) (p : Nat) (e : Pte) (fl : Fld) (ix : Nat) (hc : clash fl ([] : List Blk) = false) : (Dev.setPte d p e).rd fl ix = d.rd fl ix :=
  Dev.rd_of_kept (fun b => List.contains ([] : List Blk) b) d _ (kept_setPte _ d p e ) fl ix hc

theorem rdk_showFree (d : Dev)  (fl : Fld) (ix : Nat) (hc : clash fl ([.PU] : List Blk) = false) : (Dev.showFree d).rd fl ix = d.rd fl ix :=
  Dev.rd_of_kept (fun b => List.contains ([.PU] : List Blk) b) d _ (kept_showFree _ d  rfl) fl ix hc

theorem rdk_freePages (d : Dev) (ps : List Nat) (fl : Fld) (ix : Nat) (hc : clash fl ([.PU] : List Blk) = false) : (Dev.freePages d ps).rd fl ix = d.rd fl ix :=
  Dev.rd_of_kept (fun b => List.contains ([.PU] : List Blk) b) d _ (kept_freePages _ d ps rfl) fl ix hc

theorem rdk_setQueue (d : Dev) (q ks : Nat) (fl : Fld) (ix : Nat) (hc : clash fl ([.UD, .PU] : List Blk) = false) : (Dev.setQueue d q ks).rd fl ix = d.rd fl ix :=
  Dev.rd_of_kept (fun b => List.contains ([.UD, .PU] : List Blk) b) d _ (kept_setQueue _ d q ks rfl rfl) fl ix hc

theorem rdk_queueCode (d : Dev) (q code : Nat) (fl : Fld) (ix : Nat) (hc : clash fl ([.MG, .UD, .PU] : List Blk) = false) : (Dev.queueCode d q code).rd fl ix = d.rd fl ix :=
  Dev.rd_of_kept (fun b => List.contains ([.MG, .UD, .PU] : List Blk) b) d _ (kept_queueCode _ d q code rfl rfl rfl) fl ix hc

theorem rdk_queueFault (d : Dev) (q : Nat) (fl : Fld) (ix : Nat) (hc : clash fl ([.MG, .UD, .PU] : List Blk) = false) : (Dev.queueFault d q).rd fl ix = d.rd fl ix :=
  Dev.rd_of_kept (fun b => List.contains ([.MG, .UD, .PU] : List Blk) b) d _ (kept_queueFault _ d q rfl rfl rfl) fl ix hc

theorem rdk_usePages (d : Dev) (q add sub : Nat) (fl : Fld) (ix : Nat) (hc : clash fl ([.PU] : List Blk) = false) : (Dev.usePages d q add sub).rd fl ix = d.rd fl ix :=
  Dev.rd_of_kept (fun b => List.contains ([.PU] : List Blk) b) d _ (kept_usePages _ d q add sub rfl) fl ix hc

theorem rdk_linkRecord (d : Dev) (q len : Nat) (ps : List Nat) (fl : Fld) (ix : Nat) (hc : clash fl ([.PU] : List Blk) = false) : (Dev.linkRecord d q len ps).rd fl ix = d.rd fl ix :=
  Dev.rd_of_kept (fun b => List.contains ([.PU] : List Blk) b) d _ (kept_linkRecord _ d q len ps rfl) fl ix hc

theorem rdk_dropRecord (d : Dev) (q st : Nat) (fl : Fld) (ix : Nat) (hc : clash fl ([.UD, .PU] : List Blk) = false) : (Dev.dropRecord d q st).rd fl ix = d.rd fl ix :=
  Dev.rd_of_kept (fun b => List.contains ([.UD, .PU] : List Blk) b) d _ (kept_dropRecord _ d q st rfl rfl) fl ix hc

theorem rdk_queueAnswer (d : Dev) (who port : Nat) (a : QAnswer) (fl : Fld) (ix : Nat) (hc : clash fl ([] : List Blk) = false) : (Dev.queueAnswer d who port a).rd fl ix = d.rd fl ix :=
  Dev.rd_of_kept (fun b => List.contains ([] : List Blk) b) d _ (kept_queueAnswer _ d who port a ) fl ix hc

theorem rdk_answerNotifies (d : Dev)  (fl : Fld) (ix : Nat) (hc : clash fl ([.PWV] : List Blk) = false) : (Dev.answerNotifies d).rd fl ix = d.rd fl ix :=
  Dev.rd_of_kept (fun b => List.contains ([.PWV] : List Blk) b) d _ (kept_answerNotifies _ d  rfl) fl ix hc

theorem rdk_queueFlush (d : Dev) (q : Nat) (fl : Fld) (ix : Nat) (hc : clash fl ([.UD, .PU] : List Blk) = false) : (Dev.queueFlush d q).rd fl ix = d.rd fl ix :=
  Dev.rd_of_kept (fun b => List.contains ([.UD, .PU] : List Blk) b) d _ (kept_queueFlush _ d q rfl rfl) fl ix hc

theorem rdk_queueEnable (d : Dev) (q : Nat) (fl : Fld) (ix : Nat) (hc : clash fl ([.UD, .PU] : List Blk) = false) : (Dev.queueEnable d q).rd fl ix = d.rd fl ix :=
  Dev.rd_of_kept (fun b => List.contains ([.UD, .PU] : List Blk) b) d _ (kept_queueEnable _ d q rfl rfl) fl ix hc

theorem rdk_sweepEntry (d : Dev) (q p : Nat) (seen : EccSeen) (fl : Fld) (ix : Nat) (hc : clash fl ([.MG, .SN, .UD, .PU] : List Blk) = false) : (Dev.sweepEntry d q p seen).rd fl ix = d.rd fl ix :=
  Dev.rd_of_kept (fun b => List.contains ([.MG, .SN, .UD, .PU] : List Blk) b) d _ (kept_sweepEntry _ d q p seen rfl rfl rfl rfl) fl ix hc

theorem rdk_sweepDone (d : Dev) (q : Nat) (fl : Fld) (ix : Nat) (hc : clash fl ([.MG, .PWV, .UD, .PU] : List Blk) = false) : (Dev.sweepDone d q).rd fl ix = d.rd fl ix :=
  Dev.rd_of_kept (fun b => List.contains ([.MG, .PWV, .UD, .PU] : List Blk) b) d _ (kept_sweepDone _ d q rfl rfl rfl rfl) fl ix hc

theorem rdk_wipeStart (d : Dev)  (fl : Fld) (ix : Nat) (hc : clash fl ([.MT] : List Blk) = false) : (Dev.wipeStart d).rd fl ix = d.rd fl ix :=
  Dev.rd_of_kept (fun b => List.contains ([.MT] : List Blk) b) d _ (kept_wipeStart _ d  rfl) fl ix hc

theorem rdk_wipeDone (d : Dev)  (fl : Fld) (ix : Nat) (hc : clash fl ([.MG, .PWV, .UD, .DM] : List Blk) = false) : (Dev.wipeDone d).rd fl ix = d.rd fl ix :=
  Dev.rd_of_kept (fun b => List.contains ([.MG, .PWV, .UD, .DM] : List Blk) b) d _ (kept_wipeDone _ d  rfl rfl rfl rfl) fl ix hc

theorem rdk_tamper (d : Dev) (src : Nat) (fl : Fld) (ix : Nat) (hc : clash fl ([.MG, .PW, .PWV, .CF, .TG, .SN, .UD, .MT, .DM] : List Blk) = false) : (Dev.tamper d src).rd fl ix = d.rd fl ix :=
  Dev.rd_of_kept (fun b => List.contains ([.MG, .PW, .PWV, .CF, .TG, .SN, .UD, .MT, .DM] : List Blk) b) d _ (kept_tamper _ d src rfl rfl rfl rfl rfl rfl rfl rfl rfl) fl ix hc

theorem rdk_recordShown (d : Dev) (seq : Nat) (fl : Fld) (ix : Nat) (hc : clash fl ([.PWV, .DM] : List Blk) = false) : (Dev.recordShown d seq).rd fl ix = d.rd fl ix :=
  Dev.rd_of_kept (fun b => List.contains ([.PWV, .DM] : List Blk) b) d _ (kept_recordShown _ d seq rfl rfl) fl ix hc

theorem rdk_recordFailed (d : Dev)  (fl : Fld) (ix : Nat) (hc : clash fl ([.MG, .PWV, .UD, .DM] : List Blk) = false) : (Dev.recordFailed d).rd fl ix = d.rd fl ix :=
  Dev.rd_of_kept (fun b => List.contains ([.MG, .PWV, .UD, .DM] : List Blk) b) d _ (kept_recordFailed _ d  rfl rfl rfl rfl) fl ix hc

theorem rdk_refuseYealm (d : Dev) (code : Nat) (fl : Fld) (ix : Nat) (hc : clash fl ([.MG, .PWV, .UD, .DM] : List Blk) = false) : (Dev.refuseYealm d code).rd fl ix = d.rd fl ix :=
  Dev.rd_of_kept (fun b => List.contains ([.MG, .PWV, .UD, .DM] : List Blk) b) d _ (kept_refuseYealm _ d code rfl rfl rfl rfl) fl ix hc

theorem rdk_loadSlice (d : Dev) (y : SealedYealm) (fl : Fld) (ix : Nat) (hc : clash fl ([.DM] : List Blk) = false) : (Dev.loadSlice d y).rd fl ix = d.rd fl ix :=
  Dev.rd_of_kept (fun b => List.contains ([.DM] : List Blk) b) d _ (kept_loadSlice _ d y rfl) fl ix hc

theorem rdk_regionVotes (d : Dev) (r : Nat) (fl : Fld) (ix : Nat) (hc : clash fl ([.PWV] : List Blk) = false) : (Dev.regionVotes d r).rd fl ix = d.rd fl ix :=
  Dev.rd_of_kept (fun b => List.contains ([.PWV] : List Blk) b) d _ (kept_regionVotes _ d r rfl) fl ix hc

theorem rdk_profilePlls (d : Dev) (bay : Nat) (fl : Fld) (ix : Nat) (hc : clash fl ([.LNP] : List Blk) = false) : (Dev.profilePlls d bay).rd fl ix = d.rd fl ix :=
  Dev.rd_of_kept (fun b => List.contains ([.LNP] : List Blk) b) d _ (kept_profilePlls _ d bay rfl) fl ix hc

theorem rdk_loadFailed (d : Dev) (r : Nat) (fl : Fld) (ix : Nat) (hc : clash fl ([.MG, .CF, .UD] : List Blk) = false) : (Dev.loadFailed d r).rd fl ix = d.rd fl ix :=
  Dev.rd_of_kept (fun b => List.contains ([.MG, .CF, .UD] : List Blk) b) d _ (kept_loadFailed _ d r rfl rfl rfl) fl ix hc

theorem rdk_regionRaised (d : Dev) (r was : Nat) (loadOk : Bool) (fl : Fld) (ix : Nat) (hc : clash fl ([.MG, .PWV, .CF, .SN, .ST, .UD, .FB, .MT] : List Blk) = false) : (Dev.regionRaised d r was loadOk).rd fl ix = d.rd fl ix :=
  Dev.rd_of_kept (fun b => List.contains ([.MG, .PWV, .CF, .SN, .ST, .UD, .FB, .MT] : List Blk) b) d _ (kept_regionRaised _ d r was loadOk rfl rfl rfl rfl rfl rfl rfl rfl) fl ix hc

theorem rdk_queuesLost (d : Dev)  (fl : Fld) (ix : Nat) (hc : clash fl ([.UD] : List Blk) = false) : (Dev.queuesLost d).rd fl ix = d.rd fl ix :=
  Dev.rd_of_kept (fun b => List.contains ([.UD] : List Blk) b) d _ (kept_queuesLost _ d  rfl) fl ix hc

theorem rdk_regionClamp (d : Dev) (r : Nat) (fl : Fld) (ix : Nat) (hc : clash fl ([.UD] : List Blk) = false) : (Dev.regionClamp d r).rd fl ix = d.rd fl ix :=
  Dev.rd_of_kept (fun b => List.contains ([.UD] : List Blk) b) d _ (kept_regionClamp _ d r rfl) fl ix hc

theorem rdk_noCore (d : Dev)  (fl : Fld) (ix : Nat) (hc : clash fl ([.MG, .PW, .PWV, .CF, .TG, .SN, .UD, .DM] : List Blk) = false) : (Dev.noCore d).rd fl ix = d.rd fl ix :=
  Dev.rd_of_kept (fun b => List.contains ([.MG, .PW, .PWV, .CF, .TG, .SN, .UD, .DM] : List Blk) b) d _ (kept_noCore _ d  rfl rfl rfl rfl rfl rfl rfl rfl) fl ix hc

theorem rdk_hostVotes (d : Dev) (j w : Nat) (fl : Fld) (ix : Nat) (hc : clash fl ([.HOST, .MG, .PW, .PWV, .CF, .TG, .SN, .UD, .DM] : List Blk) = false) : (Dev.hostVotes d j w).rd fl ix = d.rd fl ix :=
  Dev.rd_of_kept (fun b => List.contains ([.HOST, .MG, .PW, .PWV, .CF, .TG, .SN, .UD, .DM] : List Blk) b) d _ (kept_hostVotes _ d j w rfl rfl rfl rfl rfl rfl rfl rfl rfl) fl ix hc

theorem rdk_actsetWrite (d : Dev) (j w : Nat) (fl : Fld) (ix : Nat) (hc : clash fl ([.HOST, .PWV] : List Blk) = false) : (Dev.actsetWrite d j w).rd fl ix = d.rd fl ix :=
  Dev.rd_of_kept (fun b => List.contains ([.HOST, .PWV] : List Blk) b) d _ (kept_actsetWrite _ d j w rfl rfl) fl ix hc

theorem rdk_etimFire (d : Dev) (k : Nat) (fl : Fld) (ix : Nat) (hc : clash fl ([.MG, .PW, .PWV, .CF, .TG, .SN, .UD, .DM] : List Blk) = false) : (Dev.etimFire d k).rd fl ix = d.rd fl ix :=
  Dev.rd_of_kept (fun b => List.contains ([.MG, .PW, .PWV, .CF, .TG, .SN, .UD, .DM] : List Blk) b) d _ (kept_etimFire _ d k rfl rfl rfl rfl rfl rfl rfl rfl) fl ix hc

theorem rdk_padRelease (d : Dev) (groups : Nat) (fl : Fld) (ix : Nat) (hc : clash fl ([.PW] : List Blk) = false) : (Dev.padRelease d groups).rd fl ix = d.rd fl ix :=
  Dev.rd_of_kept (fun b => List.contains ([.PW] : List Blk) b) d _ (kept_padRelease _ d groups rfl) fl ix hc

theorem rdk_calFinish (d : Dev) (code : Nat) (fl : Fld) (ix : Nat) (hc : clash fl ([.MG, .PWV, .CL, .LNF] : List Blk) = false) : (Dev.calFinish d code).rd fl ix = d.rd fl ix :=
  Dev.rd_of_kept (fun b => List.contains ([.MG, .PWV, .CL, .LNF] : List Blk) b) d _ (kept_calFinish _ d code rfl rfl rfl rfl) fl ix hc

theorem rdk_calRunning (d : Dev)  (fl : Fld) (ix : Nat) (hc : clash fl ([.MG, .PWV, .CL, .LNF] : List Blk) = false) : (Dev.calRunning d).rd fl ix = d.rd fl ix :=
  Dev.rd_of_kept (fun b => List.contains ([.MG, .PWV, .CL, .LNF] : List Blk) b) d _ (kept_calRunning _ d  rfl rfl rfl rfl) fl ix hc

theorem rdk_calClaim (d : Dev)  (fl : Fld) (ix : Nat) (hc : clash fl ([.MG, .PWV, .CL, .LNF, .CS] : List Blk) = false) : (Dev.calClaim d).rd fl ix = d.rd fl ix :=
  Dev.rd_of_kept (fun b => List.contains ([.MG, .PWV, .CL, .LNF, .CS] : List Blk) b) d _ (kept_calClaim _ d  rfl rfl rfl rfl rfl) fl ix hc

theorem rdk_calStart (d : Dev) (op kind t param : Nat) (nowait apply : Bool) (rept : Nat) (fl : Fld) (ix : Nat) (hc : clash fl ([.MG, .PWV, .CL, .UD, .LN, .LNF, .LNT, .CS] : List Blk) = false) : (Dev.calStart d op kind t param nowait apply rept).rd fl ix = d.rd fl ix :=
  Dev.rd_of_kept (fun b => List.contains ([.MG, .PWV, .CL, .UD, .LN, .LNF, .LNT, .CS] : List Blk) b) d _ (kept_calStart _ d op kind t param nowait apply rept rfl rfl rfl rfl rfl rfl rfl rfl) fl ix hc

theorem rdk_calCancel (d : Dev)  (fl : Fld) (ix : Nat) (hc : clash fl ([.MG, .PWV, .CL, .LNF] : List Blk) = false) : (Dev.calCancel d).rd fl ix = d.rd fl ix :=
  Dev.rd_of_kept (fun b => List.contains ([.MG, .PWV, .CL, .LNF] : List Blk) b) d _ (kept_calCancel _ d  rfl rfl rfl rfl) fl ix hc

theorem rdk_calAgree (d : Dev)  (fl : Fld) (ix : Nat) (hc : clash fl ([.MG, .PWV, .CL, .LNF] : List Blk) = false) : (Dev.calAgree d).rd fl ix = d.rd fl ix :=
  Dev.rd_of_kept (fun b => List.contains ([.MG, .PWV, .CL, .LNF] : List Blk) b) d _ (kept_calAgree _ d  rfl rfl rfl rfl) fl ix hc

theorem rdk_calMonitors (d : Dev) (r : CalRun) (fl : Fld) (ix : Nat) (hc : clash fl ([.CL] : List Blk) = false) : (Dev.calMonitors d r).rd fl ix = d.rd fl ix :=
  Dev.rd_of_kept (fun b => List.contains ([.CL] : List Blk) b) d _ (kept_calMonitors _ d r rfl) fl ix hc

theorem rdk_tbReject (d : Dev)  (fl : Fld) (ix : Nat) (hc : clash fl ([.TB] : List Blk) = false) : (Dev.tbReject d).rd fl ix = d.rd fl ix :=
  Dev.rd_of_kept (fun b => List.contains ([.TB] : List Blk) b) d _ (kept_tbReject _ d  rfl) fl ix hc

theorem rdk_tbLoad (d : Dev)  (fl : Fld) (ix : Nat) (hc : clash fl ([.MG, .SN, .UD, .TB] : List Blk) = false) : (Dev.tbLoad d).rd fl ix = d.rd fl ix :=
  Dev.rd_of_kept (fun b => List.contains ([.MG, .SN, .UD, .TB] : List Blk) b) d _ (kept_tbLoad _ d  rfl rfl rfl rfl) fl ix hc

theorem rdk_tbStep (d : Dev)  (fl : Fld) (ix : Nat) (hc : clash fl ([.MG, .SN, .UD, .TB] : List Blk) = false) : (Dev.tbStep d).rd fl ix = d.rd fl ix :=
  Dev.rd_of_kept (fun b => List.contains ([.MG, .SN, .UD, .TB] : List Blk) b) d _ (kept_tbStep _ d  rfl rfl rfl rfl) fl ix hc

theorem rdk_tbCapture (d : Dev)  (fl : Fld) (ix : Nat) (hc : clash fl ([.TB] : List Blk) = false) : (Dev.tbCapture d).rd fl ix = d.rd fl ix :=
  Dev.rd_of_kept (fun b => List.contains ([.TB] : List Blk) b) d _ (kept_tbCapture _ d  rfl) fl ix hc

theorem rdk_tbRun (d : Dev) (c : Nat) (fl : Fld) (ix : Nat) (hc : clash fl ([.MG, .SN, .UD, .TB] : List Blk) = false) : (Dev.tbRun d c).rd fl ix = d.rd fl ix :=
  Dev.rd_of_kept (fun b => List.contains ([.MG, .SN, .UD, .TB] : List Blk) b) d _ (kept_tbRun _ d c rfl rfl rfl rfl) fl ix hc

theorem rdk_tbIssue (d : Dev) (cs : List Nat) (fl : Fld) (ix : Nat) (hc : clash fl ([.MG, .SN, .UD, .TB] : List Blk) = false) : (Dev.tbIssue d cs).rd fl ix = d.rd fl ix :=
  Dev.rd_of_kept (fun b => List.contains ([.MG, .SN, .UD, .TB] : List Blk) b) d _ (kept_tbIssue _ d cs rfl rfl rfl rfl) fl ix hc

theorem rdk_tbNext (d : Dev)  (fl : Fld) (ix : Nat) (hc : clash fl ([.MG, .SN, .UD, .TB] : List Blk) = false) : (Dev.tbNext d).rd fl ix = d.rd fl ix :=
  Dev.rd_of_kept (fun b => List.contains ([.MG, .SN, .UD, .TB] : List Blk) b) d _ (kept_tbNext _ d  rfl rfl rfl rfl) fl ix hc

theorem rdk_tbWrite (d : Dev) (r : TbReg) (v : Nat) (fl : Fld) (ix : Nat) (hc : clash fl ([.TB] : List Blk) = false) : (Dev.tbWrite d r v).rd fl ix = d.rd fl ix :=
  Dev.rd_of_kept (fun b => List.contains ([.TB] : List Blk) b) d _ (kept_tbWrite _ d r v rfl) fl ix hc

theorem rdk_dormerEdge (d : Dev) (interp : Nat) (fl : Fld) (ix : Nat) (hc : clash fl ([] : List Blk) = false) : (Dev.dormerEdge d interp).rd fl ix = d.rd fl ix :=
  Dev.rd_of_kept (fun b => List.contains ([] : List Blk) b) d _ (kept_dormerEdge _ d interp ) fl ix hc

theorem rdk_lrefWrite (d : Dev) (k w : Nat) (fl : Fld) (ix : Nat) (hc : clash fl ([.MG, .SN, .UD, .TB, .TS] : List Blk) = false) : (Dev.lrefWrite d k w).rd fl ix = d.rd fl ix :=
  Dev.rd_of_kept (fun b => List.contains ([.MG, .SN, .UD, .TB, .TS] : List Blk) b) d _ (kept_lrefWrite _ d k w rfl rfl rfl rfl rfl) fl ix hc

theorem rdk_tsCtlWrite (d : Dev) (w : Nat) (fl : Fld) (ix : Nat) (hc : clash fl ([.MG, .PWV, .SN, .UD, .TB, .TS] : List Blk) = false) : (Dev.tsCtlWrite d w).rd fl ix = d.rd fl ix :=
  Dev.rd_of_kept (fun b => List.contains ([.MG, .PWV, .SN, .UD, .TB, .TS] : List Blk) b) d _ (kept_tsCtlWrite _ d w rfl rfl rfl rfl rfl rfl) fl ix hc

theorem rdk_tickClkout (d : Dev)  (fl : Fld) (ix : Nat) (hc : clash fl ([] : List Blk) = false) : (Dev.tickClkout d).rd fl ix = d.rd fl ix :=
  Dev.rd_of_kept (fun b => List.contains ([] : List Blk) b) d _ (kept_tickClkout _ d  ) fl ix hc

theorem rdk_dormerMessage (d : Dev)  (fl : Fld) (ix : Nat) (hc : clash fl ([] : List Blk) = false) : (Dev.dormerMessage d).rd fl ix = d.rd fl ix :=
  Dev.rd_of_kept (fun b => List.contains ([] : List Blk) b) d _ (kept_dormerMessage _ d  ) fl ix hc

theorem rdk_esmcEvents (d : Dev)  (fl : Fld) (ix : Nat) (hc : clash fl ([] : List Blk) = false) : (Dev.esmcEvents d).rd fl ix = d.rd fl ix :=
  Dev.rd_of_kept (fun b => List.contains ([] : List Blk) b) d _ (kept_esmcEvents _ d  ) fl ix hc

theorem rdk_publishService (d : Dev) (id : Nat) (fl : Fld) (ix : Nat) (hc : clash fl ([.MG, .SN, .UD, .TB, .TS] : List Blk) = false) : (Dev.publishService d id).rd fl ix = d.rd fl ix :=
  Dev.rd_of_kept (fun b => List.contains ([.MG, .SN, .UD, .TB, .TS] : List Blk) b) d _ (kept_publishService _ d id rfl rfl rfl rfl rfl) fl ix hc

theorem rdk_modPoint (d : Dev) (u : Nat) (g : PointX → PointX) (fl : Fld) (ix : Nat) (hc : clash fl ([] : List Blk) = false) : (Dev.modPoint d u g).rd fl ix = d.rd fl ix :=
  Dev.rd_of_kept (fun b => List.contains ([] : List Blk) b) d _ (kept_modPoint _ d u g ) fl ix hc

theorem rdk_meterCount (d : Dev) (m len : Nat) (ab : Bool) (fl : Fld) (ix : Nat) (hc : clash fl ([] : List Blk) = false) : (Dev.meterCount d m len ab).rd fl ix = d.rd fl ix :=
  Dev.rd_of_kept (fun b => List.contains ([] : List Blk) b) d _ (kept_meterCount _ d m len ab ) fl ix hc

theorem rdk_correct (d : Dev) (u : Nat) (x : FlightX) (tOut : Int) (fl : Fld) (ix : Nat) (hc : clash fl ([.TSU] : List Blk) = false) : (Dev.correct d u x tOut).rd fl ix = d.rd fl ix :=
  Dev.rd_of_kept (fun b => List.contains ([.TSU] : List Blk) b) d _ (kept_correct _ d u x tOut rfl) fl ix hc

theorem rdk_frameOut (d : Dev) (u interp pout : Nat) (fl : Fld) (ix : Nat) (hc : clash fl ([.TSU] : List Blk) = false) : (Dev.frameOut d u interp pout).rd fl ix = d.rd fl ix :=
  Dev.rd_of_kept (fun b => List.contains ([.TSU] : List Blk) b) d _ (kept_frameOut _ d u interp pout rfl) fl ix hc

theorem rdk_pointTick (d : Dev) (u byteTimes deleted : Nat) (fl : Fld) (ix : Nat) (hc : clash fl ([.TS] : List Blk) = false) : (Dev.pointTick d u byteTimes deleted).rd fl ix = d.rd fl ix :=
  Dev.rd_of_kept (fun b => List.contains ([.TS] : List Blk) b) d _ (kept_pointTick _ d u byteTimes deleted rfl) fl ix hc

theorem rdk_clsCommand (d : Dev) (op : Nat) (replace : Bool) (fl : Fld) (ix : Nat) (hc : clash fl ([.TS] : List Blk) = false) : (Dev.clsCommand d op replace).rd fl ix = d.rd fl ix :=
  Dev.rd_of_kept (fun b => List.contains ([.TS] : List Blk) b) d _ (kept_clsCommand _ d op replace rfl) fl ix hc

theorem rdk_modBoot (d : Dev) (g : BootX → BootX) (fl : Fld) (ix : Nat) (hc : clash fl ([] : List Blk) = false) : (Dev.modBoot d g).rd fl ix = d.rd fl ix :=
  Dev.rd_of_kept (fun b => List.contains ([] : List Blk) b) d _ (kept_modBoot _ d g ) fl ix hc

theorem rdk_imageFail (d : Dev) (code yealm item : Nat) (fl : Fld) (ix : Nat) (hc : clash fl ([.MG, .PW, .PWV, .CF, .TG, .SN, .UD, .DM] : List Blk) = false) : (Dev.imageFail d code yealm item).rd fl ix = d.rd fl ix :=
  Dev.rd_of_kept (fun b => List.contains ([.MG, .PW, .PWV, .CF, .TG, .SN, .UD, .DM] : List Blk) b) d _ (kept_imageFail _ d code yealm item rfl rfl rfl rfl rfl rfl rfl rfl) fl ix hc

theorem rdk_loadStart (d : Dev) (image : Nat) (next : List Nat) (fl : Fld) (ix : Nat) (hc : clash fl ([.CF] : List Blk) = false) : (Dev.loadStart d image next).rd fl ix = d.rd fl ix :=
  Dev.rd_of_kept (fun b => List.contains ([.CF] : List Blk) b) d _ (kept_loadStart _ d image next rfl) fl ix hc

theorem rdk_busLoad (d : Dev)  (fl : Fld) (ix : Nat) (hc : clash fl ([.CF] : List Blk) = false) : (Dev.busLoad d).rd fl ix = d.rd fl ix :=
  Dev.rd_of_kept (fun b => List.contains ([.CF] : List Blk) b) d _ (kept_busLoad _ d  rfl) fl ix hc

theorem rdk_flashLoad (d : Dev) (flash : Option FlashFound) (fl : Fld) (ix : Nat) (hc : clash fl ([.MG, .PW, .PWV, .CF, .TG, .SN, .UD, .DM] : List Blk) = false) : (Dev.flashLoad d flash).rd fl ix = d.rd fl ix :=
  Dev.rd_of_kept (fun b => List.contains ([.MG, .PW, .PWV, .CF, .TG, .SN, .UD, .DM] : List Blk) b) d _ (kept_flashLoad _ d flash rfl rfl rfl rfl rfl rfl rfl rfl) fl ix hc

theorem rdk_loaderStart (d : Dev) (flash : Option FlashFound) (fl : Fld) (ix : Nat) (hc : clash fl ([.MG, .PW, .PWV, .CF, .TG, .SN, .UD, .DM] : List Blk) = false) : (Dev.loaderStart d flash).rd fl ix = d.rd fl ix :=
  Dev.rd_of_kept (fun b => List.contains ([.MG, .PW, .PWV, .CF, .TG, .SN, .UD, .DM] : List Blk) b) d _ (kept_loaderStart _ d flash rfl rfl rfl rfl rfl rfl rfl rfl) fl ix hc

theorem rdk_compatSetup (d : Dev) (y : Yealm) (fl : Fld) (ix : Nat) (hc : clash fl ([.MT] : List Blk) = false) : (Dev.compatSetup d y).rd fl ix = d.rd fl ix :=
  Dev.rd_of_kept (fun b => List.contains ([.MT] : List Blk) b) d _ (kept_compatSetup _ d y rfl) fl ix hc

theorem rdk_noSealed (d : Dev) (ys : List Yealm) (fl : Fld) (ix : Nat) (hc : clash fl ([.MG, .PWV, .UD, .DM] : List Blk) = false) : (Dev.noSealed d ys).rd fl ix = d.rd fl ix :=
  Dev.rd_of_kept (fun b => List.contains ([.MG, .PWV, .UD, .DM] : List Blk) b) d _ (kept_noSealed _ d ys rfl rfl rfl rfl) fl ix hc

theorem rdk_cfResult (d : Dev) (v : Nat) (fl : Fld) (ix : Nat) (hc : clash fl ([.CF] : List Blk) = false) : (Dev.cfResult d v).rd fl ix = d.rd fl ix :=
  Dev.rd_of_kept (fun b => List.contains ([.CF] : List Blk) b) d _ (kept_cfResult _ d v rfl) fl ix hc

theorem rdk_cfReload (d : Dev) (flash : Option FlashFound) (fl : Fld) (ix : Nat) (hc : clash fl ([.MG, .PW, .PWV, .CF, .TG, .SN, .UD, .DM] : List Blk) = false) : (Dev.cfReload d flash).rd fl ix = d.rd fl ix :=
  Dev.rd_of_kept (fun b => List.contains ([.MG, .PW, .PWV, .CF, .TG, .SN, .UD, .DM] : List Blk) b) d _ (kept_cfReload _ d flash rfl rfl rfl rfl rfl rfl rfl rfl) fl ix hc

theorem rdk_cfRecover (d : Dev)  (fl : Fld) (ix : Nat) (hc : clash fl ([.MG, .PW, .PWV, .CF, .TG, .SN, .UD, .DM] : List Blk) = false) : (Dev.cfRecover d).rd fl ix = d.rd fl ix :=
  Dev.rd_of_kept (fun b => List.contains ([.MG, .PW, .PWV, .CF, .TG, .SN, .UD, .DM] : List Blk) b) d _ (kept_cfRecover _ d  rfl rfl rfl rfl rfl rfl rfl rfl) fl ix hc

theorem rdk_cfKey (d : Dev) (op slot : Nat) (fl : Fld) (ix : Nat) (hc : clash fl ([.CF] : List Blk) = false) : (Dev.cfKey d op slot).rd fl ix = d.rd fl ix :=
  Dev.rd_of_kept (fun b => List.contains ([.CF] : List Blk) b) d _ (kept_cfKey _ d op slot rfl) fl ix hc

theorem rdk_cfAbort (d : Dev)  (fl : Fld) (ix : Nat) (hc : clash fl ([.MG, .PW, .PWV, .CF, .TG, .SN, .UD, .DM] : List Blk) = false) : (Dev.cfAbort d).rd fl ix = d.rd fl ix :=
  Dev.rd_of_kept (fun b => List.contains ([.MG, .PW, .PWV, .CF, .TG, .SN, .UD, .DM] : List Blk) b) d _ (kept_cfAbort _ d  rfl rfl rfl rfl rfl rfl rfl rfl) fl ix hc

theorem rdk_rcvWrite (d : Dev) (w : Nat) (fl : Fld) (ix : Nat) (hc : clash fl ([.MG, .PW, .PWV, .CF, .TG, .SN, .UD, .DM] : List Blk) = false) : (Dev.rcvWrite d w).rd fl ix = d.rd fl ix :=
  Dev.rd_of_kept (fun b => List.contains ([.MG, .PW, .PWV, .CF, .TG, .SN, .UD, .DM] : List Blk) b) d _ (kept_rcvWrite _ d w rfl rfl rfl rfl rfl rfl rfl rfl) fl ix hc

theorem rdk_alertEnWrite (d : Dev) (w : Nat) (fl : Fld) (ix : Nat) (hc : clash fl ([.HOST] : List Blk) = false) : (Dev.alertEnWrite d w).rd fl ix = d.rd fl ix :=
  Dev.rd_of_kept (fun b => List.contains ([.HOST] : List Blk) b) d _ (kept_alertEnWrite _ d w rfl) fl ix hc

theorem rdk_gateRes (d : Dev) (who : Initiator) (code : Nat) (fl : Fld) (ix : Nat) (hc : clash fl ([.TG] : List Blk) = false) : (Dev.gateRes d who code).rd fl ix = d.rd fl ix :=
  Dev.rd_of_kept (fun b => List.contains ([.TG] : List Blk) b) d _ (kept_gateRes _ d who code rfl) fl ix hc

theorem rdk_takeSlot (d : Dev) (who : Initiator) (k : Nat) (fl : Fld) (ix : Nat) (hc : clash fl ([.TG] : List Blk) = false) : (Dev.takeSlot d who k).rd fl ix = d.rd fl ix :=
  Dev.rd_of_kept (fun b => List.contains ([.TG] : List Blk) b) d _ (kept_takeSlot _ d who k rfl) fl ix hc

theorem rdk_gateOpen (d : Dev) (who : Initiator) (fl : Fld) (ix : Nat) (hc : clash fl ([.TG] : List Blk) = false) : (Dev.gateOpen d who).rd fl ix = d.rd fl ix :=
  Dev.rd_of_kept (fun b => List.contains ([.TG] : List Blk) b) d _ (kept_gateOpen _ d who rfl) fl ix hc

theorem rdk_stageWrite (d : Dev) (k a : Nat) (r : Reg) (i data mask : Nat) (fl : Fld) (ix : Nat) (hc : clash fl ([.TG] : List Blk) = false) : (Dev.stageWrite d k a r i data mask).rd fl ix = d.rd fl ix :=
  Dev.rd_of_kept (fun b => List.contains ([.TG] : List Blk) b) d _ (kept_stageWrite _ d k a r i data mask rfl) fl ix hc

theorem rdk_gateStage (d : Dev) (who : Initiator) (k addr data mask : Nat) (fl : Fld) (ix : Nat) (hc : clash fl ([.TG] : List Blk) = false) : (Dev.gateStage d who k addr data mask).rd fl ix = d.rd fl ix :=
  Dev.rd_of_kept (fun b => List.contains ([.TG] : List Blk) b) d _ (kept_gateStage _ d who k addr data mask rfl) fl ix hc

theorem rdk_gateCommit (d : Dev) (who : Initiator) (k mode course : Nat) (fl : Fld) (ix : Nat) (hc : clash fl ([.TG] : List Blk) = false) : (Dev.gateCommit d who k mode course).rd fl ix = d.rd fl ix :=
  Dev.rd_of_kept (fun b => List.contains ([.TG] : List Blk) b) d _ (kept_gateCommit _ d who k mode course rfl) fl ix hc

theorem rdk_gateAbort (d : Dev) (who : Initiator) (k : Nat) (fl : Fld) (ix : Nat) (hc : clash fl ([.MG, .TG, .SN, .UD] : List Blk) = false) : (Dev.gateAbort d who k).rd fl ix = d.rd fl ix :=
  Dev.rd_of_kept (fun b => List.contains ([.MG, .TG, .SN, .UD] : List Blk) b) d _ (kept_gateAbort _ d who k rfl rfl rfl rfl) fl ix hc

theorem rdk_commitRate (d : Dev) (n rate : Nat) (fl : Fld) (ix : Nat) (hc : clash fl ([.LN, .LNP] : List Blk) = false) : (Dev.commitRate d n rate).rd fl ix = d.rd fl ix :=
  Dev.rd_of_kept (fun b => List.contains ([.LN, .LNP] : List Blk) b) d _ (kept_commitRate _ d n rate rfl rfl) fl ix hc

theorem rdk_standInRelease (d : Dev) (fs : Nat) (fl : Fld) (ix : Nat) (hc : clash fl ([.UD, .LN, .LNF, .CS, .TSU] : List Blk) = false) : (Dev.standInRelease d fs).rd fl ix = d.rd fl ix :=
  Dev.rd_of_kept (fun b => List.contains ([.UD, .LN, .LNF, .CS, .TSU] : List Blk) b) d _ (kept_standInRelease _ d fs rfl rfl rfl rfl rfl) fl ix hc

theorem rdk_recountUsed (d : Dev)  (fl : Fld) (ix : Nat) (hc : clash fl ([.PU] : List Blk) = false) : (Dev.recountUsed d).rd fl ix = d.rd fl ix :=
  Dev.rd_of_kept (fun b => List.contains ([.PU] : List Blk) b) d _ (kept_recountUsed _ d  rfl) fl ix hc

theorem rdk_framesFollow (d : Dev) (r : Nat) (fl : Fld) (ix : Nat) (hc : clash fl ([.UD, .FB] : List Blk) = false) : (Dev.framesFollow d r).rd fl ix = d.rd fl ix :=
  Dev.rd_of_kept (fun b => List.contains ([.UD, .FB] : List Blk) b) d _ (kept_framesFollow _ d r rfl rfl) fl ix hc

theorem rdk_commitQueue (d : Dev) (w : StagedWrite) (fl : Fld) (ix : Nat) (hc : clash fl ([.UD, .PU] : List Blk) = false) : (Dev.commitQueue d w).rd fl ix = d.rd fl ix :=
  Dev.rd_of_kept (fun b => List.contains ([.UD, .PU] : List Blk) b) d _ (kept_commitQueue _ d w rfl rfl) fl ix hc

theorem rdk_gateAgain (d : Dev) (k : Nat) (g : GateX) (mode course : Nat) (fl : Fld) (ix : Nat) (hc : clash fl ([.TG] : List Blk) = false) : (Dev.gateAgain d k g mode course).rd fl ix = d.rd fl ix :=
  Dev.rd_of_kept (fun b => List.contains ([.TG] : List Blk) b) d _ (kept_gateAgain _ d k g mode course rfl) fl ix hc

theorem rdk_gateFail (d : Dev) (k outcome : Nat) (addr : Option Nat) (fl : Fld) (ix : Nat) (hc : clash fl ([.MG, .TG, .SN, .UD] : List Blk) = false) : (Dev.gateFail d k outcome addr).rd fl ix = d.rd fl ix :=
  Dev.rd_of_kept (fun b => List.contains ([.MG, .TG, .SN, .UD] : List Blk) b) d _ (kept_gateFail _ d k outcome addr rfl rfl rfl rfl) fl ix hc

theorem rdk_modMg (d : Dev) (g : MgX → MgX) (fl : Fld) (ix : Nat) (hc : clash fl ([] : List Blk) = false) : (Dev.modMg d g).rd fl ix = d.rd fl ix :=
  Dev.rd_of_kept (fun b => List.contains ([] : List Blk) b) d _ (kept_modMg _ d g ) fl ix hc

theorem rdk_ulResult (d : Dev) (v : Nat) (fl : Fld) (ix : Nat) (hc : clash fl ([.TG] : List Blk) = false) : (Dev.ulResult d v).rd fl ix = d.rd fl ix :=
  Dev.rd_of_kept (fun b => List.contains ([.TG] : List Blk) b) d _ (kept_ulResult _ d v rfl) fl ix hc

theorem rdk_drawNonce (d : Dev)  (fl : Fld) (ix : Nat) (hc : clash fl ([.TG] : List Blk) = false) : (Dev.drawNonce d).rd fl ix = d.rd fl ix :=
  Dev.rd_of_kept (fun b => List.contains ([.TG] : List Blk) b) d _ (kept_drawNonce _ d  rfl) fl ix hc

theorem rdk_clearNonce (d : Dev)  (fl : Fld) (ix : Nat) (hc : clash fl ([.TG] : List Blk) = false) : (Dev.clearNonce d).rd fl ix = d.rd fl ix :=
  Dev.rd_of_kept (fun b => List.contains ([.TG] : List Blk) b) d _ (kept_clearNonce _ d  rfl) fl ix hc

theorem rdk_ulChallenge (d : Dev)  (fl : Fld) (ix : Nat) (hc : clash fl ([.TG] : List Blk) = false) : (Dev.ulChallenge d).rd fl ix = d.rd fl ix :=
  Dev.rd_of_kept (fun b => List.contains ([.TG] : List Blk) b) d _ (kept_ulChallenge _ d  rfl) fl ix hc

theorem rdk_ulMatch (d : Dev)  (fl : Fld) (ix : Nat) (hc : clash fl ([.TG] : List Blk) = false) : (Dev.ulMatch d).rd fl ix = d.rd fl ix :=
  Dev.rd_of_kept (fun b => List.contains ([.TG] : List Blk) b) d _ (kept_ulMatch _ d  rfl) fl ix hc

theorem rdk_ulMismatch (d : Dev)  (fl : Fld) (ix : Nat) (hc : clash fl ([.TG] : List Blk) = false) : (Dev.ulMismatch d).rd fl ix = d.rd fl ix :=
  Dev.rd_of_kept (fun b => List.contains ([.TG] : List Blk) b) d _ (kept_ulMismatch _ d  rfl) fl ix hc

theorem rdk_ulVerify (d : Dev)  (fl : Fld) (ix : Nat) (hc : clash fl ([.TG] : List Blk) = false) : (Dev.ulVerify d).rd fl ix = d.rd fl ix :=
  Dev.rd_of_kept (fun b => List.contains ([.TG] : List Blk) b) d _ (kept_ulVerify _ d  rfl) fl ix hc

theorem rdk_ulKeyProg (d : Dev)  (fl : Fld) (ix : Nat) (hc : clash fl ([.TG] : List Blk) = false) : (Dev.ulKeyProg d).rd fl ix = d.rd fl ix :=
  Dev.rd_of_kept (fun b => List.contains ([.TG] : List Blk) b) d _ (kept_ulKeyProg _ d  rfl) fl ix hc

theorem rdk_ulCommand (d : Dev) (op : Nat) (fl : Fld) (ix : Nat) (hc : clash fl ([.MG, .TG, .SN, .UD] : List Blk) = false) : (Dev.ulCommand d op).rd fl ix = d.rd fl ix :=
  Dev.rd_of_kept (fun b => List.contains ([.MG, .TG, .SN, .UD] : List Blk) b) d _ (kept_ulCommand _ d op rfl rfl rfl rfl) fl ix hc

theorem rdk_tgCommand (d : Dev) (w : Nat) (fl : Fld) (ix : Nat) (hc : clash fl ([.MG, .TG, .SN, .UD] : List Blk) = false) : (Dev.tgCommand d w).rd fl ix = d.rd fl ix :=
  Dev.rd_of_kept (fun b => List.contains ([.MG, .TG, .SN, .UD] : List Blk) b) d _ (kept_tgCommand _ d w rfl rfl rfl rfl) fl ix hc

theorem rdk_cfCommand (d : Dev) (w : Nat) (flash : Option FlashFound) (fl : Fld) (ix : Nat) (hc : clash fl ([.MG, .PW, .PWV, .CF, .TG, .SN, .UD, .DM] : List Blk) = false) : (Dev.cfCommand d w flash).rd fl ix = d.rd fl ix :=
  Dev.rd_of_kept (fun b => List.contains ([.MG, .PW, .PWV, .CF, .TG, .SN, .UD, .DM] : List Blk) b) d _ (kept_cfCommand _ d w flash rfl rfl rfl rfl rfl rfl rfl rfl) fl ix hc

theorem rdk_lbCommand (d : Dev) (w : Nat) (fl : Fld) (ix : Nat) (hc : clash fl ([.MG, .PWV, .SN, .ST, .UD] : List Blk) = false) : (Dev.lbCommand d w).rd fl ix = d.rd fl ix :=
  Dev.rd_of_kept (fun b => List.contains ([.MG, .PWV, .SN, .ST, .UD] : List Blk) b) d _ (kept_lbCommand _ d w rfl rfl rfl rfl rfl) fl ix hc

theorem rdk_clCommand (d : Dev) (w : Nat) (fl : Fld) (ix : Nat) (hc : clash fl ([.MG, .PWV, .CL, .UD, .LN, .LNF, .LNT, .CS] : List Blk) = false) : (Dev.clCommand d w).rd fl ix = d.rd fl ix :=
  Dev.rd_of_kept (fun b => List.contains ([.MG, .PWV, .CL, .UD, .LN, .LNF, .LNT, .CS] : List Blk) b) d _ (kept_clCommand _ d w rfl rfl rfl rfl rfl rfl rfl rfl) fl ix hc

theorem rdk_tbCommand (d : Dev) (w : Nat) (fl : Fld) (ix : Nat) (hc : clash fl ([.MG, .SN, .UD, .TB] : List Blk) = false) : (Dev.tbCommand d w).rd fl ix = d.rd fl ix :=
  Dev.rd_of_kept (fun b => List.contains ([.MG, .SN, .UD, .TB] : List Blk) b) d _ (kept_tbCommand _ d w rfl rfl rfl rfl) fl ix hc

theorem rdk_pgCommand (d : Dev) (r w : Nat) (fl : Fld) (ix : Nat) (hc : clash fl ([.PWV, .UD, .FB] : List Blk) = false) : (Dev.pgCommand d r w).rd fl ix = d.rd fl ix :=
  Dev.rd_of_kept (fun b => List.contains ([.PWV, .UD, .FB] : List Blk) b) d _ (kept_pgCommand _ d r w rfl rfl rfl) fl ix hc

theorem rdk_offAcc (d : Dev)  (fl : Fld) (ix : Nat) (hc : clash fl ([.PW] : List Blk) = false) : (Dev.offAcc d).rd fl ix = d.rd fl ix :=
  Dev.rd_of_kept (fun b => List.contains ([.PW] : List Blk) b) d _ (kept_offAcc _ d  rfl) fl ix hc

theorem rdk_addressMatch (d : Dev)  (fl : Fld) (ix : Nat) (hc : clash fl ([.MG, .PW, .PWV, .CF, .TG, .SN, .UD, .DM] : List Blk) = false) : (Dev.addressMatch d).rd fl ix = d.rd fl ix :=
  Dev.rd_of_kept (fun b => List.contains ([.MG, .PW, .PWV, .CF, .TG, .SN, .UD, .DM] : List Blk) b) d _ (kept_addressMatch _ d  rfl rfl rfl rfl rfl rfl rfl rfl) fl ix hc

theorem rdk_nextAddr (d : Dev)  (fl : Fld) (ix : Nat) (hc : clash fl ([] : List Blk) = false) : (Dev.nextAddr d).rd fl ix = d.rd fl ix :=
  Dev.rd_of_kept (fun b => List.contains ([] : List Blk) b) d _ (kept_nextAddr _ d  ) fl ix hc

theorem rdk_writeErrors (d : Dev) (i3c : Bool) (bytes : List BusByte) (fl : Fld) (ix : Nat) (hc : clash fl ([.MG] : List Blk) = false) : (Dev.writeErrors d i3c bytes).rd fl ix = d.rd fl ix :=
  Dev.rd_of_kept (fun b => List.contains ([.MG] : List Blk) b) d _ (kept_writeErrors _ d i3c bytes rfl) fl ix hc

theorem rdk_cccAnswer (d : Dev) (l : List Byte) (fl : Fld) (ix : Nat) (hc : clash fl ([] : List Blk) = false) : (Dev.cccAnswer d l).rd fl ix = d.rd fl ix :=
  Dev.rd_of_kept (fun b => List.contains ([] : List Blk) b) d _ (kept_cccAnswer _ d l ) fl ix hc

theorem rdk_signalsLost (d : Dev)  (fl : Fld) (ix : Nat) (hc : clash fl ([.MG, .PW, .PWV, .CF, .TG, .SN, .CL, .UD, .LN, .LNF, .LNP, .LNT, .CS, .TSU, .DM] : List Blk) = false) : (Dev.signalsLost d).rd fl ix = d.rd fl ix :=
  Dev.rd_of_kept (fun b => List.contains ([.MG, .PW, .PWV, .CF, .TG, .SN, .CL, .UD, .LN, .LNF, .LNP, .LNT, .CS, .TSU, .DM] : List Blk) b) d _ (kept_signalsLost _ d  rfl rfl rfl rfl rfl rfl rfl rfl rfl rfl rfl rfl rfl rfl rfl) fl ix hc

theorem rdk_codeLock (d : Dev) (l : Nat) (fl : Fld) (ix : Nat) (hc : clash fl ([.LN] : List Blk) = false) : (Dev.codeLock d l).rd fl ix = d.rd fl ix :=
  Dev.rd_of_kept (fun b => List.contains ([.LN] : List Blk) b) d _ (kept_codeLock _ d l rfl) fl ix hc

theorem rdk_codeLost (d : Dev) (l : Nat) (c : LossCause) (fl : Fld) (ix : Nat) (hc : clash fl ([.MG, .PWV, .CL, .LN, .LNF] : List Blk) = false) : (Dev.codeLost d l c).rd fl ix = d.rd fl ix :=
  Dev.rd_of_kept (fun b => List.contains ([.MG, .PWV, .CL, .LN, .LNF] : List Blk) b) d _ (kept_codeLost _ d l c rfl rfl rfl rfl rfl) fl ix hc

theorem rdk_sendGroup (d : Dev) (l g : Nat) (sym : Option (Bool × Nat)) (fl : Fld) (ix : Nat) (hc : clash fl ([] : List Blk) = false) : (Dev.sendGroup d l g sym).rd fl ix = d.rd fl ix :=
  Dev.rd_of_kept (fun b => List.contains ([] : List Blk) b) d _ (kept_sendGroup _ d l g sym ) fl ix hc

theorem rdk_codeGroup (d : Dev) (l g phase : Nat) (fl : Fld) (ix : Nat) (hc : clash fl ([.MG, .PWV, .CL, .LN, .LNF] : List Blk) = false) : (Dev.codeGroup d l g phase).rd fl ix = d.rd fl ix :=
  Dev.rd_of_kept (fun b => List.contains ([.MG, .PWV, .CL, .LN, .LNF] : List Blk) b) d _ (kept_codeGroup _ d l g phase rfl rfl rfl rfl rfl) fl ix hc

theorem rdk_sendBlock (d : Dev) (l h : Nat) (bad : Bool) (fl : Fld) (ix : Nat) (hc : clash fl ([] : List Blk) = false) : (Dev.sendBlock d l h bad).rd fl ix = d.rd fl ix :=
  Dev.rd_of_kept (fun b => List.contains ([] : List Blk) b) d _ (kept_sendBlock _ d l h bad ) fl ix hc

theorem rdk_syncHeader (d : Dev) (l h : Nat) (fl : Fld) (ix : Nat) (hc : clash fl ([.MG, .PWV, .CL, .LN, .LNF] : List Blk) = false) : (Dev.syncHeader d l h).rd fl ix = d.rd fl ix :=
  Dev.rd_of_kept (fun b => List.contains ([.MG, .PWV, .CL, .LN, .LNF] : List Blk) b) d _ (kept_syncHeader _ d l h rfl rfl rfl rfl rfl) fl ix hc

theorem rdk_recordPage (d : Dev) (k : Nat) (isNext : Bool) (page : BitVec 48) (fl : Fld) (ix : Nat) (hc : clash fl ([.CS] : List Blk) = false) : (Dev.recordPage d k isNext page).rd fl ix = d.rd fl ix :=
  Dev.rd_of_kept (fun b => List.contains ([.CS] : List Blk) b) d _ (kept_recordPage _ d k isNext page rfl) fl ix hc

theorem rdk_writeResolution (d : Dev) (n : Nat) (fl : Fld) (ix : Nat) (hc : clash fl ([.CS] : List Blk) = false) : (Dev.writeResolution d n).rd fl ix = d.rd fl ix :=
  Dev.rd_of_kept (fun b => List.contains ([.CS] : List Blk) b) d _ (kept_writeResolution _ d n rfl) fl ix hc

theorem rdk_pageInNegotiate (d : Dev) (n : Nat) (s : Side) (isNext : Bool) (page : BitVec 48) (fl : Fld) (ix : Nat) (hc : clash fl ([.CS] : List Blk) = false) : (Dev.pageInNegotiate d n s isNext page).rd fl ix = d.rd fl ix :=
  Dev.rd_of_kept (fun b => List.contains ([.CS] : List Blk) b) d _ (kept_pageInNegotiate _ d n s isNext page rfl) fl ix hc

theorem rdk_ownRequestOn (d : Dev) (l : Nat) (trained : Bool) (fl : Fld) (ix : Nat) (hc : clash fl ([] : List Blk) = false) : (Dev.ownRequestOn d l trained).rd fl ix = d.rd fl ix :=
  Dev.rd_of_kept (fun b => List.contains ([] : List Blk) b) d _ (kept_ownRequestOn _ d l trained ) fl ix hc

theorem rdk_answer (d : Dev) (l code : Nat) (fl : Fld) (ix : Nat) (hc : clash fl ([] : List Blk) = false) : (Dev.answer d l code).rd fl ix = d.rd fl ix :=
  Dev.rd_of_kept (fun b => List.contains ([] : List Blk) b) d _ (kept_answer _ d l code ) fl ix hc

theorem rdk_tickTime (d : Dev)  (fl : Fld) (ix : Nat) (hc : clash fl ([.MG, .SN, .UD, .TB] : List Blk) = false) : (Dev.tickTime d).rd fl ix = d.rd fl ix :=
  Dev.rd_of_kept (fun b => List.contains ([.MG, .SN, .UD, .TB] : List Blk) b) d _ (kept_tickTime _ d  rfl rfl rfl rfl) fl ix hc

theorem rdk_tickTimer (d : Dev) (k : Nat) (fl : Fld) (ix : Nat) (hc : clash fl ([.MG, .PW, .PWV, .CF, .TG, .SN, .UD, .DM] : List Blk) = false) : (Dev.tickTimer d k).rd fl ix = d.rd fl ix :=
  Dev.rd_of_kept (fun b => List.contains ([.MG, .PW, .PWV, .CF, .TG, .SN, .UD, .DM] : List Blk) b) d _ (kept_tickTimer _ d k rfl rfl rfl rfl rfl rfl rfl rfl) fl ix hc

theorem rdk_tickUnlock (d : Dev)  (fl : Fld) (ix : Nat) (hc : clash fl ([.MG, .TG, .SN, .UD] : List Blk) = false) : (Dev.tickUnlock d).rd fl ix = d.rd fl ix :=
  Dev.rd_of_kept (fun b => List.contains ([.MG, .TG, .SN, .UD] : List Blk) b) d _ (kept_tickUnlock _ d  rfl rfl rfl rfl) fl ix hc

theorem rdk_tickHold (d : Dev)  (fl : Fld) (ix : Nat) (hc : clash fl ([.MG, .SN, .UD, .TB, .TS] : List Blk) = false) : (Dev.tickHold d).rd fl ix = d.rd fl ix :=
  Dev.rd_of_kept (fun b => List.contains ([.MG, .SN, .UD, .TB, .TS] : List Blk) b) d _ (kept_tickHold _ d  rfl rfl rfl rfl rfl) fl ix hc

theorem rdk_tickLoad (d : Dev)  (fl : Fld) (ix : Nat) (hc : clash fl ([] : List Blk) = false) : (Dev.tickLoad d).rd fl ix = d.rd fl ix :=
  Dev.rd_of_kept (fun b => List.contains ([] : List Blk) b) d _ (kept_tickLoad _ d  ) fl ix hc

theorem rdk_tickFec (d : Dev)  (fl : Fld) (ix : Nat) (hc : clash fl ([.LN] : List Blk) = false) : (Dev.tickFec d).rd fl ix = d.rd fl ix :=
  Dev.rd_of_kept (fun b => List.contains ([.LN] : List Blk) b) d _ (kept_tickFec _ d  rfl) fl ix hc

theorem rdk_tickEngine (d : Dev)  (fl : Fld) (ix : Nat) (hc : clash fl ([.MG, .SN, .UD, .TB, .TS] : List Blk) = false) : (Dev.tickEngine d).rd fl ix = d.rd fl ix :=
  Dev.rd_of_kept (fun b => List.contains ([.MG, .SN, .UD, .TB, .TS] : List Blk) b) d _ (kept_tickEngine _ d  rfl rfl rfl rfl rfl) fl ix hc

theorem rdk_regionsBack (d : Dev)  (fl : Fld) (ix : Nat) (hc : clash fl ([.MG, .PWV, .FB, .MT] : List Blk) = false) : (Dev.regionsBack d).rd fl ix = d.rd fl ix :=
  Dev.rd_of_kept (fun b => List.contains ([.MG, .PWV, .FB, .MT] : List Blk) b) d _ (kept_regionsBack _ d  rfl rfl rfl rfl) fl ix hc

end Sys2Proof.Machine
end

