-- ==== Sys2Proof/Laws/StateFrame.lean ====
section
/-! SUPPORT. What the operations on the whole state leave alone in the part and in Tier M: one lemma per operation, in the manner of
Frame.lean. -/
set_option linter.unusedVariables false
set_option linter.unusedSimpArgs false
namespace Sys2Proof.Machine

/-- From `o` to `s` the part is kept outside the blocks `M`, and Tier M's bytes too unless `mm`. -/
def Stays (M : Blk → Bool) (mm : Bool) (o s : State) : Prop := s.dev.kept M = o.dev.kept M ∧ (mm = false → s.mem = o.mem)

theorem stays_refl (M : Blk → Bool) (mm : Bool) (s : State) : Stays M mm s s := ⟨rfl, fun _ => rfl⟩
theorem stays_mk (M : Blk → Bool) (mm : Bool) (o s : State) (d : Dev) (hd : d.kept M = s.dev.kept M) (hk : Stays M mm o s) :
    Stays M mm o ⟨d, s.mem, s.pending⟩ := ⟨hd.trans hk.1, hk.2⟩
theorem stays_mem (M : Blk → Bool) (mm : Bool) (o s : State) (d : Dev) (m : Memory) (hd : d.kept M = s.dev.kept M) (hMEM : mm = true)
    (hk : Stays M mm o s) : Stays M mm o ⟨d, m, s.pending⟩ := ⟨hd.trans hk.1, fun h => by rw [hMEM] at h; cases h⟩
theorem stays_on (M : Blk → Bool) (mm : Bool) (o s : State) (g : Dev → Dev) (hg : ∀ d, (g d).kept M = d.kept M) (hk : Stays M mm o s) :
    Stays M mm o (s.on g) := ⟨(hg s.dev).trans hk.1, hk.2⟩
theorem stays_foldl {α : Type} (M : Blk → Bool) (mm : Bool) (o : State) (g : State → α → State)
    (hg : ∀ s x, Stays M mm o s → Stays M mm o (g s x)) (l : List α) (s : State) (hk : Stays M mm o s) :
    Stays M mm o (l.foldl g s) := by
  induction l generalizing s with
  | nil => exact hk
  | cons x t ih => exact ih _ (hg s x hk)
theorem stays_foldl_via {α β : Type} (M : Blk → Bool) (mm : Bool) (o : State) (p : β → State) (g : β → α → β)
    (hg : ∀ s x, Stays M mm o (p s) → Stays M mm o (p (g s x))) (l : List α) (s : β) (hk : Stays M mm o (p s)) :
    Stays M mm o (p (l.foldl g s)) := by
  induction l generalizing s with
  | nil => exact hk
  | cons x t ih => exact ih _ (hg s x hk)
theorem stays_each (M : Blk → Bool) (mm : Bool) (o s : State) (l : List Nat) (g : Nat → State → State)
    (hg : ∀ n s, Stays M mm o s → Stays M mm o (g n s)) (hk : Stays M mm o s) :
    Stays M mm o (s.each l g) := stays_foldl M mm o _ (fun s n w => hg n s w) l s hk

@[simp] theorem kept_checkWord (M : Blk → Bool) (d : Dev) (w master port : Nat) (write : Bool) (seen : EccSeen) (hMG : M .MG = true) (hSN : M .SN = true)
    (hUD : M .UD = true) (hMT : M .MT = true) : (Dev.checkWord d w master port write seen).1.kept M = d.kept M := by
  unfold Dev.checkWord; split
  · rfl
  · exact kept_bump M d _ _ hMT
  · exact kept_uncorrectable M d _ _ _ _ _ hMG hSN hUD hMT
@[simp] theorem kept_takePages (M : Blk → Bool) (d : Dev) (fuel n held : Nat) (pte : List EccSeen) (got : List Nat) (hMG : M .MG = true) (hSN : M .SN = true)
    (hUD : M .UD = true) (hPU : M .PU = true) : (Dev.takePages d fuel n held pte got).1.kept M = d.kept M := by
  induction fuel generalizing d n pte got with
  | zero => exact kept_freePages M d _ hPU
  | succ k ih =>
    unfold Dev.takePages
    split
    · rfl
    · split
      · exact kept_freePages M d _ hPU
      · dsimp only; (repeat' split) <;> simp [ih, hMG, hSN, hUD, hPU]

theorem stays_readWord (M : Blk → Bool) (mm : Bool) (b0 s : State) (w master port : Nat) (seen : EccSeen) (hMG : M .MG = true) (hSN : M .SN = true) (hUD : M .UD = true) (hMT : M .MT = true) (hk : Stays M mm b0 s) : Stays M mm b0 (State.readWord s w master port seen).1 := by
  unfold State.readWord; exact stays_mk M mm b0 s _ (by first | assumption | rfl | (simp [blk, hMG, hSN, hUD, hMT]; done) | ((repeat' split) <;> first | rfl | assumption | (simp [blk, hMG, hSN, hUD, hMT]; done))) hk

theorem stays_writeWord (M : Blk → Bool) (mm : Bool) (b0 s : State) (w view mask data master port : Nat) (seen : EccSeen) (hMG : M .MG = true) (hSN : M .SN = true) (hUD : M .UD = true) (hMT : M .MT = true) (hMEM : mm = true) (hk : Stays M mm b0 s) : Stays M mm b0 (State.writeWord s w view mask data master port seen).1 := by
  unfold State.writeWord; dsimp only
  (repeat' split)
  · exact stays_mem M mm b0 s _ _ (by first | assumption | rfl | (simp [blk, hMG, hSN, hUD, hMT]; done) | ((repeat' split) <;> first | rfl | assumption | (simp [blk, hMG, hSN, hUD, hMT]; done))) hMEM hk
  · exact stays_mk M mm b0 s _ (by first | assumption | rfl | (simp [blk, hMG, hSN, hUD, hMT]; done) | ((repeat' split) <;> first | rfl | assumption | (simp [blk, hMG, hSN, hUD, hMT]; done))) hk
  · exact stays_mem M mm b0 s _ _ (by first | assumption | rfl | (simp [blk, hMG, hSN, hUD, hMT]; done) | ((repeat' split) <;> first | rfl | assumption | (simp [blk, hMG, hSN, hUD, hMT]; done))) hMEM hk

theorem stays_serveOp (M : Blk → Bool) (mm : Bool) (b0 s : State) (o : Op) (ecc : List EccSeen) (hMG : M .MG = true) (hSN : M .SN = true) (hUD : M .UD = true) (hMT : M .MT = true) (hMEM : mm = true) (hk : Stays M mm b0 s) : Stays M mm b0 (State.serveOp s o ecc).1 := by
  unfold State.serveOp; dsimp only
  split
  · exact hk
  · split
    · exact hk
    · split
      · refine stays_foldl_via M mm b0 Prod.fst _ (fun p k w => ?_) _ _ ?_
        · exact stays_writeWord M mm b0 p.1 _ _ _ _ _ _ _ hMG hSN hUD hMT hMEM w
        · exact hk
      · refine stays_foldl_via M mm b0 Prod.fst _ (fun p k w => ?_) _ _ ?_
        · exact stays_readWord M mm b0 p.1 _ _ _ _ hMG hSN hUD hMT w
        · exact hk

theorem stays_serveIn (M : Blk → Bool) (mm : Bool) (b0 s : State) (o : Op) (ecc : List EccSeen) (hMG : M .MG = true) (hSN : M .SN = true) (hUD : M .UD = true) (hMT : M .MT = true) (hMEM : mm = true) (hk : Stays M mm b0 s) : Stays M mm b0 (State.serveIn s o ecc) := by
  unfold State.serveIn; (try dsimp only)
  (repeat' split) <;> ((repeat' (first | with_reducible assumption | with_reducible refine stays_serveOp M mm b0 _ _ _ hMG hSN hUD hMT hMEM ?_ | with_reducible refine stays_on M mm b0 _ _ (fun d => ?_) ?_ | with_reducible refine stays_each M mm b0 _ _ _ (fun n s hk => ?_) ?_ | with_reducible refine stays_foldl M mm b0 _ (fun s x hk => ?_) _ _ ?_ | with_reducible refine stays_mk M mm b0 _ _ ?_ ?_)) <;> (try dsimp only) <;> first | assumption | rfl | (simp [blk, hMG, hSN, hUD, hMT]; done) | ((repeat' split) <;> first | rfl | assumption | (simp [blk, hMG, hSN, hUD, hMT]; done)))

theorem stays_serveAll (M : Blk → Bool) (mm : Bool) (b0 s : State) (l : List Op) (seen : List (List EccSeen)) (hMG : M .MG = true) (hSN : M .SN = true) (hUD : M .UD = true) (hMT : M .MT = true) (hMEM : mm = true) (hk : Stays M mm b0 s) : Stays M mm b0 (State.serveAll s l seen) := by
  induction l generalizing s seen with
  | nil => exact hk
  | cons o rest ih => exact ih _ _ (stays_serveIn M mm b0 s o _ hMG hSN hUD hMT hMEM hk)

theorem stays_serve (M : Blk → Bool) (mm : Bool) (b0 s : State) (o : Op) (ecc : List EccSeen) (earlier : List (List EccSeen)) (hMG : M .MG = true) (hSN : M .SN = true) (hUD : M .UD = true) (hMT : M .MT = true) (hMEM : mm = true) (hk : Stays M mm b0 s) : Stays M mm b0 (State.serve s o ecc earlier) := by
  unfold State.serve; (try dsimp only)
  (repeat' split) <;> ((repeat' (first | with_reducible assumption | with_reducible refine stays_serveAll M mm b0 _ _ _ hMG hSN hUD hMT hMEM ?_ | with_reducible refine stays_serveIn M mm b0 _ _ _ hMG hSN hUD hMT hMEM ?_ | with_reducible refine stays_on M mm b0 _ _ (fun d => ?_) ?_ | with_reducible refine stays_each M mm b0 _ _ _ (fun n s hk => ?_) ?_ | with_reducible refine stays_foldl M mm b0 _ (fun s x hk => ?_) _ _ ?_ | with_reducible refine stays_mk M mm b0 _ _ ?_ ?_)) <;> (try dsimp only) <;> first | assumption | rfl | (simp [blk, hMG, hSN, hUD, hMT]; done) | ((repeat' split) <;> first | rfl | assumption | (simp [blk, hMG, hSN, hUD, hMT]; done)))

theorem stays_meetWord (M : Blk → Bool) (mm : Bool) (b0 s : State) (w master port : Nat) (write : Bool) (seen : EccSeen) (hMG : M .MG = true) (hSN : M .SN = true) (hUD : M .UD = true) (hMT : M .MT = true) (hMEM : mm = true) (hk : Stays M mm b0 s) : Stays M mm b0 (State.meetWord s w master port write seen) := by
  unfold State.meetWord; (try dsimp only)
  (repeat' split) <;> ((repeat' (first | with_reducible assumption | with_reducible refine stays_serveAll M mm b0 _ _ _ hMG hSN hUD hMT hMEM ?_ | with_reducible refine stays_on M mm b0 _ _ (fun d => ?_) ?_ | with_reducible refine stays_each M mm b0 _ _ _ (fun n s hk => ?_) ?_ | with_reducible refine stays_foldl M mm b0 _ (fun s x hk => ?_) _ _ ?_ | with_reducible refine stays_mk M mm b0 _ _ ?_ ?_)) <;> (try dsimp only) <;> first | assumption | rfl | (simp [blk, hMG, hSN, hUD, hMT]; done) | ((repeat' split) <;> first | rfl | assumption | (simp [blk, hMG, hSN, hUD, hMT]; done)))

theorem stays_hardRead (M : Blk → Bool) (mm : Bool) (b0 s : State) (w master port : Nat) (seen : EccSeen) (hMG : M .MG = true) (hSN : M .SN = true) (hUD : M .UD = true) (hMT : M .MT = true) (hMEM : mm = true) (hk : Stays M mm b0 s) : Stays M mm b0 (State.hardRead s w master port seen).1 := by
  unfold State.hardRead; (try dsimp only)
  (repeat' split) <;> ((repeat' (first | with_reducible assumption | with_reducible refine stays_meetWord M mm b0 _ _ _ _ _ _ hMG hSN hUD hMT hMEM ?_ | with_reducible refine stays_readWord M mm b0 _ _ _ _ _ hMG hSN hUD hMT ?_ | with_reducible refine stays_on M mm b0 _ _ (fun d => ?_) ?_ | with_reducible refine stays_each M mm b0 _ _ _ (fun n s hk => ?_) ?_ | with_reducible refine stays_foldl M mm b0 _ (fun s x hk => ?_) _ _ ?_ | with_reducible refine stays_mk M mm b0 _ _ ?_ ?_)) <;> (try dsimp only) <;> first | assumption | rfl | (simp [blk, hMG, hSN, hUD, hMT]; done) | ((repeat' split) <;> first | rfl | assumption | (simp [blk, hMG, hSN, hUD, hMT]; done)))

theorem stays_hardWrite (M : Blk → Bool) (mm : Bool) (b0 s : State) (w data master port : Nat) (hMG : M .MG = true) (hSN : M .SN = true) (hUD : M .UD = true) (hMT : M .MT = true) (hMEM : mm = true) (hk : Stays M mm b0 s) : Stays M mm b0 (State.hardWrite s w data master port) := by
  unfold State.hardWrite; (try dsimp only)
  (repeat' split) <;> ((repeat' (first | with_reducible assumption | with_reducible refine stays_meetWord M mm b0 _ _ _ _ _ _ hMG hSN hUD hMT hMEM ?_ | with_reducible refine stays_writeWord M mm b0 _ _ _ _ _ _ _ _ hMG hSN hUD hMT hMEM ?_ | with_reducible refine stays_on M mm b0 _ _ (fun d => ?_) ?_ | with_reducible refine stays_each M mm b0 _ _ _ (fun n s hk => ?_) ?_ | with_reducible refine stays_foldl M mm b0 _ (fun s x hk => ?_) _ _ ?_ | with_reducible refine stays_mk M mm b0 _ _ ?_ ?_)) <;> (try dsimp only) <;> first | assumption | rfl | (simp [blk, hMG, hSN, hUD, hMT]; done) | ((repeat' split) <;> first | rfl | assumption | (simp [blk, hMG, hSN, hUD, hMT]; done)))

theorem stays_respond (M : Blk → Bool) (mm : Bool) (b0 s : State) (master port tag : Nat) (ecc : List EccSeen) (earlier : List (List EccSeen)) (hMG : M .MG = true) (hSN : M .SN = true) (hUD : M .UD = true) (hFB : M .FB = true) (hMT : M .MT = true) (hMEM : mm = true) (hk : Stays M mm b0 s) : Stays M mm b0 (State.respond s master port tag ecc earlier) := by
  unfold State.respond; (try dsimp only)
  (repeat' split) <;> ((repeat' (first | with_reducible assumption | with_reducible refine stays_serve M mm b0 _ _ _ _ hMG hSN hUD hMT hMEM ?_ | with_reducible refine stays_on M mm b0 _ _ (fun d => ?_) ?_ | with_reducible refine stays_each M mm b0 _ _ _ (fun n s hk => ?_) ?_ | with_reducible refine stays_foldl M mm b0 _ (fun s x hk => ?_) _ _ ?_ | with_reducible refine stays_mk M mm b0 _ _ ?_ ?_)) <;> (try dsimp only) <;> first | assumption | rfl | (simp [blk, hMG, hSN, hUD, hFB, hMT]; done) | ((repeat' split) <;> first | rfl | assumption | (simp [blk, hMG, hSN, hUD, hFB, hMT]; done)))

theorem stays_windowAccess (M : Blk → Bool) (mm : Bool) (b0 s : State) (o : Nat) (write : Option Nat) (seen : EccSeen) (hMG : M .MG = true) (hSN : M .SN = true) (hUD : M .UD = true) (hFB : M .FB = true) (hMT : M .MT = true) (hMEM : mm = true) (hk : Stays M mm b0 s) : Stays M mm b0 (State.windowAccess s o write seen) := by
  unfold State.windowAccess
  extract_lets a beats op busy s1
  have h1 : Stays M mm b0 s1 := stays_on M mm b0 _ _ (fun d => by simp [blk, hMG, hSN, hUD, hFB, hMT]) hk
  clear_value s1 busy op
  split
  · exact h1
  · exact stays_respond M mm b0 _ _ _ _ _ _ hMG hSN hUD hFB hMT hMEM h1

theorem stays_windowRead (M : Blk → Bool) (mm : Bool) (b0 s : State) (o : Nat) (seen : EccSeen) (hMG : M .MG = true) (hPW : M .PW = true) (hSN : M .SN = true) (hUD : M .UD = true) (hFB : M .FB = true) (hMT : M .MT = true) (hMEM : mm = true) (hk : Stays M mm b0 s) : Stays M mm b0 (State.windowRead s o seen) := by
  unfold State.windowRead; (try dsimp only)
  (repeat' split) <;> ((repeat' (first | with_reducible assumption | with_reducible refine stays_windowAccess M mm b0 _ _ _ _ hMG hSN hUD hFB hMT hMEM ?_ | with_reducible refine stays_on M mm b0 _ _ (fun d => ?_) ?_ | with_reducible refine stays_each M mm b0 _ _ _ (fun n s hk => ?_) ?_ | with_reducible refine stays_foldl M mm b0 _ (fun s x hk => ?_) _ _ ?_ | with_reducible refine stays_mk M mm b0 _ _ ?_ ?_)) <;> (try dsimp only) <;> first | assumption | rfl | (simp [blk, hMG, hPW, hSN, hUD, hFB, hMT]; done) | ((repeat' split) <;> first | rfl | assumption | (simp [blk, hMG, hPW, hSN, hUD, hFB, hMT]; done)))

theorem stays_windowWrite (M : Blk → Bool) (mm : Bool) (b0 s : State) (o v : Nat) (seen : EccSeen) (hMG : M .MG = true) (hPW : M .PW = true) (hSN : M .SN = true) (hUD : M .UD = true) (hFB : M .FB = true) (hMT : M .MT = true) (hMEM : mm = true) (hk : Stays M mm b0 s) : Stays M mm b0 (State.windowWrite s o v seen) := by
  unfold State.windowWrite; (try dsimp only)
  (repeat' split) <;> ((repeat' (first | with_reducible assumption | with_reducible refine stays_windowAccess M mm b0 _ _ _ _ hMG hSN hUD hFB hMT hMEM ?_ | with_reducible refine stays_on M mm b0 _ _ (fun d => ?_) ?_ | with_reducible refine stays_each M mm b0 _ _ _ (fun n s hk => ?_) ?_ | with_reducible refine stays_foldl M mm b0 _ (fun s x hk => ?_) _ _ ?_ | with_reducible refine stays_mk M mm b0 _ _ ?_ ?_)) <;> (try dsimp only) <;> first | assumption | rfl | (simp [blk, hMG, hPW, hSN, hUD, hFB, hMT]; done) | ((repeat' split) <;> first | rfl | assumption | (simp [blk, hMG, hPW, hSN, hUD, hFB, hMT]; done)))

theorem stays_repairClear (M : Blk → Bool) (mm : Bool) (b0 s : State) (bank : Nat) (hST : M .ST = true) (hMEM : mm = true) (hk : Stays M mm b0 s) : Stays M mm b0 (State.repairClear s bank) := by
  unfold State.repairClear; dsimp only
  split
  · exact stays_on M mm b0 _ _ (fun d => by simp [blk, hST]) hk
  · exact stays_mem M mm b0 s _ _ (by first | assumption | rfl | (simp [blk, hST]; done) | ((repeat' split) <;> first | rfl | assumption | (simp [blk, hST]; done))) hMEM hk

theorem stays_pageMeets (M : Blk → Bool) (mm : Bool) (b0 s : State) (r p : Nat) (hMG : M .MG = true) (hSN : M .SN = true) (hUD : M .UD = true) (hMT : M .MT = true) (hMEM : mm = true) (hk : Stays M mm b0 s) : Stays M mm b0 (State.pageMeets s r p) := by
  unfold State.pageMeets; (try dsimp only)
  (repeat' split) <;> ((repeat' (first | with_reducible assumption | with_reducible refine stays_meetWord M mm b0 _ _ _ _ _ _ hMG hSN hUD hMT hMEM ?_ | with_reducible refine stays_on M mm b0 _ _ (fun d => ?_) ?_ | with_reducible refine stays_each M mm b0 _ _ _ (fun n s hk => ?_) ?_ | with_reducible refine stays_foldl M mm b0 _ (fun s x hk => ?_) _ _ ?_ | with_reducible refine stays_mk M mm b0 _ _ ?_ ?_)) <;> (try dsimp only) <;> first | assumption | rfl | (simp [blk, hMG, hSN, hUD, hMT]; done) | ((repeat' split) <;> first | rfl | assumption | (simp [blk, hMG, hSN, hUD, hMT]; done)))

theorem stays_writeRecord (M : Blk → Bool) (mm : Bool) (b0 s : State) (ps : List Nat) (data : List Byte) (hMG : M .MG = true) (hSN : M .SN = true) (hUD : M .UD = true) (hMT : M .MT = true) (hMEM : mm = true) (hk : Stays M mm b0 s) : Stays M mm b0 (State.writeRecord s ps data) := by
  unfold State.writeRecord; (try dsimp only)
  (repeat' split) <;> ((repeat' (first | with_reducible assumption | with_reducible refine stays_hardWrite M mm b0 _ _ _ _ _ hMG hSN hUD hMT hMEM ?_ | with_reducible refine stays_on M mm b0 _ _ (fun d => ?_) ?_ | with_reducible refine stays_each M mm b0 _ _ _ (fun n s hk => ?_) ?_ | with_reducible refine stays_foldl M mm b0 _ (fun s x hk => ?_) _ _ ?_ | with_reducible refine stays_mk M mm b0 _ _ ?_ ?_)) <;> (try dsimp only) <;> first | assumption | rfl | (simp [blk, hMG, hSN, hUD, hMT]; done) | ((repeat' split) <;> first | rfl | assumption | (simp [blk, hMG, hSN, hUD, hMT]; done)))

theorem stays_enqueue (M : Blk → Bool) (mm : Bool) (b0 s : State) (q : Nat) (data : List Byte) (pte : List EccSeen) (hMG : M .MG = true) (hPWV : M .PWV = true) (hSN : M .SN = true) (hUD : M .UD = true) (hMT : M .MT = true) (hPU : M .PU = true) (hMEM : mm = true) (hk : Stays M mm b0 s) : Stays M mm b0 (State.enqueue s q data pte).1 := by
  unfold State.enqueue; dsimp only
  have hp := kept_takePages M s.dev ((data.length + 511) / 512 + pte.length + 1) ((data.length + 511) / 512) (s.dev.heldBack q) pte [] hMG hSN hUD hPU
  split
  · exact hk
  · split
    · exact hk
    · split
      · exact stays_on M mm b0 _ _ (fun d => by simp [blk, hMG, hPWV, hSN, hUD, hMT, hPU]) hk
      · split
        · rename_i heq
          rw [heq] at hp; dsimp only at hp
          refine stays_mk M mm b0 s _ ?_ hk
          simp [blk, hp, hMG, hPWV, hSN, hUD, hPU]
        · rename_i heq
          rw [heq] at hp; dsimp only at hp
          refine stays_writeRecord M mm b0 _ _ _ hMG hSN hUD hMT hMEM (stays_mk M mm b0 s _ ?_ hk)
          split <;> simp [blk, hp, hMG, hPWV, hSN, hUD, hPU]

theorem stays_page (M : Blk → Bool) (mm : Bool) (b0 : State) (w : Walk) (p fill : Nat) (pte : EccSeen) (hMG : M .MG = true) (hSN : M .SN = true) (hUD : M .UD = true) (hMT : M .MT = true) (hPU : M .PU = true) (hMEM : mm = true) (hk : Stays M mm b0 w.s) : Stays M mm b0 (Walk.page w p fill pte).s := by
  unfold Walk.page; dsimp only
  split
  · exact hk
  · split
    · exact stays_mk M mm b0 _ _ (by first | assumption | rfl | (simp [blk, hMG, hSN, hUD, hMT, hPU]; done) | ((repeat' split) <;> first | rfl | assumption | (simp [blk, hMG, hSN, hUD, hMT, hPU]; done))) hk
    · refine stays_foldl_via M mm b0 Walk.s _ (fun w k hw => ?_) _ _ (stays_mk M mm b0 _ _ (by first | assumption | rfl | (simp [blk, hMG, hSN, hUD, hMT, hPU]; done) | ((repeat' split) <;> first | rfl | assumption | (simp [blk, hMG, hSN, hUD, hMT, hPU]; done))) hk)
      dsimp only
      split
      · exact stays_on M mm b0 _ _ (fun d => by simp [blk, hMG, hSN, hUD, hMT, hPU]) (stays_hardRead M mm b0 w.s _ _ _ _ hMG hSN hUD hMT hMEM hw)
      · exact stays_hardRead M mm b0 w.s _ _ _ _ hMG hSN hUD hMT hMEM hw

theorem stays_takeRecord (M : Blk → Bool) (mm : Bool) (b0 s : State) (q : Nat) (pte seen : List EccSeen) (hMG : M .MG = true) (hPWV : M .PWV = true) (hSN : M .SN = true) (hUD : M .UD = true) (hMT : M .MT = true) (hPU : M .PU = true) (hMEM : mm = true) (hk : Stays M mm b0 s) : Stays M mm b0 (State.takeRecord s q pte seen).1 := by
  unfold State.takeRecord; dsimp only
  refine stays_mk M mm b0 _ _ (by first | assumption | rfl | (simp [blk, hMG, hPWV, hSN, hUD, hMT, hPU]; done) | ((repeat' split) <;> first | rfl | assumption | (simp [blk, hMG, hPWV, hSN, hUD, hMT, hPU]; done))) (stays_foldl_via M mm b0 Walk.s _ (fun w k hw => ?_) _ _ ?_)
  · exact stays_page M mm b0 w _ _ _ hMG hSN hUD hMT hPU hMEM hw
  · exact hk

theorem stays_serveQueue (M : Blk → Bool) (mm : Bool) (b0 s : State) (r : QReq) (hMG : M .MG = true) (hPWV : M .PWV = true) (hSN : M .SN = true) (hUD : M .UD = true) (hMT : M .MT = true) (hPU : M .PU = true) (hMEM : mm = true) (hk : Stays M mm b0 s) : Stays M mm b0 (State.serveQueue s r) := by
  unfold State.serveQueue; (try dsimp only)
  (repeat' split) <;> ((repeat' (first | with_reducible assumption | with_reducible refine stays_enqueue M mm b0 _ _ _ _ hMG hPWV hSN hUD hMT hPU hMEM ?_ | with_reducible refine stays_takeRecord M mm b0 _ _ _ _ hMG hPWV hSN hUD hMT hPU hMEM ?_ | with_reducible refine stays_on M mm b0 _ _ (fun d => ?_) ?_ | with_reducible refine stays_each M mm b0 _ _ _ (fun n s hk => ?_) ?_ | with_reducible refine stays_foldl M mm b0 _ (fun s x hk => ?_) _ _ ?_ | with_reducible refine stays_mk M mm b0 _ _ ?_ ?_)) <;> (try dsimp only) <;> first | assumption | rfl | (simp [blk, hMG, hPWV, hSN, hUD, hMT, hPU]; done) | ((repeat' split) <;> first | rfl | assumption | (simp [blk, hMG, hPWV, hSN, hUD, hMT, hPU]; done)))

theorem stays_queueRequest (M : Blk → Bool) (mm : Bool) (b0 s : State) (r : QReq) (hMG : M .MG = true) (hPWV : M .PWV = true) (hSN : M .SN = true) (hUD : M .UD = true) (hMT : M .MT = true) (hPU : M .PU = true) (hMEM : mm = true) (hk : Stays M mm b0 s) : Stays M mm b0 (State.queueRequest s r) := by
  unfold State.queueRequest; (try dsimp only)
  (repeat' split) <;> ((repeat' (first | with_reducible assumption | with_reducible refine stays_serveQueue M mm b0 _ _ hMG hPWV hSN hUD hMT hPU hMEM ?_ | with_reducible refine stays_on M mm b0 _ _ (fun d => ?_) ?_ | with_reducible refine stays_each M mm b0 _ _ _ (fun n s hk => ?_) ?_ | with_reducible refine stays_foldl M mm b0 _ (fun s x hk => ?_) _ _ ?_ | with_reducible refine stays_mk M mm b0 _ _ ?_ ?_)) <;> (try dsimp only) <;> first | assumption | rfl | (simp [blk, hMG, hPWV, hSN, hUD, hMT, hPU]; done) | ((repeat' split) <;> first | rfl | assumption | (simp [blk, hMG, hPWV, hSN, hUD, hMT, hPU]; done)))

theorem stays_serveWaits (M : Blk → Bool) (mm : Bool) (b0 s : State)  (hMG : M .MG = true) (hPWV : M .PWV = true) (hSN : M .SN = true) (hUD : M .UD = true) (hMT : M .MT = true) (hPU : M .PU = true) (hMEM : mm = true) (hk : Stays M mm b0 s) : Stays M mm b0 (State.serveWaits s) := by
  unfold State.serveWaits; (try dsimp only)
  (repeat' split) <;> ((repeat' (first | with_reducible assumption | with_reducible refine stays_serveQueue M mm b0 _ _ hMG hPWV hSN hUD hMT hPU hMEM ?_ | with_reducible refine stays_on M mm b0 _ _ (fun d => ?_) ?_ | with_reducible refine stays_each M mm b0 _ _ _ (fun n s hk => ?_) ?_ | with_reducible refine stays_foldl M mm b0 _ (fun s x hk => ?_) _ _ ?_ | with_reducible refine stays_mk M mm b0 _ _ ?_ ?_)) <;> (try dsimp only) <;> first | assumption | rfl | (simp [blk, hMG, hPWV, hSN, hUD, hMT, hPU]; done) | ((repeat' split) <;> first | rfl | assumption | (simp [blk, hMG, hPWV, hSN, hUD, hMT, hPU]; done)))

theorem stays_dmSelect (M : Blk → Bool) (mm : Bool) (b0 s : State) (seq : Nat) (seen : List EccSeen) (hMG : M .MG = true) (hSN : M .SN = true) (hUD : M .UD = true) (hMT : M .MT = true) (hDM : M .DM = true) (hMEM : mm = true) (hk : Stays M mm b0 s) : Stays M mm b0 (State.dmSelect s seq seen) := by
  unfold State.dmSelect; dsimp only
  split
  · exact stays_on M mm b0 _ _ (fun d => by simp [blk, hMG, hSN, hUD, hMT, hDM]) (stays_on M mm b0 _ _ (fun d => by simp [blk, hMG, hSN, hUD, hMT, hDM]) hk)
  · refine stays_on M mm b0 _ _ (fun d => by simp [blk, hMG, hSN, hUD, hMT, hDM]) (stays_foldl_via M mm b0 Prod.fst _ (fun p k w => ?_) _ _ ?_)
    · exact stays_hardRead M mm b0 p.1 _ _ _ _ hMG hSN hUD hMT hMEM w
    · exact stays_on M mm b0 _ _ (fun d => by simp [blk, hMG, hSN, hUD, hMT, hDM]) hk

theorem stays_raise (M : Blk → Bool) (mm : Bool) (b0 s : State) (row : Nat) (loadOk : Bool) (hMG : M .MG = true) (hPWV : M .PWV = true) (hPWS : M .PWS = true) (hCF : M .CF = true) (hSN : M .SN = true) (hST : M .ST = true) (hUD : M .UD = true) (hLNP : M .LNP = true) (hTB : M .TB = true) (hFB : M .FB = true) (hMT : M .MT = true) (hPU : M .PU = true) (hMEM : mm = true) (hk : Stays M mm b0 s) : Stays M mm b0 (State.raise s row loadOk) := by
  unfold State.raise; extract_lets was d1 d2 s1
  have h1 : Stays M mm b0 s1 := stays_mk M mm b0 s d2 (by simp only [d2, d1]; split <;> simp [blk, hMG, hPWV, hPWS, hCF, hSN, hST, hUD, hLNP, hTB, hFB, hMT, hPU]) hk
  clear_value s1 was
  split
  · exact stays_serveWaits M mm b0 _ hMG hPWV hSN hUD hMT hPU hMEM (stays_on M mm b0 _ _ (fun d => by rw [kept_admitWaiting] <;> first | assumption | (split <;> simp [blk, hMG, hPWV, hPWS, hCF, hSN, hST, hUD, hLNP, hTB, hFB, hMT, hPU])) h1)
  · split
    · exact stays_on M mm b0 _ _ (fun d => keptEach M _ _ (fun n d => by simp [blk, hMG, hPWV, hPWS, hCF, hSN, hST, hUD, hLNP, hTB, hFB, hMT, hPU]) d) h1
    · split
      · exact stays_serveWaits M mm b0 _ hMG hPWV hSN hUD hMT hPU hMEM (stays_on M mm b0 _ _ (fun d => by simp [blk, hMG, hPWV, hPWS, hCF, hSN, hST, hUD, hLNP, hTB, hFB, hMT, hPU]) h1)
      · split
        · exact stays_on M mm b0 _ _ (fun d => by simp [blk, hMG, hPWV, hPWS, hCF, hSN, hST, hUD, hLNP, hTB, hFB, hMT, hPU]) h1
        · exact h1

theorem stays_stepDone (M : Blk → Bool) (mm : Bool) (b0 s : State) (step : Nat) (up : List Nat) (next : Option Nat) (loadFailed : List (Fin 64)) (hMG : M .MG = true) (hPW : M .PW = true) (hPWV : M .PWV = true) (hPWS : M .PWS = true) (hCF : M .CF = true) (hTG : M .TG = true) (hSN : M .SN = true) (hST : M .ST = true) (hUD : M .UD = true) (hLNP : M .LNP = true) (hTB : M .TB = true) (hFB : M .FB = true) (hMT : M .MT = true) (hPU : M .PU = true) (hDM : M .DM = true) (hMEM : mm = true) (hk : Stays M mm b0 s) : Stays M mm b0 (State.stepDone s step up next loadFailed) := by
  unfold State.stepDone
  refine stays_on M mm b0 _ _ (fun d => ?_) (stays_foldl M mm b0 _ (fun s x hk => stays_raise M mm b0 s _ _ hMG hPWV hPWS hCF hSN hST hUD hLNP hTB hFB hMT hPU hMEM hk) _ _ hk)
  dsimp only; rw [kept_transitionCheck, keptEach]
  all_goals first | (intro n d; simp [blk, hMG, hPW, hPWV, hPWS, hCF, hTG, hSN, hST, hUD, hLNP, hTB, hFB, hMT, hPU, hDM]; done) | (simp [blk, hMG, hPW, hPWV, hPWS, hCF, hTG, hSN, hST, hUD, hLNP, hTB, hFB, hMT, hPU, hDM]; done) | skip

theorem stays_clsRead (M : Blk → Bool) (mm : Bool) (b0 s : State) (entry : Nat) (seen : EccSeen) (hMG : M .MG = true) (hSN : M .SN = true) (hUD : M .UD = true) (hMT : M .MT = true) (hMEM : mm = true) (hk : Stays M mm b0 s) : Stays M mm b0 (State.clsRead s entry seen).1 := by
  unfold State.clsRead; (try dsimp only)
  (repeat' split) <;> ((repeat' (first | with_reducible assumption | with_reducible refine stays_hardRead M mm b0 _ _ _ _ _ hMG hSN hUD hMT hMEM ?_ | with_reducible refine stays_on M mm b0 _ _ (fun d => ?_) ?_ | with_reducible refine stays_each M mm b0 _ _ _ (fun n s hk => ?_) ?_ | with_reducible refine stays_foldl M mm b0 _ (fun s x hk => ?_) _ _ ?_ | with_reducible refine stays_mk M mm b0 _ _ ?_ ?_)) <;> (try dsimp only) <;> first | assumption | rfl | (simp [blk, hMG, hSN, hUD, hMT]; done) | ((repeat' split) <;> first | rfl | assumption | (simp [blk, hMG, hSN, hUD, hMT]; done)))

theorem stays_bucket (M : Blk → Bool) (mm : Bool) (b0 s : State) (b : Nat) (seen : List EccSeen) (hMG : M .MG = true) (hSN : M .SN = true) (hUD : M .UD = true) (hMT : M .MT = true) (hMEM : mm = true) (hk : Stays M mm b0 s) : Stays M mm b0 (State.bucket s b seen).1 := by
  unfold State.bucket
  refine stays_foldl_via M mm b0 Prod.fst _ (fun p k w => ?_) _ _ ?_
  · exact stays_clsRead M mm b0 p.1 _ _ hMG hSN hUD hMT hMEM w
  · exact hk

theorem stays_lookup (M : Blk → Bool) (mm : Bool) (b0 s : State) (key : List Byte) (seen : List EccSeen) (hMG : M .MG = true) (hSN : M .SN = true) (hUD : M .UD = true) (hMT : M .MT = true) (hMEM : mm = true) (hk : Stays M mm b0 s) : Stays M mm b0 (State.lookup s key seen).1 := by
  unfold State.lookup; (try dsimp only)
  (repeat' split) <;> ((repeat' (first | with_reducible assumption | with_reducible refine stays_bucket M mm b0 _ _ _ hMG hSN hUD hMT hMEM ?_ | with_reducible refine stays_on M mm b0 _ _ (fun d => ?_) ?_ | with_reducible refine stays_each M mm b0 _ _ _ (fun n s hk => ?_) ?_ | with_reducible refine stays_foldl M mm b0 _ (fun s x hk => ?_) _ _ ?_ | with_reducible refine stays_mk M mm b0 _ _ ?_ ?_)) <;> (try dsimp only) <;> first | assumption | rfl | (simp [blk, hMG, hSN, hUD, hMT]; done) | ((repeat' split) <;> first | rfl | assumption | (simp [blk, hMG, hSN, hUD, hMT]; done)))

theorem stays_classify (M : Blk → Bool) (mm : Bool) (b0 s : State) (course dir : Nat) (b : List Byte) (profiles : List Nat) (seen : List EccSeen) (hMG : M .MG = true) (hSN : M .SN = true) (hUD : M .UD = true) (hMT : M .MT = true) (hMEM : mm = true) (hk : Stays M mm b0 s) : Stays M mm b0 (State.classify s course dir b profiles seen).1 := by
  induction profiles generalizing s seen with
  | nil => exact hk
  | cons p rest ih =>
    have hl := stays_lookup M mm b0 s (frameKey p dir course b) seen hMG hSN hUD hMT hMEM hk
    unfold State.classify
    split
    · rename_i heq; rw [heq] at hl; exact ih _ _ hl
    · rename_i heq; rw [heq] at hl; exact hl

theorem stays_frameResult (M : Blk → Bool) (mm : Bool) (b0 s : State) (u course dir : Nat) (f : FrameIn) (hMG : M .MG = true) (hSN : M .SN = true) (hUD : M .UD = true) (hTS : M .TS = true) (hMT : M .MT = true) (hMEM : mm = true) (hk : Stays M mm b0 s) : Stays M mm b0 (State.frameResult s u course dir f).1 := by
  unfold State.frameResult; dsimp only
  have hc := stays_classify M mm b0 s course dir f.bytes (profilesOf (s.dev.rd F.TS_IE_CTL_PROF u) f.bytes) f.seen hMG hSN hUD hMT hMEM hk
  split
  · exact hk
  · split
    · dsimp only; exact stays_on M mm b0 _ _ (fun d => by simp [blk, hMG, hSN, hUD, hTS, hMT]) hk
    · split <;> (rename_i heq; rw [heq] at hc; dsimp only at hc; (repeat' split) <;> first | exact hc | (dsimp only; exact stays_on M mm b0 _ _ (fun d => by simp [blk, hMG, hSN, hUD, hTS, hMT]) hc))

theorem stays_extract (M : Blk → Bool) (mm : Bool) (b0 s : State) (p : Nat) (f : FrameIn) (queue : Nat) (record : List Byte) (hMG : M .MG = true) (hPWV : M .PWV = true) (hSN : M .SN = true) (hUD : M .UD = true) (hTS : M .TS = true) (hMT : M .MT = true) (hPU : M .PU = true) (hMEM : mm = true) (hk : Stays M mm b0 s) : Stays M mm b0 (State.extract s p f queue record) := by
  unfold State.extract; (try dsimp only)
  (repeat' split) <;> ((repeat' (first | with_reducible assumption | with_reducible refine stays_enqueue M mm b0 _ _ _ _ hMG hPWV hSN hUD hMT hPU hMEM ?_ | with_reducible refine stays_on M mm b0 _ _ (fun d => ?_) ?_ | with_reducible refine stays_each M mm b0 _ _ _ (fun n s hk => ?_) ?_ | with_reducible refine stays_foldl M mm b0 _ (fun s x hk => ?_) _ _ ?_ | with_reducible refine stays_mk M mm b0 _ _ ?_ ?_)) <;> (try dsimp only) <;> first | assumption | rfl | (simp [blk, hMG, hPWV, hSN, hUD, hTS, hMT, hPU]; done) | ((repeat' split) <;> first | rfl | assumption | (simp [blk, hMG, hPWV, hSN, hUD, hTS, hMT, hPU]; done)))

theorem stays_frameIn (M : Blk → Bool) (mm : Bool) (b0 s : State) (tp side course : Nat) (f : FrameIn) (hMG : M .MG = true) (hPW : M .PW = true) (hPWV : M .PWV = true) (hCF : M .CF = true) (hTG : M .TG = true) (hSN : M .SN = true) (hCL : M .CL = true) (hUD : M .UD = true) (hLN : M .LN = true) (hLNF : M .LNF = true) (hLNP : M .LNP = true) (hLNT : M .LNT = true) (hCS : M .CS = true) (hTSU : M .TSU = true) (hTS : M .TS = true) (hMT : M .MT = true) (hPU : M .PU = true) (hDM : M .DM = true) (hMEM : mm = true) (hk : Stays M mm b0 s) : Stays M mm b0 (State.frameIn s tp side course f) := by
  unfold State.frameIn; (try dsimp only)
  (repeat' split) <;> ((repeat' (first | with_reducible assumption | with_reducible refine stays_frameResult M mm b0 _ _ _ _ _ hMG hSN hUD hTS hMT hMEM ?_ | with_reducible refine stays_extract M mm b0 _ _ _ _ _ hMG hPWV hSN hUD hTS hMT hPU hMEM ?_ | with_reducible refine stays_on M mm b0 _ _ (fun d => ?_) ?_ | with_reducible refine stays_each M mm b0 _ _ _ (fun n s hk => ?_) ?_ | with_reducible refine stays_foldl M mm b0 _ (fun s x hk => ?_) _ _ ?_ | with_reducible refine stays_mk M mm b0 _ _ ?_ ?_)) <;> (try dsimp only) <;> first | assumption | rfl | (simp [blk, hMG, hPW, hPWV, hCF, hTG, hSN, hCL, hUD, hLN, hLNF, hLNP, hLNT, hCS, hTSU, hTS, hMT, hPU, hDM]; done) | ((repeat' split) <;> first | rfl | assumption | (simp [blk, hMG, hPW, hPWV, hCF, hTG, hSN, hCL, hUD, hLN, hLNF, hLNP, hLNT, hCS, hTSU, hTS, hMT, hPU, hDM]; done)))

theorem stays_confirm (M : Blk → Bool) (mm : Bool) (b0 s : State) (r : List Byte) (status : Nat) (stamp : List Byte) (conf : List EccSeen) (hMG : M .MG = true) (hPWV : M .PWV = true) (hSN : M .SN = true) (hUD : M .UD = true) (hMT : M .MT = true) (hPU : M .PU = true) (hMEM : mm = true) (hk : Stays M mm b0 s) : Stays M mm b0 (State.confirm s r status stamp conf) := by
  unfold State.confirm; (try dsimp only)
  (repeat' split) <;> ((repeat' (first | with_reducible assumption | with_reducible refine stays_enqueue M mm b0 _ _ _ _ hMG hPWV hSN hUD hMT hPU hMEM ?_ | with_reducible refine stays_on M mm b0 _ _ (fun d => ?_) ?_ | with_reducible refine stays_each M mm b0 _ _ _ (fun n s hk => ?_) ?_ | with_reducible refine stays_foldl M mm b0 _ (fun s x hk => ?_) _ _ ?_ | with_reducible refine stays_mk M mm b0 _ _ ?_ ?_)) <;> (try dsimp only) <;> first | assumption | rfl | (simp [blk, hMG, hPWV, hSN, hUD, hMT, hPU]; done) | ((repeat' split) <;> first | rfl | assumption | (simp [blk, hMG, hPWV, hSN, hUD, hMT, hPU]; done)))

theorem stays_takeFor (M : Blk → Bool) (mm : Bool) (b0 s : State) (q : Nat) (pte seen : List EccSeen) (hMG : M .MG = true) (hPWV : M .PWV = true) (hSN : M .SN = true) (hUD : M .UD = true) (hMT : M .MT = true) (hPU : M .PU = true) (hMEM : mm = true) (hk : Stays M mm b0 s) : Stays M mm b0 (State.takeFor s q pte seen).1 := by
  unfold State.takeFor; (try dsimp only)
  (repeat' split) <;> ((repeat' (first | with_reducible assumption | with_reducible refine stays_takeRecord M mm b0 _ _ _ _ hMG hPWV hSN hUD hMT hPU hMEM ?_ | with_reducible refine stays_on M mm b0 _ _ (fun d => ?_) ?_ | with_reducible refine stays_each M mm b0 _ _ _ (fun n s hk => ?_) ?_ | with_reducible refine stays_foldl M mm b0 _ (fun s x hk => ?_) _ _ ?_ | with_reducible refine stays_mk M mm b0 _ _ ?_ ?_)) <;> (try dsimp only) <;> first | assumption | rfl | (simp [blk, hMG, hPWV, hSN, hUD, hMT, hPU]; done) | ((repeat' split) <;> first | rfl | assumption | (simp [blk, hMG, hPWV, hSN, hUD, hMT, hPU]; done)))

theorem stays_place (M : Blk → Bool) (mm : Bool) (b0 s : State) (u : Nat) (pte seen conf : List EccSeen) (hMG : M .MG = true) (hPWV : M .PWV = true) (hSN : M .SN = true) (hUD : M .UD = true) (hTS : M .TS = true) (hMT : M .MT = true) (hPU : M .PU = true) (hMEM : mm = true) (hk : Stays M mm b0 s) : Stays M mm b0 (State.place s u pte seen conf) := by
  unfold State.place; (try dsimp only)
  (repeat' split) <;> ((repeat' (first | with_reducible assumption | with_reducible refine stays_takeFor M mm b0 _ _ _ _ hMG hPWV hSN hUD hMT hPU hMEM ?_ | with_reducible refine stays_confirm M mm b0 _ _ _ _ _ hMG hPWV hSN hUD hMT hPU hMEM ?_ | with_reducible refine stays_on M mm b0 _ _ (fun d => ?_) ?_ | with_reducible refine stays_each M mm b0 _ _ _ (fun n s hk => ?_) ?_ | with_reducible refine stays_foldl M mm b0 _ (fun s x hk => ?_) _ _ ?_ | with_reducible refine stays_mk M mm b0 _ _ ?_ ?_)) <;> (try dsimp only) <;> first | assumption | rfl | (simp [blk, hMG, hPWV, hSN, hUD, hTS, hMT, hPU]; done) | ((repeat' split) <;> first | rfl | assumption | (simp [blk, hMG, hPWV, hSN, hUD, hTS, hMT, hPU]; done)))

theorem stays_stampInserted (M : Blk → Bool) (mm : Bool) (b0 s : State) (u interp pout : Nat) (conf : List EccSeen) (hMG : M .MG = true) (hPWV : M .PWV = true) (hSN : M .SN = true) (hUD : M .UD = true) (hTS : M .TS = true) (hMT : M .MT = true) (hPU : M .PU = true) (hMEM : mm = true) (hk : Stays M mm b0 s) : Stays M mm b0 (State.stampInserted s u interp pout conf) := by
  unfold State.stampInserted; (try dsimp only)
  (repeat' split) <;> ((repeat' (first | with_reducible assumption | with_reducible refine stays_confirm M mm b0 _ _ _ _ _ hMG hPWV hSN hUD hMT hPU hMEM ?_ | with_reducible refine stays_on M mm b0 _ _ (fun d => ?_) ?_ | with_reducible refine stays_each M mm b0 _ _ _ (fun n s hk => ?_) ?_ | with_reducible refine stays_foldl M mm b0 _ (fun s x hk => ?_) _ _ ?_ | with_reducible refine stays_mk M mm b0 _ _ ?_ ?_)) <;> (try dsimp only) <;> first | assumption | rfl | (simp [blk, hMG, hPWV, hSN, hUD, hTS, hMT, hPU]; done) | ((repeat' split) <;> first | rfl | assumption | (simp [blk, hMG, hPWV, hSN, hUD, hTS, hMT, hPU]; done)))

theorem stays_clsEnd (M : Blk → Bool) (mm : Bool) (b0 s : State) (result : Nat) (hTS : M .TS = true) (hk : Stays M mm b0 s) : Stays M mm b0 (State.clsEnd s result) := by
  unfold State.clsEnd; (try dsimp only)
  (repeat' split) <;> ((repeat' (first | with_reducible assumption | with_reducible refine stays_on M mm b0 _ _ (fun d => ?_) ?_ | with_reducible refine stays_each M mm b0 _ _ _ (fun n s hk => ?_) ?_ | with_reducible refine stays_foldl M mm b0 _ (fun s x hk => ?_) _ _ ?_ | with_reducible refine stays_mk M mm b0 _ _ ?_ ?_)) <;> (try dsimp only) <;> first | assumption | rfl | (simp [blk, hTS]; done) | ((repeat' split) <;> first | rfl | assumption | (simp [blk, hTS]; done)))

theorem stays_clsWrite (M : Blk → Bool) (mm : Bool) (b0 s : State) (entry : Nat) (bytes : List Byte) (hMG : M .MG = true) (hSN : M .SN = true) (hUD : M .UD = true) (hMT : M .MT = true) (hMEM : mm = true) (hk : Stays M mm b0 s) : Stays M mm b0 (State.clsWrite s entry bytes) := by
  unfold State.clsWrite; (try dsimp only)
  (repeat' split) <;> ((repeat' (first | with_reducible assumption | with_reducible refine stays_hardWrite M mm b0 _ _ _ _ _ hMG hSN hUD hMT hMEM ?_ | with_reducible refine stays_on M mm b0 _ _ (fun d => ?_) ?_ | with_reducible refine stays_each M mm b0 _ _ _ (fun n s hk => ?_) ?_ | with_reducible refine stays_foldl M mm b0 _ (fun s x hk => ?_) _ _ ?_ | with_reducible refine stays_mk M mm b0 _ _ ?_ ?_)) <;> (try dsimp only) <;> first | assumption | rfl | (simp [blk, hMG, hSN, hUD, hMT]; done) | ((repeat' split) <;> first | rfl | assumption | (simp [blk, hMG, hSN, hUD, hMT]; done)))

theorem stays_clsCount (M : Blk → Bool) (mm : Bool) (b0 s : State) (n : Nat) (hTS : M .TS = true) (hk : Stays M mm b0 s) : Stays M mm b0 (State.clsCount s n) := by
  unfold State.clsCount; (try dsimp only)
  (repeat' split) <;> ((repeat' (first | with_reducible assumption | with_reducible refine stays_on M mm b0 _ _ (fun d => ?_) ?_ | with_reducible refine stays_each M mm b0 _ _ _ (fun n s hk => ?_) ?_ | with_reducible refine stays_foldl M mm b0 _ (fun s x hk => ?_) _ _ ?_ | with_reducible refine stays_mk M mm b0 _ _ ?_ ?_)) <;> (try dsimp only) <;> first | assumption | rfl | (simp [blk, hTS]; done) | ((repeat' split) <;> first | rfl | assumption | (simp [blk, hTS]; done)))

theorem stays_clsRun (M : Blk → Bool) (mm : Bool) (b0 s : State) (c : ClsX) (seen : List EccSeen) (hMG : M .MG = true) (hSN : M .SN = true) (hUD : M .UD = true) (hTS : M .TS = true) (hMT : M .MT = true) (hMEM : mm = true) (hk : Stays M mm b0 s) : Stays M mm b0 (State.clsRun s c seen) := by
  unfold State.clsRun; (try dsimp only)
  (repeat' split) <;> ((repeat' (first | with_reducible assumption | with_reducible refine stays_bucket M mm b0 _ _ _ hMG hSN hUD hMT hMEM ?_ | with_reducible refine stays_clsWrite M mm b0 _ _ _ hMG hSN hUD hMT hMEM ?_ | with_reducible refine stays_clsEnd M mm b0 _ _ hTS ?_ | with_reducible refine stays_clsCount M mm b0 _ _ hTS ?_ | with_reducible refine stays_on M mm b0 _ _ (fun d => ?_) ?_ | with_reducible refine stays_each M mm b0 _ _ _ (fun n s hk => ?_) ?_ | with_reducible refine stays_foldl M mm b0 _ (fun s x hk => ?_) _ _ ?_ | with_reducible refine stays_mk M mm b0 _ _ ?_ ?_)) <;> (try dsimp only) <;> first | assumption | rfl | (simp [blk, hMG, hSN, hUD, hTS, hMT]; done) | ((repeat' split) <;> first | rfl | assumption | (simp [blk, hMG, hSN, hUD, hTS, hMT]; done)))

theorem stays_clsRecount (M : Blk → Bool) (mm : Bool) (b0 s : State)  (hTS : M .TS = true) (hk : Stays M mm b0 s) : Stays M mm b0 (State.clsRecount s) := by
  unfold State.clsRecount; (try dsimp only)
  (repeat' split) <;> ((repeat' (first | with_reducible assumption | with_reducible refine stays_clsCount M mm b0 _ _ hTS ?_ | with_reducible refine stays_on M mm b0 _ _ (fun d => ?_) ?_ | with_reducible refine stays_each M mm b0 _ _ _ (fun n s hk => ?_) ?_ | with_reducible refine stays_foldl M mm b0 _ (fun s x hk => ?_) _ _ ?_ | with_reducible refine stays_mk M mm b0 _ _ ?_ ?_)) <;> (try dsimp only) <;> first | assumption | rfl | (simp [blk, hTS]; done) | ((repeat' split) <;> first | rfl | assumption | (simp [blk, hTS]; done)))

theorem stays_stageBytes (M : Blk → Bool) (mm : Bool) (b0 s0 : State) (a : Nat) (bs : List Byte) (hMG : M .MG = true) (hSN : M .SN = true) (hUD : M .UD = true) (hMT : M .MT = true) (hMEM : mm = true) (hk : Stays M mm b0 s0) : Stays M mm b0 (State.stageBytes s0 a bs) := by
  unfold State.stageBytes
  extract_lets hit s
  have h : Stays M mm b0 s := stays_foldl M mm b0 _ (fun s w k => stays_meetWord M mm b0 s _ _ _ _ _ hMG hSN hUD hMT hMEM k) _ _ hk
  exact stays_mem M mm b0 s _ _ (by simp) hMEM h

theorem stays_stageImage (M : Blk → Bool) (mm : Bool) (b0 s : State) (ys : List Yealm) (hMG : M .MG = true) (hSN : M .SN = true) (hUD : M .UD = true) (hMT : M .MT = true) (hMEM : mm = true) (hk : Stays M mm b0 s) : Stays M mm b0 (State.stageImage s ys) := by
  unfold State.stageImage; dsimp only
  split
  · exact hk
  · refine stays_foldl M mm b0 _ (fun s y w => ?_) _ _ hk
    refine stays_foldl M mm b0 _ (fun s e w => ?_) _ _ w
    (repeat' split) <;> first | exact w | exact stays_stageBytes M mm b0 s _ _ hMG hSN hUD hMT hMEM w

end Sys2Proof.Machine
end

