-- ==== Sys2Proof/Machine/Order.lean ====
section
/-! DEFINITION. Happenings at once (R359 to R368 of spec/16_simultaneity.md). A step takes the command at the front of the queue; commands
that fall on one decision are put there in the order of these rules by `State.meet`. -/
namespace Sys2Proof.Machine

/-- The level of Table 16.1 of a command's claim; 7 for a command of no class of that table (log entry 86). -/
def levelOf (c : Instr) : Nat :=
  match c with
  | .powerGood _ _ _ | .resetNLow | .seqTimeout _ | .vddCoreFail | .pllLossOfLock _ _ | .pllLock _ _ | .refEdgesAppear _
  | .refIdentified _ _ _ | .refAbsent _ | .refFrequencyChange _ | .refSpreadChange _ _ _ | .wipeComplete | .tamperNConfirm
  | .eavesSupplyGlitch | .dieTemperatureSample _ _ | .tamperEfuseProgram => 1
  | .codeGroupReceived _ _ _ _ | .syncHeaderReceived _ _ _ | .signalDetectAssert _ _ | .signalDetectDeassert _ _ _
  | .laneIdleExitLock _ _ | .laneIdleExitFailure _ _ | .laneIdleQuietLimit _ _ | .sliceFault _ _ | .standInGrant _ _ | .standInLock _ _
  | .lossIndication _ _ _ | .lossConfirmed _ _ | .reacquireLock _ _ | .tReacqExpiry _ _ | .rescueLock _ _ | .tRescueExpiry _ _
  | .squelchedLaneLock _ _ | .tAllsqExpiry _ | .tHoldExpiry _ | .backoffEnd _ | .clause73Page _ _ _ _ _ | .trainingFrame _ _ _ _ _ _
  | .coefficientHold _ _ | .coefficientUpdate _ _ _ _ | .presetRequest _ _ _ | .initializeRequest _ _ | .precoderRequest _ _ _
  | .tnegExpiry _ _ | .partnerSilenceExpiry _ _ | .ttrainExpiry _ _ | .tDataExpiry _ _ | .incomingRateChange _ _ | .rateIdentified _ _ _
  | .rateFollowLock _ _ | .hyperframeStart _ _ _ | .hfnholdExpiry _ _ _ _ | .receiverDetection _ _ _ | .orderedSetReceived _ _ _ _
  | .speedChangeReady _ _ | .eqRequest _ _ _ | .eqPresetEvaluated _ _ _ _ | .clsInsert _ | .clsDelete | .clsLookup | .clsCommandDone _
  | .cswReq _ _ _ | .gutterInboundWord _ _ _ _ | .gutterOutboundWord _ _ _ _ | .gutterUnderrun _ _ _ | .sparReadWord _ _ _
  | .sparWriteWord _ _ _ _ _ | .sparReadBlock _ _ _ | .sparWriteBlock _ _ _ _ | .sparResponse _ _ _ _ | .inflightPlaceFreed
  | .contextSwitch _ | .pageInComplete _ _ _ _ | .pageInRetry _ | .prefetch _ _ | .pagePin _ _ | .pageUnpin _ _ | .evict _ _
  | .guardedBlock _ _ | .resendRequest _ _ _ | .compatChange | .enq _ _ _ _ _ | .deq _ _ _ _ _ _ | .notify _ _ _ _ | .queueStatus _ _ _
  | .queueSweepDone _ _ | .commitImmediate _ _ | .commitBoundary _ _ _ | .commitMarker _ _ _ | .commitApply _ | .boundaryTimeout _
  | .handoverDeadline | .laneAcquireLock _ _ | .alignmentMarkerLock _ _ _ _ | .partnerTrainingEnd _ _ | .partnerReceiverDetection _ _ => 2
  | .tbPllLock | .tbPllHoldExpiry | .tbLoad | .tbStep | .tbCapture | .timebaseWrite _ _ | .frameIngress _ _ _ | .frameCorrection _ _ _ _
  | .latencyRemeasure _ _ _ | .ppsInEdge _ | .ppsInTimeMessage _ | .ppsPulseTimeout | .ppsMessageTimeout | .ptpSample _ _ _ _
  | .ptpSampleTimeout | .qlReport _ _ _ _ | .lineSlotWtrExpiry _ | .lineSlotSecond _ _ _ _ _ | .locktExpiry | .holdoverLimitExpiry
  | .fmemValid | .ensembleMemberJoin _ | .ensembleGrouping | .tsCtlWrite _ | .lrefCtlWrite _ _ | .ppsOutEdge | .ppsOutPulseEnd
  | .todOutMessage | .insertionPlace _ _ _ _ _ _ _ | .insertedFrameStamp _ _ _ _ _ | .maxwaitExpiry _ _ _ _ _ | .engState | .timeRead _
  | .esmcInfoPdu _ | .qlFailed _ | .cstRead _ _ _ _ | .intervalEnd | .recordWrite _ => 3
  | .handoverSwitch _ _ _ | .tShadowExpiry _ _ | .clMeasure _ _ _ _ _ _ | .clRead _ _ _ | .clWrite _ _ _ | .clCancel | .calSliceGrant
  | .calRunComplete _ => 4
  | .marginCommand _ _ _ _ _ | .scrub _ _ | .mbistStart | .mbistStop | .mbistBlockStart | .mbistBlockDone _ _ | .repairApply _ _ _
  | .repairClear _ | .repairComplete | .lbistStart _ _ | .lbistStop | .lbistEnd _ _ | .lbistWatchdog _ _ | .laneTestStart _ _ _
  | .laneTestStop _ _ | .patternCheckerLock _ _ _ => 5
  | .windowRead _ _ | .windowWrite _ _ _ | .dmSelWrite _ _ | .recordCopyDone => 6
  | .regRdy | .pllRdy | .memRdy _ | .logicRdy _ | .synthesiserLock | .healthPublish _ | .registerWrite _ _ _ _ | .counterRead _ _ _
  | .udSnapArm _ | .snArmall | .lnCtlWrite _ _ _ | .lnTxFfeWrite _ _ _ | .lnRxEqWrite _ _ _ | .lnRxDfeWrite _ _ _ _
  | .lnRxFfeDataWrite _ _ _ | .trigReq _ | .fbPaceWrite _ _ | .pwDomWrite _ _ | .voltageSettled _ | .gateOpen _ | .gateStage _ _ _ _ _
  | .gateAbort _ _ | .snapInEdge _ | .snFire | .timeMatch | .snapOutPulseEnd | .reqActive | .reqNap | .reqRest | .reqRestWithTimekeeping
  | .reqOff | .hostVoteWrite _ _ | .domainEntryComplete _ | .domainExitComplete _ _ | .regionQuiet _ | .holdrepExpiry | .wakeNLow
  | .eavesTimerExpiry _ | .padRelease _ | .flashIoTimeout _ | .yealmRead _ _ | .imageLastByte _ | .reload _ | .recover | .keyprog _
  | .keyrevoke _ | .rcvabort | .recoveryDataWrite _ | .privateWrite _ _ _ _ _ | .privateRead _ _ _ _ _ | .enec _ _ | .disec _ _ | .rstdaa
  | .entdaa _ | .setmwl _ _ | .setdasa _ _ | .getmwl | .getpid | .getbcr | .getdcr | .getstatus | .rstact _ _ | .targetResetPattern
  | .ibiRequest _ | .challenge | .verify | .relock | .gkeyprog | .unlockExpiry | .challengeExpiry | .extest | .idcode
  | .samplePreload _ _ | .extestPulse | .extestTrain | .clamp | .highz | .bypass _ | .keyProgrammingDone => 7

/-- The unit that a command concerns, by ID; 0 where it concerns none. -/
def Dev.unitOf (d : Dev) (c : Instr) : Nat :=
  match c with
  | .seqTimeout row => 0x0C0 + row.val
  | .healthPublish id => id.val
  | .udSnapArm id => id.val
  | .pllLossOfLock bay _ => 0x0C1 + bay.val
  | .pllLock bay _ => 0x0C1 + bay.val
  | .lnCtlWrite tp _ _ => laneUnit tp.val
  | .lnTxFfeWrite tp _ _ => laneUnit tp.val
  | .lnRxEqWrite tp _ _ => laneUnit tp.val
  | .lnRxDfeWrite tp _ _ _ => laneUnit tp.val
  | .lnRxFfeDataWrite tp _ _ => laneUnit tp.val
  | .codeGroupReceived tp _ _ _ => laneUnit tp.val
  | .syncHeaderReceived tp _ _ => laneUnit tp.val
  | .signalDetectAssert tp _ => laneUnit tp.val
  | .signalDetectDeassert tp _ _ => laneUnit tp.val
  | .laneIdleExitLock tp _ => laneUnit tp.val
  | .laneIdleExitFailure tp _ => laneUnit tp.val
  | .laneIdleQuietLimit tp _ => laneUnit tp.val
  | .sliceFault tp _ => laneUnit tp.val
  | .standInGrant bay _ => 0x0C1 + bay.val
  | .standInLock bay _ => 0x0C1 + bay.val
  | .lossIndication tp _ _ => laneUnit tp.val
  | .lossConfirmed tp _ => laneUnit tp.val
  | .reacquireLock tp _ => laneUnit tp.val
  | .tReacqExpiry tp _ => laneUnit tp.val
  | .rescueLock tp _ => laneUnit tp.val
  | .tRescueExpiry tp _ => laneUnit tp.val
  | .squelchedLaneLock tp _ => laneUnit tp.val
  | .handoverSwitch tp _ _ => laneUnit tp.val
  | .tShadowExpiry tp _ => laneUnit tp.val
  | .tAllsqExpiry course => courseUnit course.val
  | .tHoldExpiry course => courseUnit course.val
  | .backoffEnd course => courseUnit course.val
  | .clause73Page course _ _ _ _ => courseUnit course.val
  | .trainingFrame course _ _ _ _ _ => courseUnit course.val
  | .coefficientHold tp _ => laneUnit tp.val
  | .coefficientUpdate tp _ _ _ => laneUnit tp.val
  | .presetRequest tp _ _ => laneUnit tp.val
  | .initializeRequest tp _ => laneUnit tp.val
  | .precoderRequest tp _ _ => laneUnit tp.val
  | .tnegExpiry course _ => courseUnit course.val
  | .partnerSilenceExpiry course _ => courseUnit course.val
  | .ttrainExpiry course _ => courseUnit course.val
  | .tDataExpiry course _ => courseUnit course.val
  | .incomingRateChange course _ => courseUnit course.val
  | .rateIdentified course _ _ => courseUnit course.val
  | .rateFollowLock course _ => courseUnit course.val
  | .hyperframeStart course _ _ => courseUnit course.val
  | .hfnholdExpiry course _ _ _ => courseUnit course.val
  | .receiverDetection course _ _ => courseUnit course.val
  | .orderedSetReceived course _ _ _ => courseUnit course.val
  | .speedChangeReady course _ => courseUnit course.val
  | .eqRequest tp _ _ => laneUnit tp.val
  | .eqPresetEvaluated course _ _ _ => courseUnit course.val
  | .marginCommand course _ _ _ _ => courseUnit course.val
  | .frameIngress tp _ _ => laneUnit tp.val
  | .frameCorrection tp _ _ _ => laneUnit tp.val
  | .latencyRemeasure course _ _ => courseUnit course.val
  | .insertionPlace tp _ _ _ _ _ _ => laneUnit tp.val
  | .insertedFrameStamp tp _ _ _ _ => laneUnit tp.val
  | .maxwaitExpiry tp _ _ _ _ => laneUnit tp.val
  | .esmcInfoPdu course => courseUnit course.val
  | .cstRead region _ _ _ => region.val % 16
  | .trigReq region => region.val % 16
  | .cswReq region _ _ => region.val % 16
  | .fbPaceWrite region _ => 0x080 + region.val
  | .pwDomWrite row _ => 0x0C0 + row.val
  | .voltageSettled row => 0x0C0 + row.val
  | .gutterInboundWord tp _ _ _ => laneUnit tp.val
  | .gutterOutboundWord tp _ _ _ => laneUnit tp.val
  | .gutterUnderrun tp _ _ => laneUnit tp.val
  | .sparReadWord port _ _ => if port.master.val < 64 then 0x080 + port.master.val else 0
  | .sparWriteWord port _ _ _ _ => if port.master.val < 64 then 0x080 + port.master.val else 0
  | .sparReadBlock port _ _ => if port.master.val < 64 then 0x080 + port.master.val else 0
  | .sparWriteBlock port _ _ _ => if port.master.val < 64 then 0x080 + port.master.val else 0
  | .sparResponse port _ _ _ => if port.master.val < 64 then 0x080 + port.master.val else 0
  | .contextSwitch region => 0x080 + region.val
  | .pageInComplete region _ _ _ => 0x080 + region.val
  | .pageInRetry region => 0x080 + region.val
  | .prefetch region _ => 0x080 + region.val
  | .pagePin region _ => 0x080 + region.val
  | .pageUnpin region _ => 0x080 + region.val
  | .evict region _ => 0x080 + region.val
  | .enq _ _ queue _ _ => (d.queueUnit queue.val).getD 0
  | .deq _ _ grp tgt _ _ => if grp then 0 else (d.queueUnit tgt.val).getD 0
  | .notify _ _ grp tgt => if grp then 0 else (d.queueUnit tgt.val).getD 0
  | .queueStatus _ _ queue => (d.queueUnit queue.val).getD 0
  | .queueSweepDone queue _ => (d.queueUnit queue.val).getD 0
  | .commitBoundary _ _ course => courseUnit course.val
  | .commitMarker _ _ course => courseUnit course.val
  | .lbistStart region _ => 0x080 + region.val
  | .laneTestStart tp _ _ => laneUnit tp.val
  | .laneTestStop tp _ => laneUnit tp.val
  | .domainEntryComplete row => 0x0C0 + row.val
  | .domainExitComplete row _ => 0x0C0 + row.val
  | .regionQuiet region => 0x080 + region.val
  | .laneAcquireLock tp _ => laneUnit tp.val
  | .alignmentMarkerLock course _ _ _ => courseUnit course.val
  | .partnerTrainingEnd course _ => courseUnit course.val
  | .partnerReceiverDetection course _ => courseUnit course.val
  | .patternCheckerLock tp _ _ => laneUnit tp.val
  | .powerGood _ _ _ | .resetNLow | .regRdy | .pllRdy | .memRdy _ | .logicRdy _ | .vddCoreFail | .synthesiserLock
  | .registerWrite _ _ _ _ | .counterRead _ _ _ | .snArmall | .refEdgesAppear _ | .refIdentified _ _ _ | .refAbsent _
  | .refFrequencyChange _ | .refSpreadChange _ _ _ | .tbPllLock | .tbPllHoldExpiry | .tbLoad | .tbStep | .tbCapture | .timebaseWrite _ _
  | .ppsInEdge _ | .ppsInTimeMessage _ | .ppsPulseTimeout | .ppsMessageTimeout | .ptpSample _ _ _ _ | .ptpSampleTimeout
  | .qlReport _ _ _ _ | .lineSlotWtrExpiry _ | .lineSlotSecond _ _ _ _ _ | .locktExpiry | .holdoverLimitExpiry | .fmemValid
  | .ensembleMemberJoin _ | .ensembleGrouping | .tsCtlWrite _ | .lrefCtlWrite _ _ | .ppsOutEdge | .ppsOutPulseEnd | .todOutMessage
  | .clsInsert _ | .clsDelete | .clsLookup | .clsCommandDone _ | .engState | .timeRead _ | .qlFailed _ | .inflightPlaceFreed | .scrub _ _
  | .windowRead _ _ | .windowWrite _ _ _ | .guardedBlock _ _ | .resendRequest _ _ _ | .compatChange | .wipeComplete | .gateOpen _
  | .gateStage _ _ _ _ _ | .commitImmediate _ _ | .gateAbort _ _ | .commitApply _ | .boundaryTimeout _ | .intervalEnd | .recordWrite _
  | .dmSelWrite _ _ | .recordCopyDone | .tamperNConfirm | .eavesSupplyGlitch | .dieTemperatureSample _ _ | .tamperEfuseProgram
  | .clMeasure _ _ _ _ _ _ | .clRead _ _ _ | .clWrite _ _ _ | .clCancel | .calSliceGrant | .calRunComplete _ | .mbistStart | .mbistStop
  | .mbistBlockStart | .mbistBlockDone _ _ | .repairApply _ _ _ | .repairClear _ | .repairComplete | .lbistStop | .lbistEnd _ _
  | .lbistWatchdog _ _ | .snapInEdge _ | .snFire | .timeMatch | .snapOutPulseEnd | .reqActive | .reqNap | .reqRest
  | .reqRestWithTimekeeping | .reqOff | .hostVoteWrite _ _ | .holdrepExpiry | .wakeNLow | .eavesTimerExpiry _ | .padRelease _
  | .flashIoTimeout _ | .yealmRead _ _ | .imageLastByte _ | .handoverDeadline | .reload _ | .recover | .keyprog _ | .keyrevoke _
  | .rcvabort | .recoveryDataWrite _ | .privateWrite _ _ _ _ _ | .privateRead _ _ _ _ _ | .enec _ _ | .disec _ _ | .rstdaa | .entdaa _
  | .setmwl _ _ | .setdasa _ _ | .getmwl | .getpid | .getbcr | .getdcr | .getstatus | .rstact _ _ | .targetResetPattern | .ibiRequest _
  | .challenge | .verify | .relock | .gkeyprog | .unlockExpiry | .challengeExpiry | .extest | .idcode | .samplePreload _ _ | .extestPulse
  | .extestTrain | .clamp | .highz | .bypass _ | .keyProgrammingDone => 0

/-- Commands that a rule places before others at once: a commit (R365), a LOAD or STEP before the timestamps of its tick (R149), the end of an
interval before what falls on its boundary (R284); and after them the expiries of timers, since an event on the tick of its expiry is in time
(R81, R361). -/
def phaseOf (c : Instr) : Nat :=
  match c with
  | .tbLoad | .tbStep | .commitApply _ | .intervalEnd => 0
  | .seqTimeout _ | .laneIdleExitFailure _ _ | .laneIdleQuietLimit _ _ | .lossConfirmed _ _ | .tReacqExpiry _ _ | .tRescueExpiry _ _
  | .tShadowExpiry _ _ | .tAllsqExpiry _ | .tHoldExpiry _ | .backoffEnd _ | .tnegExpiry _ _ | .partnerSilenceExpiry _ _
  | .ttrainExpiry _ _ | .tDataExpiry _ _ | .hfnholdExpiry _ _ _ _ | .tbPllHoldExpiry | .ppsPulseTimeout | .ppsMessageTimeout
  | .ptpSampleTimeout | .lineSlotWtrExpiry _ | .locktExpiry | .holdoverLimitExpiry | .fmemValid | .ensembleMemberJoin _
  | .maxwaitExpiry _ _ _ _ _ | .pageInRetry _ | .boundaryTimeout _ | .lbistWatchdog _ _ | .holdrepExpiry | .eavesTimerExpiry _
  | .flashIoTimeout _ | .handoverDeadline | .unlockExpiry | .challengeExpiry => 2
  | .powerGood _ _ _ | .resetNLow | .regRdy | .pllRdy | .memRdy _ | .logicRdy _ | .vddCoreFail | .synthesiserLock | .healthPublish _
  | .registerWrite _ _ _ _ | .counterRead _ _ _ | .udSnapArm _ | .snArmall | .pllLossOfLock _ _ | .pllLock _ _ | .refEdgesAppear _
  | .refIdentified _ _ _ | .refAbsent _ | .refFrequencyChange _ | .refSpreadChange _ _ _ | .lnCtlWrite _ _ _ | .lnTxFfeWrite _ _ _
  | .lnRxEqWrite _ _ _ | .lnRxDfeWrite _ _ _ _ | .lnRxFfeDataWrite _ _ _ | .codeGroupReceived _ _ _ _ | .syncHeaderReceived _ _ _
  | .signalDetectAssert _ _ | .signalDetectDeassert _ _ _ | .laneIdleExitLock _ _ | .sliceFault _ _ | .standInGrant _ _
  | .standInLock _ _ | .lossIndication _ _ _ | .reacquireLock _ _ | .rescueLock _ _ | .squelchedLaneLock _ _ | .handoverSwitch _ _ _
  | .clause73Page _ _ _ _ _ | .trainingFrame _ _ _ _ _ _ | .coefficientHold _ _ | .coefficientUpdate _ _ _ _ | .presetRequest _ _ _
  | .initializeRequest _ _ | .precoderRequest _ _ _ | .incomingRateChange _ _ | .rateIdentified _ _ _ | .rateFollowLock _ _
  | .hyperframeStart _ _ _ | .receiverDetection _ _ _ | .orderedSetReceived _ _ _ _ | .speedChangeReady _ _ | .eqRequest _ _ _
  | .eqPresetEvaluated _ _ _ _ | .marginCommand _ _ _ _ _ | .tbPllLock | .tbCapture | .timebaseWrite _ _ | .frameIngress _ _ _
  | .frameCorrection _ _ _ _ | .latencyRemeasure _ _ _ | .ppsInEdge _ | .ppsInTimeMessage _ | .ptpSample _ _ _ _ | .qlReport _ _ _ _
  | .lineSlotSecond _ _ _ _ _ | .ensembleGrouping | .tsCtlWrite _ | .lrefCtlWrite _ _ | .ppsOutEdge | .ppsOutPulseEnd | .todOutMessage
  | .clsInsert _ | .clsDelete | .clsLookup | .clsCommandDone _ | .insertionPlace _ _ _ _ _ _ _ | .insertedFrameStamp _ _ _ _ _
  | .engState | .timeRead _ | .esmcInfoPdu _ | .qlFailed _ | .cstRead _ _ _ _ | .trigReq _ | .cswReq _ _ _ | .fbPaceWrite _ _
  | .pwDomWrite _ _ | .voltageSettled _ | .gutterInboundWord _ _ _ _ | .gutterOutboundWord _ _ _ _ | .gutterUnderrun _ _ _
  | .sparReadWord _ _ _ | .sparWriteWord _ _ _ _ _ | .sparReadBlock _ _ _ | .sparWriteBlock _ _ _ _ | .sparResponse _ _ _ _
  | .inflightPlaceFreed | .contextSwitch _ | .pageInComplete _ _ _ _ | .prefetch _ _ | .pagePin _ _ | .pageUnpin _ _ | .evict _ _
  | .scrub _ _ | .windowRead _ _ | .windowWrite _ _ _ | .guardedBlock _ _ | .resendRequest _ _ _ | .compatChange | .wipeComplete
  | .enq _ _ _ _ _ | .deq _ _ _ _ _ _ | .notify _ _ _ _ | .queueStatus _ _ _ | .queueSweepDone _ _ | .gateOpen _ | .gateStage _ _ _ _ _
  | .commitImmediate _ _ | .commitBoundary _ _ _ | .commitMarker _ _ _ | .gateAbort _ _ | .recordWrite _ | .dmSelWrite _ _
  | .recordCopyDone | .tamperNConfirm | .eavesSupplyGlitch | .dieTemperatureSample _ _ | .tamperEfuseProgram | .clMeasure _ _ _ _ _ _
  | .clRead _ _ _ | .clWrite _ _ _ | .clCancel | .calSliceGrant | .calRunComplete _ | .mbistStart | .mbistStop | .mbistBlockStart
  | .mbistBlockDone _ _ | .repairApply _ _ _ | .repairClear _ | .repairComplete | .lbistStart _ _ | .lbistStop | .lbistEnd _ _
  | .laneTestStart _ _ _ | .laneTestStop _ _ | .snapInEdge _ | .snFire | .timeMatch | .snapOutPulseEnd | .reqActive | .reqNap | .reqRest
  | .reqRestWithTimekeeping | .reqOff | .hostVoteWrite _ _ | .domainEntryComplete _ | .domainExitComplete _ _ | .regionQuiet _
  | .wakeNLow | .padRelease _ | .yealmRead _ _ | .imageLastByte _ | .reload _ | .recover | .keyprog _ | .keyrevoke _ | .rcvabort
  | .recoveryDataWrite _ | .privateWrite _ _ _ _ _ | .privateRead _ _ _ _ _ | .enec _ _ | .disec _ _ | .rstdaa | .entdaa _ | .setmwl _ _
  | .setdasa _ _ | .getmwl | .getpid | .getbcr | .getdcr | .getstatus | .rstact _ _ | .targetResetPattern | .ibiRequest _ | .challenge
  | .verify | .relock | .gkeyprog | .extest | .idcode | .samplePreload _ _ | .extestPulse | .extestTrain | .clamp | .highz | .bypass _
  | .laneAcquireLock _ _ | .alignmentMarkerLock _ _ _ _ | .partnerTrainingEnd _ _ | .partnerReceiverDetection _ _
  | .patternCheckerLock _ _ _ | .keyProgrammingDone => 1

/-- The turn of a command among those of one level and unit: requests to a queue as R255 orders them; messages of a service port in
round-robin from the region after the one served last (R211). -/
def Dev.turnOf (d : Dev) (c : Instr) : Nat :=
  let share (r : Nat) : Nat := (r / 16 + 7 - d.svcTurn.at (r % 16) 3) % 4
  match c with
  | .enq who port _ _ _ => who.val * 4 + port.val
  | .deq who port _ _ _ _ => 4096 + who.val * 4 + port.val
  | .notify who port _ _ => 4096 + who.val * 4 + port.val
  | .queueStatus who port _ => 8192 + who.val * 4 + port.val
  | .cstRead r _ _ _ | .trigReq r | .cswReq r _ _ => share r.val
  | _ => 0

/-- Domains that drop at once drop in reverse power-up order: the L rows, then M, C and D, then the A rows and AT (R326). -/
def dropRank (c : Instr) : Nat :=
  match c with
  | .domainEntryComplete row => if row.val < 10 then 4 else if row.val = rowM then 1 else if row.val = rowC then 2 else if row.val = rowD then 3 else 0
  | _ => 0

/-- A host write of a register with a W1C field comes before what sets its bits on the same decision, which then stand (R374). -/
def Dev.writePhase (d : Dev) (c : Instr) : Nat :=
  match c with
  | .registerWrite a _ _ _ => if (d.regAt (a.toNat / 4 * 4)).any (fun r => r.1.fields.any (fun f => decide (f.acc = .W1C))) then 0 else phaseOf c
  | _ => phaseOf c

/-- Of two commands at once, the first is applied before the second: by the rules that order them, then by level, then by unit (R362, R368). -/
def Dev.appliesBefore (d : Dev) (a b : Instr) : Bool :=
  let key (c : Instr) : List Nat := [d.writePhase c, levelOf c, dropRank c, d.unitOf c, d.turnOf c]
  decide (key a < key b)

/-- Insert a command behind those that come before it and those that it does not come before. -/
def Dev.insertAtOnce (d : Dev) (c : Instr) (l : List Instr) : List Instr :=
  match l with
  | [] => [c]
  | x :: rest => if d.appliesBefore c x then c :: x :: rest else x :: d.insertAtOnce c rest

/-- Commands at once in the order in which they are applied; those that nothing orders keep the order in which they came. -/
def Dev.atOnce (d : Dev) (cs : List Instr) : List Instr := cs.foldl (fun l c => d.insertAtOnce c l) []

/-- Commands that reach the part on one decision join its queue. -/
def State.meet (s : State) (cs : List Instr) : State := { s with pending := s.pending ++ s.dev.atOnce cs }

end Sys2Proof.Machine
end

