-- ==== Sys2Proof/WellFormed.lean ====
section
/-! DEFINITION. Which terms of `Instr` stand for a command that the specification's rules can meet: ports and tags that exist
(Table 9.8), an image's header, yealm
headers and signature block of their lengths (R347 to R349), addresses of whole words and blocks, eight beats in a block write (R207, R208 of spec/08_fabric.md), a read whose
ready words are words of it, dynamic addresses outside the ones that I3C reserves.  Every meaning answers on other terms too. -/
namespace Sys2Proof

/-- A spar port of Table 9.8: eight ports a region, two every other master. -/
def SparPort.exists_ (p : SparPort) : Bool := decide (p.port.val < if p.master.val < 64 then 8 else 2)

/-- A tag of a spar port: 16 a region port, one at the management window, 64 elsewhere. -/
def SparPort.hasTag (p : SparPort) (tag : Fin 64) : Bool :=
  decide (tag.val < if p.master.val < 64 then 16 else if p.master.val = 66 then 1 else 64)

/-- An address of a whole unit of 2^k bytes. -/
def aligned (addr : BitVec 29) (k : Nat) : Bool := decide (addr.toNat % 2 ^ k = 0)

/-- The guarded block belongs to a port that exists. -/
def GuardedBlock.exists_ (b : GuardedBlock) : Bool :=
  match b with
  | .request p t _ _ _ | .response p t _ => p.exists_ && p.hasTag t
  | .message p (some r) _ => decide (r.val % 16 = p.val)
  | _ => true

/-- An address that an I3C target may be given: 0x7E and those reserved below 0x08 are not. -/
def assignable (da : BitVec 7) : Bool := decide (8 ≤ da.toNat ∧ da.toNat < 0x7E)

/-- The command can be met. -/
def WellFormed (i : Instr) : Bool :=
  match i with
  | .sparReadWord p t a => p.exists_ && p.hasTag t && aligned a 5
  | .sparWriteWord p t a _ _ => p.exists_ && p.hasTag t && aligned a 5
  | .sparReadBlock p t a => p.exists_ && p.hasTag t && aligned a 8
  | .sparWriteBlock p t a beats => p.exists_ && p.hasTag t && aligned a 8 && decide (beats.length = 8)
  | .sparResponse p t _ _ => p.exists_ && p.hasTag t
  | .guardedBlock b _ => b.exists_
  | .privateRead _ words ready _ _ => decide (ready ≤ words)
  | .entdaa da => assignable da
  | .setdasa _ da => assignable da
  | .yealmRead h y => decide (h.length = 512) && decide (y.head.length = 16)
  | .imageLastByte g => decide (g.bytes.length = 256)
  | _ => true

end Sys2Proof
end

