-- ==== Sys2Proof/Tests/Slice0.lean ====
section
/-! SUPPORT. The model's own tests: the well-formedness checks refuse an ill-formed term each, single steps do what the spec
says on small states, and every clause of every obligation has a state and operands that meet its hypotheses. -/
namespace Sys2Proof.Tests
open Sys2Proof.Machine
set_option maxRecDepth 8000

/-! ## States for tests -/

/-- A state after reset with some fields set, and then changed. -/
def raw (l : List (Fld × Nat × Nat)) (g : Dev → Dev := fun d => d) : State :=
  { State.reset with dev := g (l.foldl (fun d p => d.wr p.1 p.2.1 p.2.2) State.reset.dev) }
/-- The same with power good. -/
def sw (l : List (Fld × Nat × Nat)) (g : Dev → Dev := fun d => d) : State :=
  raw l (fun d => g (d.modPw (fun p => { p with good := true })))

/-- A row of Table 14.1 is On. -/
abbrev up (row : Nat) : Fld × Nat × Nat := (F.PW_DOM_STATE, row, 2)


/-- KSTATE of a transceiver's receive direction. -/
abbrev lk (l v : Nat) : Fld × Nat × Nat := (F.LN_STS_KSTATE, l, v)
/-- KSTATE of a course. -/
abbrev ck (n v : Nat) : Fld × Nat × Nat := (F.CS_STS_KSTATE, n, v)
/-- Course 0 enabled, in a mode, under a protocol, with lane 0 as its member. -/
abbrev c0 (mode proto : Nat) : List (Fld × Nat × Nat) :=
  [(F.CS_CTL_ENABLE, 0, 1), (F.CS_CTL_MODE, 0, mode), (F.CS_CTL_PROTO, 0, proto), (F.CS_LANES_LANES, 0, 1)]
/-- An insertion point of course 0 whose queue 5 holds one record of 60 octets on page 0. -/
def insState : State :=
  { sw ([ck 0 4, lk 0 2, lk 64 2, up 74, (F.TS_IE_CTL_INS_EN, 0, 1), (F.TS_IE_CTL_IQ, 0, 5), (F.PU_QCFG_EN, 5, 1), (F.PU_QCFG_GROUP, 5, 1024),
      (F.PU_QDEPTH_DEPTH, 5, 1), (F.PU_QPAGES_PAGES, 5, 1), (F.PU_QLIM_CONS, 5, 0x40), (F.PU_QSTS_KSTATE, 5, 2), (F.TS_IE_STS_CREDIT, 0, 200)]
      ++ c0 2 0) (fun d => d.modPu (fun p => { p with ptes := [(0, { state := 1, eoq := true, queue := 5, fill := 76, sor := true, eor := true })] }))
    with mem := [⟨0, 60⟩] }
/-- Region 0 with a page frame in slot 2 and paged context P04, whose page-in is to be retried. -/
def retryState : State :=
  sw [up 10, up 75, (F.FB_SLOT_KIND, 2, 2), (F.FB_CFG_FRAMES, 0, 4)] (fun d => { d.modFb 0 (fun x =>
    { x with retry := true, sel := some { ctx := ⟨true, 4⟩ } }) with img := { paged := 16 } })
/-- The same region with P04 resident in slot 2. -/
def pagedState : State :=
  sw [up 10, up 75, (F.FB_SLOT_KIND, 2, 3), (F.FB_SLOT_PNUM, 2, 4), (F.FB_CFG_FRAMES, 0, 4)] (fun d => { d with img := { paged := 16 } })
/-- An operation waits on port 0 of master 66. -/
abbrev op66 : Op := { master := 66, port := 0, tag := 0, kind := 1, addr := 0x1000, beats := [(2 ^ 32 - 1, 77)] }
/-- The part with K_GATE programmed and some fields set. -/
def keyed (l : List (Fld × Nat × Nat)) (g : Dev → Dev := fun d => d) : State :=
  sw l (fun d => g { d with fuse := { kGate := List.replicate 32 1 } })
/-- A staged write of window 0 of region 0: EN and BASE. -/
abbrev winWrite : StagedWrite := { addr := 0x300060, reg := .FB_WIN_BASE, i := 0, data := 0x10001, mask := 0x7FF0001 }
/-- Slot `k` awaits an immediate commit of these staged writes. -/
def commitState (k : Nat) (ws : List StagedWrite) (l : List (Fld × Nat × Nat)) (g : Dev → Dev := fun d => d) : State :=
  sw ([(F.TG_SLOT_STS_STATE, k, 2)] ++ l) (fun d => g (d.modGate k (fun _ => { staged := ws })))
/-- A run of TXTRIM-like calibration on a bay, under good conditions. -/
abbrev run1 : CalRun := { fields := [3, 4], before := false, input := 0, vcal := 10000, calref := true, ppsIn := true, phase := 0, fofs := 0 }
/-- The part as a calibration of kind 1 needs it: every lane of the bay in Disabled. -/
def cal1 : State := sw []
/-- A calibration of kind 1 on target 7 is under way, with these runs done. -/
def calRun (wanted : Nat) (runs : List (List Int)) : State :=
  { cal1 with dev := { cal1.dev with cal := { phase := .measure, op := 1, kind := 1, target := 7, apply := true, runsWanted := wanted, runs := runs } } }
/-- The words of HMAC-SHA-256 over the reset challenge under `keyed`'s K_GATE. -/
def tagOf (j : Nat) : Nat := [3495182775, 3771671548, 278627400, 386812957].getD j 0
/-- The smallest acceptable image: a header and the four yealms that Table 15.6 requires. -/
def hdr : ImageHeader :=
  { magic := 0x43525053, format := 1, hdrlen := 512, part := 0x6408, imglen := 1024, nyealm := 4, sigofs := 768, build := 7, version := 9, crcOk := true }
def bare (ty : BitVec 8) : Yealm := { ty := ty, inst := 0, len := 0, ulen := 0, crcOk := true, decomp := none, settings := [] }
/-- A load from flash image A under way, with some yealms read. -/
def loading (ys : List Yealm) (next : List Nat) : State :=
  sw [(F.CF_STS_LOADING, 0, 1), (F.CF_FLASH_DENSITY, 0, 26), (F.PW_STS_DEV, 0, 1), up 74, up 75] (fun d => d.modBoot (fun b =>
    { b with image := 1, next := next, header := if ys = [] then none else some hdr, yealms := ys, offset := 512 + 64 * ys.length }))
def ecc : Option FlashFound := some { mode := 1, freq := 0, density := 26 }
/-- The same. -/
abbrev live (l : List (Fld × Nat × Nat)) (g : Dev → Dev := fun d => d) : State := sw l g
/-- A load over the management bus under way, with this receive buffer. -/
def rcv (l : List Nat) : State :=
  sw [(F.CF_STS_LOADING, 0, 1), (F.CF_RCV_STS_ACTIVE, 0, 1), (F.CF_RCV_CNT_COUNT, 0, 8)] (fun d => d.modBoot (fun b => { b with image := 3, rcv := l }))
/-- The state that a command answers. -/
def next (c : Instr) (s : State) : State := match exec c s with | .next t => t | _ => s
/-- A part in Active after the address match and the header of a private write at address 0x20. -/
def busState : State :=
  let s := live [(F.PW_STS_DEV, 0, 1)]
  { s with dev := { s.dev.addressMatch with mg := { s.dev.addressMatch.mg with nack := false, curAddr := 0x20 } } }
/-- The state that a step answers. -/
def stepped (s : State) : State := match step s with | .next t => t | _ => s
/-- A candidate frame to be corrected, at the head of side A's frames of transceiver 0. -/
def flight12 : FlightX := { bytes := [1, 2, 3, 4, 5, 6, 7, 8, 9, 10, 11, 12], tIn := 0, candidate := true, correct := true }
def sentState : State := sw [] (fun d => d.modPoint 0 (fun x => { x with flight := [flight12] }))
/-- A guarded request block of port 0 of master 66, with its CRC-32C. -/
def gblock : GuardedBlock := .request ⟨66, 0⟩ 0 0 5 []
def crcOf (b : GuardedBlock) : BitVec 32 := BitVec.ofNat 32 (crc32c (guardBytes b))
def gword : GutterWord := { data := 5, ctl := 0, bnd := false, err := false }
/-- Transceiver 0's side A with an active half to region 3. -/
def gutState : State := sw ([ck 0 4, lk 0 2, lk 64 2, up 13, (F.CS_CTL_VIA_FABRIC, 0, 1), (F.FB_GUTMAP_MAP, 12, 1)] ++ c0 2 0)
/-- The block after `n` failed transfers. -/
def failed (n : Nat) : State := sw [] (fun d => d.modMt (fun m => { m with guards := [(guardKey gblock, { fails := n, block := gblock })] }))
/-- The stored bytes of a yealm with no payload. -/
abbrev bareY (ty : BitVec 8) : YealmBytes := { head := [ty] ++ List.replicate 15 0, payload := [], decomp := none, settings := [] }
/-- A signature block of ALG 1. -/
def sigY (v : Bool) : SigBytes := { bytes := [1, 0], keyHash := 0, verifies := v }
/-- What the loader has before it in a state. -/
def hOf (hb : List (BitVec 8)) (s : State) : ImageHeader := s.dev.boot.header.getD (readHeader (s.dev.boot.headerBytes hb))
def yOf (yb : YealmBytes) (s : State) : Yealm := readYealm (s.dev.boot.yealmBytes yb)
/-- A bus load whose header has been read and which has given one word since. -/
def rcvHdr : State := (rcv [1]).on (fun d => d.modBoot (fun b => { b with header := some hdr }))
/-- The same where one byte more than MWL = 7 allows arrives. -/
def ovfDev : Dev := (live [(F.PW_STS_DEV, 0, 1), (F.MG_BUS_MWL, 0, 7)]).dev.addressMatch.busSts F.MG_BUSSTS_MWLOVF
def ovfState : State := { live [(F.PW_STS_DEV, 0, 1), (F.MG_BUS_MWL, 0, 7)] with dev := { ovfDev with mg := { ovfDev.mg with nack := false, curAddr := 0x20 } } }

/-! ## Ill-formed terms are refused -/

abbrev goodPort : SparPort := ⟨66, 0⟩
theorem test_wf_port : WellFormed (.sparReadWord ⟨64, 2⟩ 0 0) = false := by decide
theorem test_wf_tag : WellFormed (.sparReadWord goodPort 1 0) = false ∧ WellFormed (.sparReadWord ⟨3, 7⟩ 16 0) = false := by decide
theorem test_wf_word_aligned : WellFormed (.sparWriteWord goodPort 0 0x10 0 0) = false := by decide
theorem test_wf_block_aligned : WellFormed (.sparReadBlock goodPort 0 0x20) = false := by decide
theorem test_wf_beats : WellFormed (.sparWriteBlock goodPort 0 0x100 []) = false := by decide
theorem test_wf_response : WellFormed (.sparResponse ⟨68, 7⟩ 0 [] []) = false := by decide
theorem test_wf_guarded : WellFormed (.guardedBlock (.message 3 (some 20) []) 0) = false := by decide
theorem test_wf_ready : WellFormed (.privateRead true 1 2 [] []) = false := by decide
theorem test_wf_address : WellFormed (.entdaa 0x7E) = false ∧ WellFormed (.setdasa 0x58 2) = false := by decide
theorem test_wf_good : WellFormed (.sparReadWord ⟨3, 7⟩ 15 0x20) = true ∧ WellFormed (.guardedBlock (.message 4 (some 20) []) 0) = true := by decide

/-! ## Table rows and single numbers that the spec works out -/

/-- Table 2.2: N = 82.5 for FG and N = 80 for FA, in quarters. -/
theorem test_pll_n : pllNdiv 7 3 = 330 ∧ pllNdiv 1 2 = 320 := by decide

/-- The worked example after R225 of spec/09_memory_tier.md: 0x012_3400 lies in bank 416, 0x022_3400 too, 0x012_3420 in 417. -/
theorem test_bank : bankOf 0x123400 = 416 ∧ bankOf 0x223400 = 416 ∧ bankOf 0x123420 = 417 := by decide

/-- The worked example of Quotas in spec/10_purlin_transactions.md: the reserves of G001 to G004, and what a queue of G003 and one of
G004 leave to the groups beside their paths. -/
def pools : Dev :=
  (sw ([(1, 1024, 4000, 2500), (2, 1, 3000, 2500), (3, 1, 1000, 0), (4, 1024, 8000, 1000)].flatMap (fun (p : Nat × Nat × Nat × Nat) =>
    [(F.PU_GCFG_EN, p.1, 1), (F.PU_GCFG_PARENT, p.1, p.2.1), (F.PU_GMIN_MIN, p.1, p.2.2.1), (F.PU_GUSED_USED, p.1, p.2.2.2)])
    ++ [(F.PU_QCFG_EN, 7, 1), (F.PU_QCFG_GROUP, 7, 3), (F.PU_QCFG_EN, 8, 1), (F.PU_QCFG_GROUP, 8, 4)])).dev
theorem test_reserves : pools.reserve 5 2 = 500 ∧ pools.reserve 5 3 = 1000 ∧ pools.reserve 5 1 = 1500 ∧ pools.reserve 5 4 = 7000 := by decide
theorem test_held_back : pools.heldBack 7 = 7500 ∧ pools.heldBack 8 = 1500 := by decide

/-! ## Single commands -/

/-- Table 9.3: FR05's normal write of 0xAA to bytes 0 to 15, and Purlin's set of 0x0F in bytes 8 to 31, at once. -/
def clash : State :=
  let s := sw [up 74, up 15, (F.FB_WIN_BASE_EN, 20, 1), (F.FB_WIN_BASE_BASE, 20, 0x12), (F.FB_WIN_LIM_LIM, 20, 0x12)]
  let s1 := next (.sparWriteWord ⟨5, 0⟩ 0 0x123420 0x0000FFFF (BitVec.ofNat 256 ((2 ^ 256 - 1) / 255 * 0xAA))) s
  let s2 := next (.sparWriteWord ⟨64, 0⟩ 0 0x8123420 0xFFFFFF00 (BitVec.ofNat 256 ((2 ^ 256 - 1) / 255 * 0x0F))) s1
  next (.sparResponse ⟨64, 0⟩ 0 [] []) (next (.sparResponse ⟨5, 0⟩ 0 [] []) s2)
theorem test_collision_bytes :
    clash.mem = (List.range 8).map (fun k => ⟨0x123420 + k, 0xAA⟩) ++ (List.range 8).map (fun k => ⟨0x123428 + k, 0xAF⟩)
      ++ (List.range 16).map (fun k => ⟨0x123430 + k, 0x0F⟩) := by decide
theorem test_collision_log : clash.dev.word .MT_COLLIDE = 0x80044005 ∧ clash.dev.word .MT_COLLIDE_ADDR = 0x123420
    ∧ clash.dev.word .MT_CONF 5 = 1 ∧ clash.dev.word .MT_CONF 64 = 1 := by decide

/-- Table 6.6: the Sync message, from its ingress latch to the correction stage. -/
def syncBody : List Byte :=
  [0x01, 0x1B, 0x19, 0, 0, 0, 2, 0, 0, 0, 0, 1, 0x81, 0, 0, 5, 0x88, 0xF7, 0, 2, 0, 44, 0, 0, 0, 0, 0, 0, 0, 0, 0, 0x12, 0x80, 0,
   0, 0, 0, 0, 0, 0, 0, 0, 0, 0, 0, 0, 0, 1, 0x1A, 0x2B, 0, 0, 0, 0, 0, 0, 0, 0, 0, 0, 0, 0]
def syncAt (s : State) (ns : Nat) (eighths : Nat) : State := { s with dev := { s.dev with tb := { s.dev.tb with acc := ns * accNs + accNs / 8 * eighths } } }
def syncIn : State :=
  let s := sw [(F.CS_CTL_ENABLE, 16, 1), (F.CS_CTL_MODE, 16, 2), (F.CS_CTL_TIMING, 16, 1), (F.CS_RATE_RATE, 16, 0xF), (F.CS_LANES_LANES, 32, 0x10000),
      ck 16 4, lk 16 2, (F.TB_STS_MODE, 0, 1), (F.TB_STS_LOCK, 0, 1), (F.TSU_CTL_PTP_EN, 32, 1)]
    (fun d => { d with cal := { d.cal with trims := [(calKey 5 32 0xF, [37376, 60160])] } })
  next (.frameIngress 16 .a ⟨syncBody ++ bytesLE (crc32eth syncBody) 4, 0, 10, none, false, [], []⟩) (syncAt s 74200014 4)
def syncOut : State := next (.frameCorrection 16 .a 0 15) (syncAt syncIn 74200157 1)
theorem test_sync_residence : syncOut.dev.word .TSU_LAST_RES 32 = 0x3B847 ∧ syncOut.dev.word .TSU_LAST_INFO 32 = 0x1A2B
    ∧ syncOut.dev.word .TSU_CNT_CORR 32 = 1 := by decide
theorem test_sync_field : ((syncOut.dev.point 32).sent.drop 26).take 8 = [0, 0, 0, 0, 1, 0, 0x91, 0xC0] := by decide

/-- Table 17.4: seven octets of a private write set TG_UL_REQ; a locked Gate refuses OPEN with LOCKED, an unlocked one gives slot 9. -/
def octets (l : List Nat) : List BusByte := l.map (fun b => ⟨BitVec.ofNat 8 b, true⟩)
theorem test_bus_write : (next (.privateWrite false (octets [0, 0x31, 4, 0x58, 2, 0, 0]) [] none []) busState).dev.rd F.TG_UL_REQ_DUR = 600 := by decide
theorem test_open_locked : (next (.gateOpen .host) (keyed [])).dev.word .TG_RES = 2 := by decide
theorem test_open_unlocked : (next (.gateOpen .host) (keyed [(F.TG_UL_STS_STATE, 0, 2)])).dev.word .TG_RES = 0x900 := by decide
/-- A wrong tag: Locked, RESULT 2, FAILS 1, and a CHALLENGE before 1 s has passed ends with RESULT 3. -/
def mistaken : State := next .verify (keyed [(F.TG_UL_STS_STATE, 0, 1)])
theorem test_wrong_tag : mistaken.dev.word .TG_UL_STS = 0x110 := by decide
theorem test_challenge_waits : (next .challenge mistaken).dev.rd F.TG_UL_STS_RESULT = 3 := by decide

/-- The worked example before Table 8.13: CAP = 150 lies below FLOOR = 235 and is discarded with WREJ. -/
def paced : State := next (.fbPaceWrite 2 150) (sw [up 12, (F.FB_PACE_CAP, 2, 400), (F.FB_PACE_FLOOR, 2, 235)])
theorem test_pace_floor : paced.dev.rd F.FB_PACE_CAP 2 = 400 ∧ paced.dev.on F.FB_STS_WREJ 2 = true := by decide

/-- The worked example after R306: a column repair of bank 0x1D3 leaves 4 rows and 1 column. -/
def repaired : State := next .repairComplete (next (.repairApply 0x1D3 true 131) (sw [up 74]))
theorem test_repair : repaired.dev.word .ST_MREP_STS = 0xC0 := by decide

/-- Table 12.9: the offsets of two runs, and CL_RES0 and CL_RES1. -/
theorem test_coff : calPack 2 (calResult 2 [[3, -1, 0, 2, -2, 1, 0, -1], [3, -1, 1, 2, -2, 1, 0, -1]]) = [0x3E080FC3, 0x3F001, 0] := by decide

/-- Table 3.15: the automatic switch leaves C302 active once C301 is Down. -/
def protection : State :=
  sw [(F.CS_CTL_ROLE, 300, 1), (F.CS_CTL_ENABLE, 300, 1), (F.CS_SEL_ACTIVE, 300, 0x32D), (F.UD_STATE_ACTIVE, 0x32C, 0x32D), (F.UD_IDENT_POLICY, 0x32C, 3),
    (F.UD_IDENT_AUTO, 0x32C, 1), (F.UD_LINKS_FIRST_CHILD, 0x32C, 0x32D), (F.UD_LINKS_NEXT_SIB, 0x32D, 0x32E), ck 300 4, ck 301 1, ck 302 4,
    (F.UD_IDENT_PARENT, 0x32D, 0x32C), (F.UD_IDENT_PARENT, 0x32E, 0x32C), (F.CS_CTL_ENABLE, 301, 1), (F.CS_CTL_ENABLE, 302, 1),
    (F.UD_STATE_HEALTH, 0x32D, 3), (F.UD_STATE_HEALTH, 0x32E, 0)]
theorem test_protection : (next (.healthPublish 0x32C) protection).dev.rd F.CS_SEL_ACTIVE 300 = 0x32E := by decide

/-- Table 15.9: BOOT_SEL 0, PROFILE 0 and ADDR_SEL 3 show in CF_STS as 0x60. -/
theorem test_straps : (next (.powerGood 0 0 3) State.reset).dev.word .CF_STS = 0x60 := by decide

/-- Table 16.3: a time match and the lane lock loss source fire on one tick as one event, whose sources are 3 and 4. -/
def matched : State :=
  next (.lossConfirmed 26 .a) (next .timeMatch (next (.lossIndication 26 .a .cdr)
    (sw [up 9, (F.LN_STS_SIGDET, 26, 1), (F.SN_CTL_MATCH_EN, 0, 1), (F.SN_SRCEN_EN, 0, 0x4C), (F.SN_LOLMASK_MASK, 0, 2 ^ 26), lk 26 2, (F.CS_CTL_ENABLE, 24, 1), (F.CS_CTL_MODE, 24, 1),
      (F.CS_LANES_LANES, 48, 0x0F000000), ck 24 4])))
theorem test_one_event : matched.dev.rd F.SN_LAST_MASK = 0x0C ∧ matched.dev.word .SN_CNT_EVT = 1 ∧ matched.dev.rd F.LN_STS_KSTATE 26 = 4 := by decide

/-- Table 7.12: no pulse for 1.5 s with three groups takes the engine from Locked to Holdover-Ensemble, TS_STS 0x1_1903. -/
def gnss : State :=
  sw [up 9, (F.TS_CTL_ENABLE, 0, 1), (F.TS_CTL_PPS_EN, 0, 1), (F.TS_STS_STATE, 0, 2), (F.TS_STS_ACTREF, 0, 1), (F.TS_STS_NMEM, 0, 4), (F.TS_STS_NGRP, 0, 3),
      (F.TS_STS_FMEM, 0, 1), (F.TS_STS_PPSQ, 0, 1), (F.TB_STS_LOCK, 0, 1), (F.TB_STS_MODE, 0, 1)]
    (fun d => { d with eng := { d.eng with lastRef := 1, ppsFree := some 0, groups := [⟨[0], {}, {}, {}⟩, ⟨[1], {}, {}, {}⟩, ⟨[2, 3], {}, {}, {}⟩] } })
theorem test_holdover : (next .ppsPulseTimeout gnss).dev.word .TS_STS = 0x11903 := by decide

/-- The table gives its rows no bits: no word spells a command. -/
theorem test_no_words : decodeTableWord 16 0x1234 = none := by decide

/-! ## Every clause of the obligations applies somewhere -/

/-- Every clause of IdleStepLetsTimePass applies somewhere. -/
theorem test_meets_IdleStepLetsTimePass :
    (∃ s : State, s.pending = []) :=
  ⟨sw [], by decide⟩

/-- Every clause of TierMKeepsItsForm applies somewhere. -/
theorem test_meets_TierMKeepsItsForm :
    (∃ s : State, ∃ t : State, State.wf s ∧ step s = .next t) :=
  ⟨State.reset, stepped State.reset, ⟨by unfold State.wf; decide, rfl⟩⟩

/-- Every clause of ResetState applies somewhere. -/
theorem test_meets_ResetState :
    (∃ row : Nat, 0 < row ∧ row < 77) ∧
    (∃ n : Nat, n < 512) ∧
    (∃ l : Nat, l < 128) :=
  ⟨⟨76, by decide⟩,
   ⟨511, by decide⟩,
   ⟨127, by decide⟩⟩

/-- Every clause of PowerUpSequence applies somewhere. -/
theorem test_meets_PowerUpSequence :
    (∃ s : State, s.dev.pw.good = false) ∧
    (∃ s : State, s.dev.pw.seq = some 1) ∧
    (∃ s : State, s.dev.pw.seq = some 2 ∧ s.dev.on F.PW_STS_BUSY = false ∧ s.dev.pw.core = true) ∧
    (∃ s : State, s.dev.pw.seq = some 3 ∧ s.dev.pw.core = true) ∧
    (∃ s : State, s.dev.pw.seq = some 4) ∧
    (∃ s : State, 1 ≤ (s.dev.ref 0).id ∧ (s.dev.ref 0).id ≤ 4) :=
  ⟨⟨raw [], by decide⟩,
   ⟨sw [] (fun d => (d.modPw (fun p => { p with good := true, seq := some 1 })).modDom 1 (fun x => { x with phase := .exiting })), by decide⟩,
   ⟨sw [] (fun d => d.modPw (fun p => { p with good := true, seq := some 2, core := true })), by decide⟩,
   ⟨sw [] (fun d => (d.modPw (fun p => { p with good := true, seq := some 3, core := true })).modDom rowM (fun x => { x with phase := .exiting })), by decide⟩,
   ⟨sw [] (fun d => (d.modPw (fun p => { p with good := true, seq := some 4 })).modDom 10 (fun x => { x with phase := .exiting })), by decide⟩,
   ⟨sw [] (fun d => d.modRef 0 (fun x => { x with id := 2 })), by decide⟩⟩

/-- Every clause of DomainsReachTheirStates applies somewhere. -/
theorem test_meets_DomainsReachTheirStates :
    (∃ row : Fin 77, ∃ s : State, (s.dev.dom row.val).phase = .exiting) ∧
    (∃ row : Fin 77, ∃ s : State, row.val ≠ 0 ∧ (s.dev.dom row.val).phase = .entering) ∧
    (∃ row : Fin 77, ∃ s : State, (s.dev.dom row.val).phase = .exiting ∧ s.dev.on F.PW_STS_BUSY = false ∧ s.dev.pw.seq = none) :=
  ⟨⟨10, sw [] (fun d => d.modDom 10 (fun x => { x with phase := .exiting })), by decide⟩,
   ⟨10, sw [up 10] (fun d => d.modDom 10 (fun x => { x with phase := .entering })), by decide⟩,
   ⟨10, sw [(F.PW_DOM_STATE, 10, 3)] (fun d => d.modDom 10 (fun x => { x with phase := .exiting })), by decide⟩⟩

/-- Every clause of DeviceStateRequests applies somewhere. -/
theorem test_meets_DeviceStateRequests :
    (∃ s : State, s.dev.restful ∧ s.dev.rd F.PW_STS_DEV = 1) ∧
    (∃ s : State, s.dev.restful ∧ (s.dev.rd F.PW_STS_DEV = 1 ∨ s.dev.rd F.PW_STS_DEV = 2)) ∧
    (∃ s : State, s.dev.restful ∧ (s.dev.rd F.PW_STS_DEV = 1 ∨ s.dev.rd F.PW_STS_DEV = 2)) ∧
    (∃ s : State, s.dev.restful ∧ 1 ≤ s.dev.rd F.PW_STS_DEV ∧ s.dev.rd F.PW_STS_DEV ≤ 4) ∧
    (∃ s : State, s.dev.restful ∧ 2 ≤ s.dev.rd F.PW_STS_DEV ∧ s.dev.rd F.PW_STS_DEV ≤ 5) ∧
    (∃ s : State, s.dev.restful ∧ s.dev.on F.PW_WAKEEN_WAKEN = true ∧ 2 ≤ s.dev.rd F.PW_STS_DEV ∧ s.dev.rd F.PW_STS_DEV ≤ 5) :=
  ⟨⟨sw [] (fun d => d.modPw (fun p => { p with good := true })), by unfold Dev.restful; decide⟩,
   ⟨sw [(F.PW_STS_DEV, 0, 2)] (fun d => d.modPw (fun p => { p with good := true })), by unfold Dev.restful; decide⟩,
   ⟨sw [] (fun d => d.modPw (fun p => { p with good := true })), by unfold Dev.restful; decide⟩,
   ⟨sw [(F.PW_STS_DEV, 0, 4)] (fun d => d.modPw (fun p => { p with good := true })), by unfold Dev.restful; decide⟩,
   ⟨sw [(F.PW_STS_DEV, 0, 5)] (fun d => d.modPw (fun p => { p with good := true })), by unfold Dev.restful; decide⟩,
   ⟨sw [(F.PW_STS_DEV, 0, 3), (F.PW_WAKEEN_WAKEN, 0, 1)] (fun d => d.modPw (fun p => { p with good := true })), by unfold Dev.restful; decide⟩⟩

/-- Every clause of VotesVoltagesTimersPads applies somewhere. -/
theorem test_meets_VotesVoltagesTimersPads :
    (∃ s : State, s.dev.pw.good = true ∧ s.dev.on F.PW_STS_BUSY = false) ∧
    (∃ r : Fin 64, ∃ col : Nat, ∃ s : State, s.dev.pw.good = true ∧ s.dev.on F.PW_STS_BUSY = false ∧ s.dev.isQuiet r.val = true ∧ col < 64 ∧ ((s.dev.img.rows.at r.val []).any (fun row => bit s.dev.pw.quiesce row) = true) ∧ s.dev.img.column = [(r.val, col)]) ∧
    (∃ row : Fin 127, row.val ≠ 0) ∧
    (∃ row : Fin 77, ∃ t : Nat, ∃ s : State, 10 ≤ row.val ∧ s.dev.pw.vtarget.find? row.val = some t ∧ t < 256) ∧
    (∃ k : Fin 4, ∃ s : State, s.dev.on F.PW_ETIM_CTL_EN k.val = true ∧ s.dev.rd F.PW_ETIM_CNT_CNT k.val ≠ 0 ∧ s.dev.on F.PW_ETIM_CTL_WAKE k.val = false) ∧
    (∃ s : State, s.dev.pw.holdrep = true ∧ s.dev.on F.PW_STS_BUSY = true ∧ s.dev.pw.up = false ∧ s.dev.rd F.PW_STS_PEND = 0 ∧ s.dev.rd F.PW_STS_DEV ≠ 5 ∧ s.dev.heldRows ≠ [] ∧ ((∀ r ∈ s.dev.heldRows, s.dev.effMask r ≠ 0))) :=
  ⟨⟨sw [], by decide⟩,
   ⟨3, 5, sw [] (fun d => { d.modPw (fun p => { p with quiesce := 2 ^ 13 }) with img := { rows := [(3, [13])], column := [(3, 5)] } }), by decide⟩,
   ⟨13, by decide⟩,
   ⟨13, 40, sw [] (fun d => d.modPw (fun p => { p with vtarget := [(13, 40)] })), by decide⟩,
   ⟨2, sw [(F.PW_ETIM_CTL_EN, 2, 1), (F.PW_ETIM_CNT_CNT, 2, 9)], by decide⟩,
   ⟨sw [(F.PW_STS_BUSY, 0, 1), (F.PW_VB_LO_LO, 13, 2), (F.PW_STS_TARGET, 0, 2), up 13] (fun d => d.modPw (fun p => { p with holdrep := true, withdrawn := 2 ^ 13 })), by decide⟩⟩

/-- Every clause of TimebaseCommands applies somewhere. -/
theorem test_meets_TimebaseCommands :
    (∃ s : State, s.dev.domOn rowAT = true ∧ s.dev.tb.waits = [] ∧ s.dev.on F.TB_CTL_OWNER = true ∧ s.dev.on F.SN_CTL_MATCH_EN = false ∧ s.dev.rd F.TB_SET_NS_V ≤ 999999999) ∧
    (∃ s : State, s.dev.domOn rowAT = true ∧ s.dev.tb.waits = [] ∧ s.dev.on F.TB_CTL_OWNER = true ∧ s.dev.on F.SN_CTL_MATCH_EN = false ∧ (signed 32 (s.dev.rd F.TB_STEP_NS_V)).natAbs ≤ 999999999 ∧ 0 ≤ (s.dev.time : Int) + signed 32 (s.dev.rd F.TB_STEP_NS_V) * 65536 + (s.dev.rd F.TB_STEP_FRAC_V : Int) ∧ (s.dev.time : Int) + signed 32 (s.dev.rd F.TB_STEP_NS_V) * 65536 + (s.dev.rd F.TB_STEP_FRAC_V : Int) < timeWrap) ∧
    (∃ s : State, s.dev.domOn rowAT = true ∧ s.dev.tb.waits = []) ∧
    (∃ s : State, s.dev.domOn rowAT = true ∧ s.dev.on F.TB_CTL_OWNER = true) ∧
    (∃ c : Instr, ∃ s : State, (c = .tbLoad ∨ c = .tbStep ∨ (∃ r data, c = .timebaseWrite r data)) ∧ s.dev.domOn rowAT = true ∧ s.dev.tb.waits = [] ∧ s.dev.on F.TB_CTL_OWNER = false) ∧
    (∃ c : Instr, ∃ s : State, (c = .tbLoad ∨ c = .tbStep ∨ c = .tbCapture ∨ (∃ r data, c = .timebaseWrite r data)) ∧ s.dev.domOn rowAT = false) ∧
    (∃ c : Instr, ∃ k : Nat, ∃ s : State, ((c = .tbLoad ∧ k = 1) ∨ (c = .tbStep ∧ k = 2) ∨ (c = .tbCapture ∧ k = 3)) ∧ s.dev.domOn rowAT = true ∧ s.dev.tb.waits ≠ []) ∧
    (∃ s : State, s.dev.tbRefOk = true ∧ (s.dev.dom rowAT).phase = .settled ∧ s.dev.domOn rowAT = true) ∧
    (∃ s : State, s.dev.tb.holding = true) ∧
    (∃ n : Fin 512, ∃ s : State, s.dev.on F.TB_STS_MODE = true ∧ s.dev.inService n.val = true ∧ s.dev.latencyLocked n.val = true) :=
  ⟨⟨sw [up 9, (F.TB_CTL_OWNER, 0, 1), (F.TB_SET_NS_V, 0, 5), (F.TB_SET_S_LO_V, 0, 7)], by decide⟩,
   ⟨sw [up 9, (F.TB_CTL_OWNER, 0, 1), (F.TB_STEP_NS_V, 0, 2 ^ 32 - 3)] (fun d => { d with tb := { acc := 5 * 65536000000000 } }), by decide⟩,
   ⟨sw [up 9] (fun d => { d with tb := { acc := 5 * 65536000000000 } }), by decide⟩,
   ⟨sw [up 9, (F.TB_CTL_OWNER, 0, 1)], by decide⟩,
   ⟨.tbLoad, sw [up 9], ⟨.inl rfl, by decide⟩⟩,
   ⟨.tbCapture, sw [], ⟨.inr (.inr (.inl rfl)), by decide⟩⟩,
   ⟨.tbLoad, 1, sw [up 9] (fun d => { d with tb := { waits := [2] } }), by decide⟩,
   ⟨sw [up 9] (fun d => d.modRef 0 (fun x => { x with id := 1 })), by decide⟩,
   ⟨sw [(F.TB_STS_LOCK, 0, 1)] (fun d => { d with tb := { holding := true } }), by decide⟩,
   ⟨0, sw ([(F.TB_STS_MODE, 0, 1), ck 0 4] ++ c0 1 0), by decide⟩⟩

/-- Every clause of LossSequence applies somewhere. -/
theorem test_meets_LossSequence :
    (∃ tp : Fin 64, ∃ side : Side, ∃ s : State, (s.dev.ks (laneIx tp side) = 1 ∨ s.dev.ks (laneIx tp side) = 2 ∨ s.dev.ks (laneIx tp side) = 3 ∨ s.dev.ks (laneIx tp side) = 7) ∧ (s.dev.cal.phase ≠ .takeover ∨ (s.dev.lane (laneIx tp side)).tShadow = false)) ∧
    (∃ tp : Fin 64, ∃ side : Side, ∃ s : State, (s.dev.ks (laneIx tp side) = 2 ∨ s.dev.ks (laneIx tp side) = 3) ∧ s.dev.cal.phase = .takeover ∧ s.dev.calHolds (laneIx tp side) = true ∧ (s.dev.lane (laneIx tp side)).tShadow = true) ∧
    (∃ tp : Fin 64, ∃ side : Side, ∃ s : State, (s.dev.lane (laneIx tp side)).loss ≠ [] ∧ s.dev.laneCourse tp.val = none ∧ bit (s.dev.rd F.SN_LOLMASK_MASK (tp.val / 32)) (tp.val % 32) = false) ∧
    (∃ tp : Fin 64, ∃ side : Side, ∃ n : Nat, ∃ s : State, (s.dev.lane (laneIx tp side)).loss ≠ [] ∧ s.dev.laneCourse tp.val = some n ∧ s.dev.inService n = true ∧ s.dev.cal.phase = .idle ∧ bit (s.dev.rd F.SN_LOLMASK_MASK (tp.val / 32)) (tp.val % 32) = false) ∧
    (∃ tp : Fin 64, ∃ side : Side, ∃ s : State, (s.dev.lane (laneIx tp side)).tReacq = true) ∧
    (∃ tp : Fin 64, ∃ side : Side, ∃ s : State, (s.dev.lane (laneIx tp side)).tReacq = true ∧ s.dev.on F.LN_STS_ON_FS (laneIx tp side) = false ∧ s.dev.on F.LN_FS_STS_FAULT (laneFs (laneIx tp side)) = false ∧ s.dev.fsOwner (laneFs (laneIx tp side)) = 0 ∧ s.dev.standInNext (laneFs (laneIx tp side)) = none) ∧
    (∃ tp : Fin 64, ∃ side : Side, ∃ s : State, (s.dev.lane (laneIx tp side)).tReacq = true ∧ s.dev.on F.LN_STS_ON_FS (laneIx tp side) = false ∧ (s.dev.on F.LN_FS_STS_FAULT (laneFs (laneIx tp side)) = true ∨ s.dev.fsOwner (laneFs (laneIx tp side)) = 1)) ∧
    (∃ tp : Fin 64, ∃ side : Side, ∃ s : State, (s.dev.lane (laneIx tp side)).tRescue = true ∧ (s.dev.lane (laneIx tp side)).byPrimary = false) ∧
    (∃ tp : Fin 64, ∃ side : Side, ∃ s : State, (s.dev.lane (laneIx tp side)).tRescue = true) ∧
    (∃ tp : Fin 64, ∃ side : Side, ∃ s : State, s.dev.ks (laneIx tp side) = 6 ∧ s.dev.on F.LN_STS_SIGDET (laneIx tp side) = true ∧ (s.dev.lane (laneIx tp side)).sliceFailed = false ∧ (s.dev.lane (laneIx tp side)).standIn = false) :=
  ⟨⟨3, .a, sw [lk 3 2, (F.LN_STS_LOCK, 3, 1)], by decide⟩,
   ⟨3, .a, sw [lk 3 2, (F.LN_FS_STS_OWNER, 0, 2), (F.LN_FS_STS_PAD, 0, 3), (F.CL_STS_STATE, 0, 1)] (fun d => { d.modLane 3 (fun x => { x with tShadow := true }) with cal := { phase := .takeover, kind := 2, target := 3 } }), by decide⟩,
   ⟨3, .b, sw [lk 67 2] (fun d => d.modLane 67 (fun x => { x with loss := [.cdr] })), by decide⟩,
   ⟨0, .a, 0, sw ([lk 0 2, ck 0 4] ++ c0 1 0) (fun d => d.modLane 0 (fun x => { x with loss := [.cdr] })), by decide⟩,
   ⟨0, .a, sw ([lk 0 4, ck 0 5] ++ c0 1 0) (fun d => d.modLane 0 (fun x => { x with tReacq := true })), by decide⟩,
   ⟨0, .a, sw ([lk 0 4, ck 0 5] ++ c0 1 0) (fun d => d.modLane 0 (fun x => { x with tReacq := true })), by decide⟩,
   ⟨0, .a, sw ([lk 0 4, ck 0 5, (F.LN_FS_STS_FAULT, 0, 1)] ++ c0 1 0) (fun d => d.modLane 0 (fun x => { x with tReacq := true })), by decide⟩,
   ⟨0, .a, sw ([lk 0 5, ck 0 5, (F.LN_FS_STS_OWNER, 0, 1)] ++ c0 1 0) (fun d => d.modLane 0 (fun x => { x with tRescue := true })), by decide⟩,
   ⟨0, .a, sw ([lk 0 5, ck 0 5, (F.LN_FS_STS_OWNER, 0, 1)] ++ c0 1 0) (fun d => d.modLane 0 (fun x => { x with tRescue := true })), by decide⟩,
   ⟨0, .a, sw ([lk 0 6, ck 0 5, (F.LN_STS_SIGDET, 0, 1)] ++ c0 1 0), by decide⟩⟩

/-- Every clause of PllsAndReferences applies somewhere. -/
theorem test_meets_PllsAndReferences :
    (∃ bay : Fin 8, ∃ n : Fin 2, ∃ s : State, s.dev.on F.LN_PLL_STS_LOCK (pllIx bay n) = true) ∧
    (∃ bay : Fin 8, ∃ n : Fin 2, ∃ s : State, s.dev.on F.LN_PLL_STS_LOCK (pllIx bay n) = false ∧ s.dev.pllAccepts (pllIx bay n) = true ∧ bit s.dev.boot.barePending bay.val = false ∧ s.dev.on F.CF_STS_BARE = true) ∧
    (∃ r : RefIn, ∃ s : State, (s.dev.ref (refIx r)).edges = false) ∧
    (∃ r : RefIn, ∃ id : Fin 6, ∃ s : State, (s.dev.ref (refIx r)).edges = true ∧ (s.dev.ref (refIx r)).id = 0 ∧ id.val ≠ 0) ∧
    (∃ r : RefIn, ∃ s : State, (s.dev.ref (refIx r)).edges = true) ∧
    (∃ r : RefIn, ∃ s : State, (s.dev.ref (refIx r)).edges = true) :=
  ⟨⟨0, 0, sw [(F.LN_PLL_STS_LOCK, 0, 1), lk 3 1], by decide⟩,
   ⟨0, 0, sw [(F.LN_PLL_CTL_FAMILY, 0, 6), (F.CF_STS_BARE, 0, 1), lk 3 9] (fun d => d.modRef 0 (fun x => { x with edges := true, id := 3 })), by decide⟩,
   ⟨.refclkB, sw [], by decide⟩,
   ⟨.refclkB, 3, sw [(F.LN_PLL_CTL_REFSEL, 0, 1), (F.LN_PLL_CTL_FAMILY, 0, 6)] (fun d => d.modRef 1 (fun x => { x with edges := true })), by decide⟩,
   ⟨.refclkA, sw [(F.LN_PLL_CTL_FAMILY, 0, 6), (F.LN_PLL_STS_LOCK, 0, 1)] (fun d => d.modRef 0 (fun x => { x with edges := true, id := 3 })), by decide⟩,
   ⟨.refclkA, sw [(F.LN_PLL_CTL_FAMILY, 0, 6), (F.LN_PLL_STS_LOCK, 0, 1)] (fun d => d.modRef 0 (fun x => { x with edges := true, id := 3 })), by decide⟩⟩

/-- Every clause of SlicesHandoversAndLaneIdle applies somewhere. -/
theorem test_meets_SlicesHandoversAndLaneIdle :
    (∃ tp : Fin 64, ∃ side : Side, ∃ s : State, (s.dev.lane (laneIx tp side)).sliceFailed = false ∧ s.dev.cal.phase = .idle ∧ s.dev.on F.LN_STS_ON_FS (laneIx tp side) = false) ∧
    (∃ bay : Fin 8, ∃ side : Side, ∃ l : Nat, ∃ s : State, s.dev.standInNext (bay.val + 8 * sideN side) = some l ∧ laneFs l = bay.val + 8 * sideN side ∧ s.dev.on F.LN_FS_STS_FAULT (laneFs l) = false ∧ s.dev.fsOwner (laneFs l) = 0 ∧ s.dev.calOnSlice (laneFs l) = false) ∧
    (∃ bay : Fin 8, ∃ side : Side, ∃ l : Nat, ∃ s : State, fsLane (bay.val + 8 * sideN side) (s.dev.rd F.LN_FS_STS_PAD (bay.val + 8 * sideN side)) = l ∧ (s.dev.lane l).standInAcq = true ∧ s.dev.ks l = 9) ∧
    (∃ tp : Fin 64, ∃ side : Side, ∃ off : Int, ∃ s : State, (s.dev.lane (laneIx tp side)).returning = true ∧ s.dev.on F.LN_STS_ON_FS (laneIx tp side) = true ∧ s.dev.ks (laneIx tp side) = 3 ∧ (s.dev.lane (laneIx tp side)).loss = [] ∧ off.natAbs ≤ 4 ∧ s.dev.cal.phase = .idle ∧ ((side = .b ∨ ∀ n, s.dev.laneCourse tp.val = some n → s.dev.rd F.CS_CTL_MODE n ≠ 1))) ∧
    (∃ tp : Fin 64, ∃ side : Side, ∃ s : State, s.dev.cal.phase = .takeover ∧ s.dev.calHolds (laneIx tp side) = true ∧ (s.dev.lane (laneIx tp side)).tShadow = true) ∧
    (∃ tp : Fin 64, ∃ side : Side, ∃ s : State, s.dev.jtag.out = false ∧ s.dev.on F.LN_STS_SIGDET (laneIx tp side) = false ∧ s.dev.ks (laneIx tp side) ≠ 7 ∧ s.dev.on F.PW_WAKEEN_SIGDET = false ∧ s.dev.laneCourse tp.val = none) ∧
    (∃ tp : Fin 64, ∃ side : Side, ∃ s : State, s.dev.on F.LN_STS_SIGDET (laneIx tp side) = true ∧ s.dev.laneCourse tp.val = none) ∧
    (∃ tp : Fin 64, ∃ side : Side, ∃ lpi : Bool, ∃ n : Nat, ∃ s : State, s.dev.on F.LN_STS_SIGDET (laneIx tp side) = true ∧ s.dev.laneCourse tp.val = some n ∧ s.dev.ks (laneIx tp side) = 2 ∧ s.dev.idlePermitted (laneIx tp side) n lpi = true ∧ s.dev.cal.phase = .idle ∧ ((side = .b ∨ s.dev.rd F.CS_CTL_MODE n ≠ 1))) ∧
    (∃ tp : Fin 64, ∃ side : Side, ∃ n : Nat, ∃ s : State, s.dev.on F.LN_STS_SIGDET (laneIx tp side) = true ∧ s.dev.laneCourse tp.val = some n ∧ (s.dev.ks (laneIx tp side) = 4 ∨ s.dev.ks (laneIx tp side) = 5) ∧ (s.dev.proto n ≠ .pcie ∨ tp.val ∈ s.dev.policyTps n)) ∧
    (∃ tp : Fin 64, ∃ side : Side, ∃ s : State, s.dev.ks (laneIx tp side) = 7 ∧ (s.dev.lane (laneIx tp side)).idleExit = true) ∧
    (∃ tp : Fin 64, ∃ side : Side, ∃ s : State, s.dev.ks (laneIx tp side) = 7 ∧ (s.dev.lane (laneIx tp side)).idleExit = true) ∧
    (∃ tp : Fin 64, ∃ side : Side, ∃ n : Nat, ∃ s : State, s.dev.ks (laneIx tp side) = 7 ∧ (s.dev.lane (laneIx tp side)).idleExit = false ∧ s.dev.laneCourse tp.val = some n ∧ s.dev.proto n = .eth ∧ s.dev.on F.LN_IDLE_TQ_TQ (laneBay (laneIx tp side)) = true) ∧
    (∃ tp : Fin 64, ∃ side : Side, ∃ s : State, (s.dev.ks (laneIx tp side) = 1 ∨ s.dev.ks (laneIx tp side) = 2 ∨ s.dev.ks (laneIx tp side) = 3) ∧ s.dev.on F.LN_STS_SIGDET (laneIx tp side) = true ∧ s.dev.lanePllLocked (laneIx tp side) = true ∧ s.dev.laneCourse tp.val = none) :=
  ⟨⟨0, .a, sw ([lk 0 2, ck 0 4] ++ c0 1 0), by decide⟩,
   ⟨0, .a, 3, sw [lk 3 9] (fun d => { d.modLane 3 (fun x => { x with sliceFailed := true, standInWait := true }) with standQ := [3] }), by decide⟩,
   ⟨0, .a, 0, sw ([lk 0 9, (F.LN_FS_STS_OWNER, 0, 1)] ++ c0 1 0) (fun d => d.modLane 0 (fun x => { x with sliceFailed := true, standInAcq := true })), by decide⟩,
   ⟨0, .b, 0, sw [lk 64 3, (F.LN_STS_ON_FS, 64, 1), (F.LN_FS_STS_OWNER, 8, 1), (F.LN_FS_STS_CARRY, 8, 1)] (fun d => d.modLane 64 (fun x => { x with returning := true })), ⟨by decide, by decide, by decide, by decide, by decide, by decide, .inl rfl⟩⟩,
   ⟨0, .a, sw [lk 0 2, (F.LN_FS_STS_OWNER, 0, 2)] (fun d => { d.modLane 0 (fun x => { x with tShadow := true }) with cal := { phase := .takeover, kind := 2, target := 0 } }), by decide⟩,
   ⟨3, .a, sw [], by decide⟩,
   ⟨3, .a, sw [(F.LN_STS_SIGDET, 3, 1)], by decide⟩,
   ⟨0, .b, true, 0, sw ([lk 64 2, (F.LN_STS_SIGDET, 64, 1), ck 0 4, (F.CS_CTL_EEE, 0, 1)] ++ c0 2 0), ⟨by decide, by decide, by decide, by decide, by decide, .inl rfl⟩⟩,
   ⟨0, .a, 0, sw ([lk 0 4, (F.LN_STS_SIGDET, 0, 1), ck 0 5] ++ c0 1 0), by decide⟩,
   ⟨0, .a, sw ([lk 0 7, (F.LN_STS_SIGDET, 0, 1), ck 0 6] ++ c0 1 0) (fun d => d.modLane 0 (fun x => { x with idleExit := true })), by decide⟩,
   ⟨0, .a, sw ([lk 0 7, (F.LN_STS_SIGDET, 0, 1), ck 0 6] ++ c0 1 0) (fun d => d.modLane 0 (fun x => { x with idleExit := true })), by decide⟩,
   ⟨0, .a, 0, sw ([lk 0 7, ck 0 6, (F.LN_IDLE_TQ_TQ, 0, 5)] ++ c0 1 0), by decide⟩,
   ⟨3, .a, sw [lk 3 1, (F.LN_STS_SIGDET, 3, 1), (F.LN_PLL_STS_LOCK, 0, 1)], by decide⟩⟩

/-- Every clause of LaneSettingsAndCodes applies somewhere. -/
theorem test_meets_LaneSettingsAndCodes :
    (∃ tp : Fin 64, ∃ side : Side, ∃ w : BitVec 32, ∃ s : State, s.dev.domOn (rowA (tp / 8)) = true ∧ bit w.toNat 8 = true ∧ (s.dev.on F.LN_CTL_MANUAL (laneIx tp side) = true ∨ s.dev.laneTraining (laneIx tp side) = false) ∧ 10 ≤ bits w.toNat 0 7 ∧ bits w.toNat 0 7 ≤ 120 ∧ s.dev.txInLaneIdle (laneIx tp side) = false) ∧
    (∃ tp : Fin 64, ∃ side : Side, ∃ w : BitVec 32, ∃ s : State, s.dev.domOn (rowA (tp / 8)) = true ∧ bit w.toNat 8 = false ∧ (bits w.toNat 0 7 ≠ s.dev.rd F.LN_CTL_SWING (laneIx tp side) ∨ bits w.toNat 9 1 ≠ s.dev.rd F.LN_CTL_TX_INV (laneIx tp side) ∨ bits w.toNat 10 1 ≠ s.dev.rd F.LN_CTL_RX_INV (laneIx tp side))) ∧
    (∃ tp : Fin 64, ∃ side : Side, ∃ w : BitVec 32, ∃ s : State, s.dev.domOn (rowA (tp / 8)) = true ∧ s.dev.on F.LN_CTL_MANUAL (laneIx tp side) = true ∧ s.dev.tapsOk (laneIx tp side) (tapsOfWord (w.toNat % 2 ^ 28)) = true ∧ s.dev.txInLaneIdle (laneIx tp side) = false) ∧
    (∃ tp : Fin 64, ∃ side : Side, ∃ w : BitVec 32, ∃ s : State, s.dev.domOn (rowA (tp / 8)) = true ∧ w.toNat % 2 ^ 28 ≠ s.dev.word .LN_TX_FFE (laneIx tp side) ∧ (s.dev.on F.LN_CTL_MANUAL (laneIx tp side) = false ∨ s.dev.tapsOk (laneIx tp side) (tapsOfWord (w.toNat % 2 ^ 28)) = false)) ∧
    (∃ tp : Fin 64, ∃ side : Side, ∃ w : BitVec 32, ∃ s : State, s.dev.domOn (rowA (tp / 8)) = true ∧ s.dev.rd F.LN_RX_EQ_ADAPT (laneIx tp side) = 2 ∧ bits w.toNat 0 6 ≤ 32) ∧
    (∃ tp : Fin 64, ∃ side : Side, ∃ j : Fin 3, ∃ w : BitVec 32, ∃ s : State, s.dev.domOn (rowA (tp / 8)) = true ∧ s.dev.rd F.LN_RX_EQ_ADAPT (laneIx tp side) = 2 ∧ ((∀ m : Fin 4, (signed 8 (bits w.toNat (8 * m) 8)).natAbs ≤ dfeLimit (4 * j + m + 1)))) ∧
    (∃ tp : Fin 64, ∃ side : Side, ∃ w : BitVec 32, ∃ s : State, s.dev.domOn (rowA (tp / 8)) = true ∧ s.dev.rd F.LN_RX_EQ_ADAPT (laneIx tp side) = 2 ∧ s.dev.rd F.LN_RX_FFE_SEL_TAP (laneIx tp side) ≠ 8 ∧ (signed 10 (bits w.toNat 0 10)).natAbs ≤ 128) ∧
    (∃ tp : Fin 64, ∃ side : Side, ∃ j : Fin 3, ∃ w : BitVec 32, ∃ s : State, ∃ c : Instr, s.dev.domOn (rowA (tp / 8)) = false ∧ c ∈ [Instr.lnCtlWrite tp side w, .lnTxFfeWrite tp side w, .lnRxEqWrite tp side w, .lnRxDfeWrite tp side j w, .lnRxFfeDataWrite tp side w]) ∧
    (∃ tp : Fin 64, ∃ side : Side, ∃ g : BitVec 10, ∃ pos : Bool, ∃ s : State, (s.dev.lane (laneIx tp side)).aligned = true ∧ (s.dev.lane (laneIx tp side)).rd = some pos ∧ (decodeIn g.toNat pos).isSome = true) ∧
    (∃ tp : Fin 64, ∃ side : Side, ∃ g : BitVec 10, ∃ pos : Bool, ∃ s : State, (s.dev.lane (laneIx tp side)).aligned = true ∧ (s.dev.lane (laneIx tp side)).rd = some pos ∧ (decodeIn g.toNat pos).isNone = true) ∧
    (∃ tp : Fin 64, ∃ side : Side, ∃ g : BitVec 10, ∃ phase : Fin 10, ∃ s : State, (s.dev.lane (laneIx tp side)).aligned = false ∧ isComma g.toNat = true ∧ ((s.dev.lane (laneIx tp side)).rd = none ∨ (s.dev.lane (laneIx tp side)).comma ≠ some phase.val)) ∧
    (∃ h : BitVec 2, (h = 0 ∨ h = 3)) ∧
    (∃ tp : Fin 64, ∃ side : Side, ∃ h : BitVec 2, ∃ s : State, (h = 1 ∨ h = 2) ∧ (s.dev.lane (laneIx tp side)).blockLock = false ∧ (((rateRow (s.dev.lane (laneIx tp side)).rxRate).elim true (fun r => decide (r.code ≠ .c128b130))) = true)) :=
  ⟨⟨0, .a, 0x0D64, sw [up 1], by decide⟩,
   ⟨0, .a, 0x0030, sw [up 1], by decide⟩,
   ⟨0, .a, 0x00200000, sw [up 1, (F.LN_CTL_MANUAL, 0, 1)], by decide⟩,
   ⟨0, .a, 0x7, sw [up 1], by decide⟩,
   ⟨0, .a, 0x90, sw [up 1, (F.LN_RX_EQ_ADAPT, 0, 2)], by decide⟩,
   ⟨0, .a, 1, 0x0102FF03, sw [up 1, (F.LN_RX_EQ_ADAPT, 0, 2)], by decide⟩,
   ⟨0, .a, 0x3FE, sw [up 1, (F.LN_RX_EQ_ADAPT, 0, 2), (F.LN_RX_FFE_SEL_TAP, 0, 2)], by decide⟩,
   ⟨0, .a, 1, 0x30, sw [], .lnCtlWrite 0 .a 0x30, by decide⟩,
   ⟨0, .a, 0b0011111010, false, sw [] (fun d => d.modLane 0 (fun x => { x with aligned := true, rd := some false })), by decide⟩,
   ⟨0, .a, 0b1100000101, false, sw [] (fun d => d.modLane 0 (fun x => { x with aligned := true, rd := some false })), by decide⟩,
   ⟨0, .a, 0b0011111010, 4, sw [] (fun d => d.modLane 0 (fun x => { x with comma := some 3 })), by decide⟩,
   ⟨3, by decide⟩,
   ⟨0, .a, 1, sw [] (fun d => d.modLane 0 (fun x => { x with hdrRun := 63 })), by decide⟩⟩

/-- Every clause of TransmitterRequestsAndMargining applies somewhere. -/
theorem test_meets_TransmitterRequestsAndMargining :
    (∃ tp : Fin 64, ∃ side : Side, ∃ s : State, s.dev.requestClause (laneIx tp side) ≠ 0) ∧
    (∃ tp : Fin 64, ∃ side : Side, ∃ tap : Tap, ∃ s : State, s.dev.requestClause (laneIx tp side) ≠ 0 ∧ s.dev.on F.LN_CTL_MANUAL (laneIx tp side) = false ∧ ((tap ≠ .cm3 ∧ tap ≠ .cm2) ∨ (s.dev.requestClause (laneIx tp side) ≠ 72 ∧ s.dev.requestClause (laneIx tp side) ≠ 136))) ∧
    (∃ tp : Fin 64, ∃ side : Side, ∃ tap : Tap, ∃ s : State, (tap = .cm3 ∨ tap = .cm2) ∧ s.dev.on F.LN_CTL_MANUAL (laneIx tp side) = false ∧ (s.dev.requestClause (laneIx tp side) = 72 ∨ s.dev.requestClause (laneIx tp side) = 136)) ∧
    (∃ tp : Fin 64, ∃ side : Side, ∃ s : State, s.dev.requestClause (laneIx tp side) ≠ 0 ∧ s.dev.on F.LN_CTL_MANUAL (laneIx tp side) = false) ∧
    (∃ tp : Fin 64, ∃ side : Side, ∃ s : State, s.dev.requestClause (laneIx tp side) = 72 ∧ s.dev.on F.LN_CTL_MANUAL (laneIx tp side) = false) ∧
    (∃ tp : Fin 64, ∃ side : Side, ∃ n : Nat, ∃ s : State, s.dev.requestClause (laneIx tp side) ≠ 0 ∧ s.dev.on F.LN_CTL_MANUAL (laneIx tp side) = false ∧ s.dev.laneCourse tp = some n ∧ ratePam4 (s.dev.rd F.CS_RATE_RATE n) = true) ∧
    (∃ tp : Fin 64, ∃ side : Side, ∃ tap : Tap, ∃ inc : Bool, ∃ on : Bool, ∃ k : Fin 8, ∃ s : State, ∃ c : Instr, s.dev.requestClause (laneIx tp side) ≠ 0 ∧ s.dev.on F.LN_CTL_MANUAL (laneIx tp side) = true ∧ c ∈ [Instr.coefficientHold tp side, .coefficientUpdate tp side tap inc, .presetRequest tp side k, .initializeRequest tp side, .precoderRequest tp side on]) ∧
    (∃ tp : Fin 64, ∃ side : Side, ∃ n : Nat, ∃ s : State, s.dev.laneCourse tp = some n ∧ s.dev.proto n = .pcie ∧ s.dev.rd F.CS_STS_KSTATE n = 3 ∧ 2 ≤ (s.dev.seg (segIx n side)).eqPhase ∧ s.dev.eqLeads n side = false) ∧
    (∃ n : Fin 512, ∃ side : Side, ∃ lane : Fin 16, ∃ tp : Nat, ∃ s : State, s.dev.logicalTp n lane = some tp ∧ s.dev.proto n = .pcie ∧ s.dev.rd F.CS_STS_KSTATE n = 3 ∧ s.dev.eqLeads n side = true ∧ (s.dev.lane (laneIx tp side)).eqDone = false) ∧
    (∃ n : Fin 512, ∃ sd : Side, ∃ lane : Fin 16, ∃ rcvr : Fin 8, ∃ right : Bool, ∃ j : Fin 64, ∃ k : Fin 128, ∃ tp : Nat, ∃ s : State, ∃ l : Nat, ∃ cmd : MarginCmd, s.dev.on F.CS_PCI_STS_THIRD n = false ∧ s.dev.marginSide n rcvr = some sd ∧ s.dev.logicalTp n lane = some tp ∧ s.dev.proto n = .pcie ∧ s.dev.inService n = true ∧ 0x11 ≤ s.dev.rd F.CS_RATE_RATE n ∧ l = laneIx tp sd ∧ (s.dev.lane l).marginNak = false ∧ s.dev.fsOwner (laneFs l) = 0 ∧ (((s.dev.courseSideLanes n sd).filter (fun m => (s.dev.lane m).margining)).length < (s.dev.courseBays n).length) ∧ cmd ∈ [MarginCmd.stepTiming right j, .stepVoltage right k]) ∧
    (∃ n : Fin 512, ∃ sd : Side, ∃ lane : Fin 16, ∃ rcvr : Fin 8, ∃ right : Bool, ∃ j : Fin 64, ∃ k : Fin 128, ∃ tp : Nat, ∃ s : State, ∃ l : Nat, ∃ cmd : MarginCmd, ((if s.dev.on F.CS_PCI_STS_THIRD n then 2 ≤ rcvr.val ∧ rcvr.val ≤ 5 ∧ sd = (if rcvr.val % 2 = 0 then s.dev.uspSide n else otherSide (s.dev.uspSide n)) else s.dev.marginSide n rcvr = some sd ∧ ((s.dev.lane l).marginNak = true ∨ ((s.dev.lane l).margining = false ∧ s.dev.fsOwner (laneFs l) ≠ 0)))) ∧ s.dev.logicalTp n lane = some tp ∧ s.dev.proto n = .pcie ∧ s.dev.inService n = true ∧ 0x11 ≤ s.dev.rd F.CS_RATE_RATE n ∧ l = laneIx tp sd ∧ cmd ∈ [MarginCmd.stepTiming right j, .stepVoltage right k]) ∧
    (∃ n : Fin 512, ∃ sd : Side, ∃ lane : Fin 16, ∃ rcvr : Fin 8, ∃ tp : Nat, ∃ s : State, s.dev.on F.CS_PCI_STS_THIRD n = false ∧ s.dev.marginSide n rcvr = some sd ∧ s.dev.logicalTp n lane = some tp ∧ s.dev.proto n = .pcie ∧ s.dev.inService n = true ∧ 0x11 ≤ s.dev.rd F.CS_RATE_RATE n) ∧
    (∃ n : Fin 512, ∃ sd : Side, ∃ lane : Fin 16, ∃ rcvr : Fin 8, ∃ tp : Nat, ∃ s : State, ∃ l : Nat, s.dev.on F.CS_PCI_STS_THIRD n = false ∧ s.dev.marginSide n rcvr = some sd ∧ s.dev.logicalTp n lane = some tp ∧ s.dev.proto n = .pcie ∧ s.dev.inService n = true ∧ 0x11 ≤ s.dev.rd F.CS_RATE_RATE n ∧ l = laneIx tp sd ∧ (s.dev.lane l).margining = true) ∧
    (∃ n : Fin 512, ∃ rate : Fin 256, ∃ s : State, s.dev.proto n = .pcie ∧ s.dev.rd F.CS_STS_KSTATE n = 3 ∧ (((s.dev.policyTps n).all (fun tp => decide (s.dev.ks tp = 7 ∧ s.dev.ks (tp + 64) = 7))) = true) ∧ rateAllowed .pcie rate = true ∧ rate ≤ s.dev.rd F.CS_RATE_RMAX n ∧ s.dev.shellWaits n rate = false) :=
  ⟨⟨0, .a, sw ([ck 0 3, (F.CS_ETH_CFG_PHY, 0, 1)] ++ c0 1 0), by decide⟩,
   ⟨0, .a, .c0, sw ([ck 0 3, (F.CS_ETH_CFG_PHY, 0, 1)] ++ c0 1 0), by decide⟩,
   ⟨0, .a, .cm2, sw ([ck 0 3, (F.CS_ETH_CFG_PHY, 0, 1)] ++ c0 1 0), by decide⟩,
   ⟨0, .a, sw ([ck 0 3, (F.CS_ETH_CFG_PHY, 0, 1)] ++ c0 1 0), by decide⟩,
   ⟨0, .a, sw ([ck 0 3, (F.CS_ETH_CFG_PHY, 0, 1)] ++ c0 1 0), by decide⟩,
   ⟨0, .a, 0, sw ([ck 0 3, (F.CS_RATE_RATE, 0, 0x13), (F.CS_ETH_CFG_PHY, 0, 5)] ++ c0 1 0), by decide⟩,
   ⟨0, .a, .c0, true, true, 1, sw ([ck 0 3, (F.CS_ETH_CFG_PHY, 0, 1), (F.LN_CTL_MANUAL, 0, 1)] ++ c0 1 0), .presetRequest 0 .a 1, by decide⟩,
   ⟨0, .a, 0, sw ([ck 0 3, (F.CS_RATE_RATE, 0, 0x10)] ++ c0 1 2) (fun d => d.modSeg 0 (fun x => { x with eqPhase := 3 })), by decide⟩,
   ⟨0, .a, 0, 0, sw ([ck 0 3] ++ c0 1 2) (fun d => d.modSeg 0 (fun x => { x with eqPhase := 2 })), by decide⟩,
   ⟨0, .a, 0, 2, true, 1, 1, 0, sw ([ck 0 4, lk 0 2, lk 64 2, (F.CS_RATE_RATE, 0, 0x11), (F.CS_PCI_STS_POS, 0, 1)] ++ c0 1 2), 0, .stepTiming true 1, by decide⟩,
   ⟨0, .a, 0, 2, true, 1, 1, 0, sw ([ck 0 4, lk 0 2, lk 64 2, (F.CS_RATE_RATE, 0, 0x11), (F.CS_PCI_STS_POS, 0, 1), (F.LN_FS_STS_OWNER, 0, 1)] ++ c0 1 2), 0, .stepTiming true 1, by decide⟩,
   ⟨0, .a, 0, 2, 0, sw ([ck 0 4, lk 0 2, lk 64 2, (F.CS_RATE_RATE, 0, 0x11), (F.CS_PCI_STS_POS, 0, 1)] ++ c0 1 2), by decide⟩,
   ⟨0, .a, 0, 2, 0, sw ([ck 0 4, lk 0 2, lk 64 2, (F.CS_RATE_RATE, 0, 0x11), (F.CS_PCI_STS_POS, 0, 1), (F.LN_FS_STS_OWNER, 0, 3), (F.LN_FS_STS_SHADOW, 0, 1)] ++ c0 1 2) (fun d => d.modLane 0 (fun x => { x with margining := true })), 0, by decide⟩,
   ⟨0, 0x10, sw ([ck 0 3, lk 0 7, lk 64 7, (F.CS_RATE_RATE, 0, 8), (F.CS_RATE_RMAX, 0, 0x12)] ++ c0 1 2), by decide⟩⟩

/-- Every clause of CourseTableRows applies somewhere. -/
theorem test_meets_CourseTableRows :
    (∃ d : Dev, ∃ n : Nat, d.rd F.CS_STS_KSTATE n ≠ 0 ∧ ((d.on F.CS_CTL_ENABLE n = false ∨ d.rd F.CS_CTL_MODE n = 0 ∨ d.held n = true))) ∧
    (∃ d : Dev, ∃ n : Nat, ∃ e : CourseEv, d.rd F.CS_STS_KSTATE n ≠ 0 ∧ d.on F.CS_CTL_ENABLE n = true ∧ d.rd F.CS_CTL_MODE n ≠ 0 ∧ d.held n = false ∧ e.changed = true) ∧
    (∃ d : Dev, ∃ n : Nat, ∃ e : CourseEv, d.rd F.CS_STS_KSTATE n ≠ 0 ∧ d.rd F.CS_STS_KSTATE n ≠ 7 ∧ d.on F.CS_CTL_ENABLE n = true ∧ d.rd F.CS_CTL_MODE n ≠ 0 ∧ d.held n = false ∧ e.changed = false ∧ d.coursePolicy n = 4) ∧
    (∃ d : Dev, ∃ n : Nat, ∃ e : CourseEv, d.rd F.CS_STS_KSTATE n = 7 ∧ d.on F.CS_CTL_ENABLE n = true ∧ d.rd F.CS_CTL_MODE n ≠ 0 ∧ d.held n = false ∧ e.changed = false ∧ ((∀ tp ∈ d.policyTps n, d.laneHealth tp ≠ 4))) ∧
    (∃ d : Dev, ∃ n : Nat, d.rd F.CS_STS_KSTATE n = 0 ∧ d.on F.CS_CTL_ENABLE n = true ∧ d.rd F.CS_CTL_MODE n ≠ 0 ∧ d.held n = false ∧ d.rd F.CS_STS_FCODE n ≠ 7) ∧
    (∃ d : Dev, ∃ n : Nat, ∃ e : CourseEv, d.courseUp n = true ∧ e.changed = false ∧ d.rd F.CS_STS_KSTATE n = 1 ∧ (d.course n).backoff = false ∧ d.row7Ready n e = true ∧ d.shellWaits n (d.row7Rate n) = false) ∧
    (∃ d : Dev, ∃ n : Nat, ∃ e : CourseEv, d.courseUp n = true ∧ e.changed = false ∧ d.rd F.CS_STS_KSTATE n = 1 ∧ (d.course n).backoff = false ∧ d.row7Ready n e = false ∧ d.row8Ready n = true ∧ d.shellWaits n (d.rd F.CS_RATE_RATE n) = false ∧ d.refAccepted n (d.rd F.CS_RATE_RATE n) = true) ∧
    (∃ d : Dev, ∃ n : Nat, ∃ e : CourseEv, d.courseUp n = true ∧ e.changed = false ∧ d.rd F.CS_STS_KSTATE n = 1 ∧ (d.course n).backoff = false ∧ d.row7Ready n e = false ∧ d.row8Ready n = true ∧ d.refAccepted n (d.rd F.CS_RATE_RATE n) = false ∧ e.refused = false) ∧
    (∃ d : Dev, ∃ n : Nat, ∃ e : CourseEv, d.courseUp n = true ∧ e.changed = false ∧ d.rd F.CS_STS_KSTATE n = 2 ∧ (d.seg (2 * n)).done = true ∧ (d.seg (2 * n + 1)).done = true ∧ d.shellWaits n (d.row10Rate n) = false) ∧
    (∃ d : Dev, ∃ n : Nat, ∃ e : CourseEv, d.courseUp n = true ∧ e.changed = false ∧ e.pciLost = false ∧ d.rd F.CS_STS_KSTATE n = 3 ∧ ((e.holdExpired = true ∨ (d.segState n .a = 0 ∧ d.segState n .b = 0)))) ∧
    (∃ d : Dev, ∃ n : Nat, ∃ e : CourseEv, d.courseUp n = true ∧ e.changed = false ∧ e.pciLost = false ∧ e.holdExpired = false ∧ d.rd F.CS_STS_KSTATE n = 3 ∧ d.segState n .a = 3 ∧ d.segState n .b = 3) ∧
    (∃ d : Dev, ∃ n : Nat, ∃ e : CourseEv, d.courseUp n = true ∧ e.changed = false ∧ e.pciLost = false ∧ ((d.rd F.CS_STS_KSTATE n = 4 ∨ d.rd F.CS_STS_KSTATE n = 5 ∨ d.rd F.CS_STS_KSTATE n = 6)) ∧ (e.newRate = true ∨ e.restart.isSome = true)) ∧
    (∃ d : Dev, ∃ n : Nat, ∃ e : CourseEv, d.courseUp n = true ∧ e.changed = false ∧ e.pciLost = false ∧ e.newRate = false ∧ e.restart = none ∧ d.rd F.CS_STS_KSTATE n = 5 ∧ e.allsqExpired = true) ∧
    (∃ d : Dev, ∃ n : Nat, ∃ k : Nat, ∃ e : CourseEv, d.courseUp n = true ∧ e.changed = false ∧ e.pciLost = false ∧ e.newRate = false ∧ e.restart = none ∧ e.allsqExpired = false ∧ ((d.rd F.CS_STS_KSTATE n = 4 ∨ d.rd F.CS_STS_KSTATE n = 5 ∨ d.rd F.CS_STS_KSTATE n = 6)) ∧ (((d.coursePolicy n = 3 ∧ k = 1) ∨ (d.coursePolicy n = 1 ∧ d.rd F.CS_STS_KSTATE n ≠ 5 ∧ k = 5) ∨ (d.coursePolicy n = 2 ∧ d.rd F.CS_STS_KSTATE n ≠ 6 ∧ k = 6) ∨ (d.coursePolicy n = 0 ∧ d.rd F.CS_STS_KSTATE n ≠ 4 ∧ k = 4)))) ∧
    (∃ d : Dev, ∃ n : Nat, ∃ e : CourseEv, d.courseRow n e = none) :=
  ⟨⟨(sw [ck 0 4]).dev, 0, by decide⟩,
   ⟨(sw ([ck 0 4] ++ c0 1 0)).dev, 0, { changed := true }, by decide⟩,
   ⟨(sw ([ck 0 4, lk 0 9, lk 64 9] ++ c0 1 0)).dev, 0, {}, by decide⟩,
   ⟨(sw ([ck 0 7, lk 0 1, lk 64 1] ++ c0 1 0)).dev, 0, {}, by decide⟩,
   ⟨(sw (c0 1 0)).dev, 0, by decide⟩,
   ⟨(sw ([ck 0 1, lk 0 1, lk 64 1, (F.CS_CTL_AN, 0, 1)] ++ c0 1 0)).dev, 0, { page := true }, by decide⟩,
   ⟨(sw ([ck 0 1, lk 0 1, lk 64 1, (F.LN_STS_SIGDET, 0, 1), (F.LN_STS_SIGDET, 64, 1)] ++ c0 1 0)).dev, 0, {}, by decide⟩,
   ⟨(sw ([ck 0 1, lk 0 1, lk 64 1, (F.LN_STS_SIGDET, 0, 1), (F.LN_STS_SIGDET, 64, 1)] ++ c0 1 0) (fun d => d.modRef 0 (fun x => { x with spread := true }))).dev, 0, {}, by decide⟩,
   ⟨(sw ([ck 0 2, lk 0 1, lk 64 1] ++ c0 1 0) (fun d => (d.modSeg 0 (fun x => { x with done := true })).modSeg 1 (fun x => { x with done := true }))).dev, 0, {}, by decide⟩,
   ⟨(sw ([ck 0 3, lk 0 1, lk 64 1] ++ c0 1 0)).dev, 0, { holdExpired := true }, by decide⟩,
   ⟨(sw ([ck 0 3, lk 0 1, lk 64 1, (F.CS_STS_SEGA, 0, 3), (F.CS_STS_SEGB, 0, 3)] ++ c0 1 0)).dev, 0, {}, by decide⟩,
   ⟨(sw ([ck 0 4, lk 0 2, lk 64 2] ++ c0 1 0)).dev, 0, { restart := some true }, by decide⟩,
   ⟨(sw ([ck 0 5, lk 0 2, lk 64 2] ++ c0 1 0)).dev, 0, { allsqExpired := true }, by decide⟩,
   ⟨(sw ([ck 0 4, lk 0 4, lk 64 2] ++ c0 1 0)).dev, 0, 5, {}, by decide⟩,
   ⟨(sw []).dev, 0, {}, by decide⟩⟩

/-- Every clause of EthernetCourseCommands applies somewhere. -/
theorem test_meets_EthernetCourseCommands :
    (∃ n : Fin 512, ∃ s : State, (s.dev.course n).tAllsq = true) ∧
    (∃ n : Fin 512, ∃ s : State, (s.dev.course n).tHold = true) ∧
    (∃ n : Fin 512, ∃ s : State, (s.dev.course n).backoff = true) ∧
    (∃ n : Fin 512, ∃ side : Side, ∃ began : Nat, ∃ s : State, (s.dev.course n).stepEnd ≤ began ∧ s.dev.proto n = .eth ∧ s.dev.on F.CS_CTL_AN n = true ∧ s.dev.rd F.CS_CTL_ROLE n ≠ 1 ∧ s.dev.rd F.CS_STS_KSTATE n = 2 ∧ (s.dev.course n).backoff = false ∧ s.dev.segState n side = 1 ∧ s.dev.segState n (otherSide side) = 1) ∧
    (∃ n : Fin 512, ∃ side : Side, ∃ lane : Fin 8, ∃ tp : Nat, ∃ s : State, s.dev.proto n = .eth ∧ phyClause (s.dev.rd F.CS_ETH_CFG_PHY n) ≠ 0 ∧ s.dev.rd F.CS_STS_KSTATE n = 3 ∧ s.dev.segState n side = 2 ∧ s.dev.logicalTp n lane = some tp) ∧
    (∃ n : Fin 512, ∃ side : Side, ∃ s : State, ∃ c : Instr, ∃ partner : Bool, (((c = .tnegExpiry n side ∧ (s.dev.seg (segIx n side)).tneg = true ∧ (s.dev.segState n side = 1 ∨ s.dev.segState n side = 2) ∧ partner = false) ∨ (c = .partnerSilenceExpiry n side ∧ (s.dev.seg (segIx n side)).silence = true ∧ s.dev.segBusy n side = true ∧ partner = true) ∨ (c = .ttrainExpiry n side ∧ (s.dev.seg (segIx n side)).ttrain = true ∧ s.dev.segState n side = 2 ∧ partner = false) ∨ (c = .tDataExpiry n side ∧ (s.dev.seg (segIx n side)).tdata = true ∧ s.dev.segState n side = 2 ∧ partner = false)))) ∧
    (∃ n : Fin 512, ∃ side : Side, ∃ s : State, s.dev.trains n = true ∧ s.dev.segState n side = 2 ∧ s.dev.on F.CS_ETH_TR_RR_SENT (segIx n side) = true) ∧
    (∃ n : Fin 512, ∃ skew : Nat, ∃ s : State, s.dev.decodedMode n = true ∧ s.dev.inService n = true ∧ skew ≤ 180) ∧
    (∃ n : Fin 512, ∃ s : State, s.dev.decodedMode n = true ∧ s.dev.rd F.CS_STS_KSTATE n = 3) :=
  ⟨⟨0, sw ([ck 0 5, lk 0 6, lk 64 2] ++ c0 1 0) (fun d => d.modCourse 0 (fun x => { x with tAllsq := true })), by decide⟩,
   ⟨0, sw ([ck 0 3, lk 0 2, lk 64 2] ++ c0 1 0) (fun d => d.modCourse 0 (fun x => { x with tHold := true })), by decide⟩,
   ⟨0, sw ([ck 0 1] ++ c0 1 0) (fun d => d.modCourse 0 (fun x => { x with backoff := true })), by decide⟩,
   ⟨0, .a, 0, sw ([ck 0 2, (F.CS_CTL_AN, 0, 1), (F.CS_STS_SEGA, 0, 1), (F.CS_STS_SEGB, 0, 1)] ++ c0 1 0), by decide⟩,
   ⟨0, .a, 0, 0, sw ([ck 0 3, (F.CS_ETH_CFG_PHY, 0, 1), (F.CS_STS_SEGA, 0, 2)] ++ c0 1 0), by decide⟩,
   ⟨0, .a, sw ([ck 0 2, (F.CS_CTL_AN, 0, 1), (F.CS_STS_SEGA, 0, 1)] ++ c0 1 0) (fun d => d.modSeg 0 (fun x => { x with tneg := true })), .tnegExpiry 0 .a, false, .inl ⟨rfl, by decide, by decide, rfl⟩⟩,
   ⟨0, .a, sw ([ck 0 3, (F.CS_ETH_CFG_PHY, 0, 1), (F.CS_STS_SEGA, 0, 2), (F.CS_ETH_TR_RR_SENT, 0, 1)] ++ c0 1 0), by decide⟩,
   ⟨0, 180, sw ([ck 0 4] ++ c0 2 0), by decide⟩,
   ⟨0, sw ([ck 0 3] ++ c0 2 0), by decide⟩⟩

/-- Every clause of PciExpressAndCpriCourseCommands applies somewhere. -/
theorem test_meets_PciExpressAndCpriCourseCommands :
    (∃ n : Fin 512, ∃ s : State, s.dev.proto n = .pcie ∧ 3 ≤ s.dev.rd F.CS_STS_KSTATE n) ∧
    (∃ n : Fin 512, ∃ s : State, s.dev.proto n = .pcie ∧ s.dev.rd F.CS_STS_KSTATE n = 1) ∧
    (∃ n : Fin 512, ∃ lane : Fin 16, ∃ tp : Nat, ∃ s : State, s.dev.logicalTp n lane = some tp ∧ s.dev.proto n = .pcie ∧ s.dev.rd F.CS_STS_KSTATE n = 3) ∧
    (∃ n : Fin 512, ∃ lane : Fin 16, ∃ tp : Nat, ∃ s : State, s.dev.logicalTp n lane = some tp ∧ s.dev.proto n = .pcie ∧ s.dev.inService n = true) ∧
    (∃ n : Fin 512, ∃ side : Side, ∃ lane : Fin 16, ∃ tp : Nat, ∃ s : State, s.dev.logicalTp n lane = some tp ∧ s.dev.proto n = .pcie ∧ s.dev.inService n = true ∧ 0x09 ≤ s.dev.rd F.CS_RATE_RATE n ∧ s.dev.ks (laneIx tp side) ≠ 7) ∧
    (∃ n : Fin 512, ∃ side : Side, ∃ lane : Fin 16, ∃ tp : Nat, ∃ os : OrderedSet, ∃ s : State, s.dev.logicalTp n lane = some tp ∧ s.dev.proto n = .pcie ∧ s.dev.rd F.CS_STS_KSTATE n = 3 ∧ (((os = .sds ∧ 0x10 ≤ s.dev.rd F.CS_RATE_RATE n) ∨ (os = .logicalIdle ∧ s.dev.rd F.CS_RATE_RATE n ≤ 0x09 ∧ (s.dev.seg (segIx n side)).lastTs2 = true)))) ∧
    (∃ n : Fin 512, ∃ s : State, s.dev.follows n = true) ∧
    (∃ n : Fin 512, ∃ side : Side, ∃ rate : Fin 256, ∃ l : Nat, ∃ s : State, s.dev.follows n = true ∧ (s.dev.seg (segIx n side)).measuring = true ∧ s.dev.soleLane n side = some l ∧ s.dev.shellWaits n rate = false ∧ s.dev.inService n = false) ∧
    (∃ n : Fin 512, ∃ side : Side, ∃ rate : Fin 256, ∃ l : Nat, ∃ s : State, s.dev.follows n = true ∧ (s.dev.seg (segIx n side)).measuring = true ∧ s.dev.soleLane n side = some l ∧ s.dev.inService n = true ∧ rate.val = s.dev.rd F.CS_RATE_RATE n ∧ s.dev.refuseCode n rate = 0) ∧
    (∃ n : Fin 512, ∃ side : Side, ∃ l : Nat, ∃ s : State, s.dev.follows n = true ∧ (s.dev.seg (segIx n side)).following = true ∧ s.dev.soleLane n side = some l ∧ s.dev.lanePllLocked l = true) ∧
    (∃ n : Fin 512, ∃ side : Side, ∃ s : State, s.dev.proto n = .cpri ∧ s.dev.rd F.CS_STS_KSTATE n ≠ 0 ∧ ((side = .b ∨ s.dev.decodedMode n = false))) ∧
    (∃ n : Fin 512, ∃ side : Side, ∃ s : State, (s.dev.seg (segIx n side)).hfnHold = true ∧ s.dev.segState n side = 2 ∧ s.dev.on (hfnFld side) n = true) :=
  ⟨⟨0, sw ([ck 0 4, lk 0 2, lk 64 2] ++ c0 1 2), by decide⟩,
   ⟨0, sw ([ck 0 1, lk 0 1, lk 64 1] ++ c0 1 2), by decide⟩,
   ⟨0, 0, 0, sw ([ck 0 3, lk 0 1, lk 64 1, (F.CS_RATE_RATE, 0, 8)] ++ c0 1 2), by decide⟩,
   ⟨0, 0, 0, sw ([ck 0 4, lk 0 2, lk 64 2, (F.CS_RATE_RATE, 0, 8)] ++ c0 1 2), by decide⟩,
   ⟨0, .a, 0, 0, sw ([ck 0 4, lk 0 2, lk 64 2, (F.CS_RATE_RATE, 0, 9)] ++ c0 1 2), by decide⟩,
   ⟨0, .a, 0, 0, .sds, sw ([ck 0 3, lk 0 2, lk 64 2, (F.CS_RATE_RATE, 0, 0x10)] ++ c0 1 2), by decide⟩,
   ⟨0, sw ([ck 0 4, lk 0 2, lk 64 2, (F.CS_RATE_RATE, 0, 7), (F.CS_CPRI_CFG_FOLLOW, 0, 1)] ++ c0 1 1), by decide⟩,
   ⟨0, .a, 3, 0, sw ([ck 0 2, lk 0 2, lk 64 2, (F.CS_RATE_RATE, 0, 7), (F.CS_CPRI_CFG_FOLLOW, 0, 1), (F.CS_RATE_RMIN, 0, 1), (F.CS_RATE_RMAX, 0, 7)] ++ c0 1 1) (fun d => d.modSeg 0 (fun x => { x with measuring := true })), by decide⟩,
   ⟨0, .a, 7, 0, sw ([ck 0 4, lk 0 2, lk 64 2, (F.CS_RATE_RATE, 0, 7), (F.CS_CPRI_CFG_FOLLOW, 0, 1), (F.CS_RATE_RMIN, 0, 1), (F.CS_RATE_RMAX, 0, 7), (F.LN_PLL_CTL_FAMILY, 0, 1)] ++ c0 1 1) (fun d => d.modSeg 0 (fun x => { x with measuring := true })), by decide⟩,
   ⟨0, .a, 0, sw ([ck 0 2, lk 0 2, lk 64 2, (F.CS_RATE_RATE, 0, 7), (F.CS_CPRI_CFG_FOLLOW, 0, 1), (F.LN_PLL_STS_LOCK, 0, 1)] ++ c0 1 1) (fun d => d.modSeg 0 (fun x => { x with following := true })), by decide⟩,
   ⟨0, .b, sw ([ck 0 2, lk 0 2, lk 64 2, (F.CS_STS_SEGB, 0, 1)] ++ c0 1 1), ⟨by decide, by decide, .inl rfl⟩⟩,
   ⟨0, .a, sw ([ck 0 3, lk 0 2, lk 64 2, (F.CS_STS_SEGA, 0, 2), (F.LN_STS_LOCK, 0, 1), (F.LN_STS_LOCK, 64, 1), (F.CS_CPRI_STS_HFN_A, 0, 1)] ++ c0 1 1) (fun d => d.modSeg 0 (fun x => { x with hfnHold := true })), by decide⟩⟩

/-- Every clause of FrameCommands applies somewhere. -/
theorem test_meets_FrameCommands :
    (∃ tp : Fin 64, ∃ n : Nat, ∃ s : State, s.dev.decodedEth tp = some n ∧ s.dev.pointActive (2 * ((s.dev.logicalTp n 0).getD tp) + 1) = false) ∧
    (∃ tp : Fin 64, ∃ side : Side, ∃ x : FlightX, ∃ rest : List FlightX, ∃ s : State, (s.dev.point (2 * tp + sideN side)).flight = x :: rest ∧ x.candidate = false) ∧
    (∃ tp : Fin 64, ∃ side : Side, ∃ x : FlightX, ∃ rest : List FlightX, ∃ s : State, (s.dev.point (2 * tp + sideN side)).flight = x :: rest ∧ x.candidate = true ∧ x.correct = false) ∧
    (∃ tp : Fin 64, ∃ side : Side, ∃ interp : Fin 1024, ∃ pout : Nat, ∃ x : FlightX, ∃ rest : List FlightX, ∃ s : State, ∃ u : Nat, ∃ new : List Byte, u = 2 * tp + sideN side ∧ (s.dev.point u).flight = x :: rest ∧ x.candidate = true ∧ x.correct = true ∧ new = setOctets (frameBody x.bytes) x.field (bytesBE (unsigned 64 (s.dev.fieldSum (signed 64 (natBE (((frameBody x.bytes).drop x.field).take 8))) (freeDiff (s.dev.egressTime u interp pout) x.tIn * 64)).1) 8)) ∧
    (∃ tp : Fin 64, ∃ side : Side, ∃ s : State, ∃ u : Nat, u = 2 * tp + sideN side ∧ s.dev.insQueue u = none) ∧
    (∃ tp : Fin 64, ∃ side : Side, ∃ bt : Nat, ∃ del : Nat, ∃ s : State, ∃ u : Nat, ∃ q : Nat, ∃ head : List Byte, u = 2 * tp + sideN side ∧ s.dev.insQueue u = some q ∧ s.dev.pointActive u = true ∧ (s.dev.point u).lost = false ∧ head = Memory.read s.mem (s.dev.rd F.PU_QHEAD_HEAD q * 512) 32 ∧ malformed head = false ∧ s.dev.rd F.TS_IE_STS_ELASTIC u - del + (recLen head + 24) ≤ 16384 ∧ recLen head + 24 ≤ s.dev.rd F.TS_IE_STS_CREDIT u ∧ s.dev.rd F.TS_IE_STS_CREDIT u + ((s.dev.point u).credRem + bt) / 100 ≤ 4096) ∧
    (∃ tp : Fin 64, ∃ side : Side, ∃ x : PlacedX, ∃ rest : List PlacedX, ∃ s : State, ∃ u : Nat, u = 2 * tp + sideN side ∧ (s.dev.point u).placed = x :: rest ∧ recFlag x.record 2 = false) ∧
    (∃ tp : Fin 64, ∃ side : Side, ∃ s : State, ∃ u : Nat, ∃ q : Nat, u = 2 * tp + sideN side ∧ s.dev.insQueue u = some q) :=
  ⟨⟨0, 0, sw ([ck 0 4, lk 0 2, lk 64 2] ++ c0 2 0), by decide⟩,
   ⟨0, .a, { bytes := [1, 2, 3, 4, 5], tIn := 0 }, [], sw [] (fun d => d.modPoint 0 (fun x => { x with flight := [{ bytes := [1, 2, 3, 4, 5], tIn := 0 }] })), by decide⟩,
   ⟨0, .a, { bytes := [1, 2, 3, 4, 5], tIn := 0, candidate := true }, [], sw [] (fun d => d.modPoint 0 (fun x => { x with flight := [{ bytes := [1, 2, 3, 4, 5], tIn := 0, candidate := true }] })), by decide⟩,
   ⟨0, .a, 3, 0, flight12, [], sentState, 0, setOctets (frameBody flight12.bytes) flight12.field (bytesBE (unsigned 64 (sentState.dev.fieldSum (signed 64 (natBE (((frameBody flight12.bytes).drop flight12.field).take 8))) (freeDiff (sentState.dev.egressTime 0 3 0) flight12.tIn * 64)).1) 8), by decide⟩,
   ⟨0, .a, sw [(F.TS_IE_STS_ELASTIC, 0, 9)] (fun d => d.modPoint 0 (fun x => { x with credRem := 60 })), 0, by decide⟩,
   ⟨0, .a, 100, 0, insState, 0, 5, Memory.read insState.mem 0 32, by decide⟩,
   ⟨0, .a, { record := [60, 0] ++ List.replicate 90 0 }, [], sw [] (fun d => d.modPoint 0 (fun x => { x with placed := [{ record := [60, 0] ++ List.replicate 90 0 }] })), 0, by decide⟩,
   ⟨0, .a, insState, 0, 5, by decide⟩⟩

/-- Every clause of ClassifierCommands applies somewhere. -/
theorem test_meets_ClassifierCommands :
    (∃ s : State, s.dev.domOn rowAT = true ∧ s.dev.on F.TS_CLS_STS_BUSY = false) ∧
    (∃ s : State, s.dev.domOn rowAT = true ∧ s.dev.on F.TS_CLS_STS_BUSY = false) ∧
    (∃ s : State, s.dev.domOn rowAT = true ∧ s.dev.on F.TS_CLS_STS_BUSY = false) ∧
    (∃ r : Bool, ∃ s : State, ∃ c : Instr, s.dev.domOn rowAT = true ∧ s.dev.on F.TS_CLS_STS_BUSY = true ∧ c ∈ [Instr.clsInsert r, .clsDelete, .clsLookup]) ∧
    (∃ c : ClsX, ∃ s : State, s.dev.cls = some c ∧ (s.dev.on F.TS_CLS_BASE_EN = false ∨ keyOk (c.entry.take 24) = false)) ∧
    (∃ seen : List EccSeen, ∃ c : ClsX, ∃ s : State, ∃ ws : List (Nat × List Byte), s.dev.cls = some c ∧ s.dev.on F.TS_CLS_BASE_EN = true ∧ keyOk (c.entry.take 24) = true ∧ s.dev.domOn rowM = true ∧ ((c.op = 1 ∨ c.op = 2 ∨ c.op = 3)) ∧ ws = (s.bucket (keyBucket (c.entry.take 24)) seen).2) :=
  ⟨⟨sw [up 9], by decide⟩,
   ⟨sw [up 9], by decide⟩,
   ⟨sw [up 9], by decide⟩,
   ⟨true, sw [up 9, (F.TS_CLS_STS_BUSY, 0, 1)], .clsDelete, by decide⟩,
   ⟨{ op := 1, entry := List.replicate 32 0 }, sw [up 9, (F.TS_CLS_STS_BUSY, 0, 1)] (fun d => { d with cls := some { op := 1, entry := List.replicate 32 0 } }), ⟨by decide, .inl (by decide)⟩⟩,
   ⟨[], { op := 1, entry := 0x80 :: List.replicate 31 0 }, sw [up 9, up 74, (F.TS_CLS_STS_BUSY, 0, 1), (F.TS_CLS_BASE_EN, 0, 1)] (fun d => { d with cls := some { op := 1, entry := 0x80 :: List.replicate 31 0 } }), ((sw [up 9, up 74, (F.TS_CLS_STS_BUSY, 0, 1), (F.TS_CLS_BASE_EN, 0, 1)] (fun d => { d with cls := some { op := 1, entry := 0x80 :: List.replicate 31 0 } })).bucket (keyBucket ((0x80 :: List.replicate 31 0 : List Byte).take 24)) []).2, by decide⟩⟩

/-- Every clause of PulseAndPtpInputCommands applies somewhere. -/
theorem test_meets_PulseAndPtpInputCommands :
    (∃ s : State, s.dev.domOn rowAT = true ∧ s.dev.on F.PW_WAKEEN_PPS = false) ∧
    (∃ m : TimeMessage, ∃ s : State, s.dev.domOn rowAT = true ∧ s.dev.eng.ppsFree.isSome = true ∧ 1000 ≤ m.sinceUs ∧ m.sinceUs ≤ 900000 ∧ m.decodes = true ∧ m.clockClass.toNat ≤ s.dev.rd F.TS_PPS_IN_MINQL ∧ s.dev.eng.ppsNamed = false) ∧
    (∃ s : State, s.dev.domOn rowAT = true ∧ s.dev.eng.ppsFree.isSome = true) ∧
    (∃ s : State, s.dev.domOn rowAT = true ∧ s.dev.on F.TS_STS_PPSQ = true) ∧
    (∃ s : State, ∃ h : Nat, s.dev.domOn rowAT = true ∧ h = s.dev.rd F.TS_SVC_STS_HEALTH (s.dev.rd F.TS_CTL_PTPSVC)) ∧
    (∃ s : State, s.dev.domOn rowAT = true ∧ s.dev.eng.ptpSince.isSome = true) ∧
    (∃ s : State, s.dev.domOn rowAT = true) ∧
    (∃ s : State, (s.dev.engState = 3 ∨ s.dev.engState = 4) ∧ s.dev.engOn = true ∧ s.dev.bestRef = none) :=
  ⟨⟨sw [up 9], by decide⟩,
   ⟨{ decodes := true, second := 100, clockClass := 6, sinceUs := 1000 }, sw [up 9, (F.TS_PPS_IN_MINQL, 0, 7)] (fun d => d.modEng (fun e => { e with ppsFree := some 5, ppsNamed := false })), by decide⟩,
   ⟨sw [up 9, (F.TS_STS_PPSQ, 0, 1)] (fun d => d.modEng (fun e => { e with ppsFree := some 5 })), by decide⟩,
   ⟨sw [up 9, (F.TS_STS_PPSQ, 0, 1)], by decide⟩,
   ⟨sw [up 9, (F.TS_SVC_STS_HEALTH, 0, 0)], 0, by decide⟩,
   ⟨sw [up 9] (fun d => d.modEng (fun e => { e with ptpSince := some 4 })), by decide⟩,
   ⟨sw [up 9], by decide⟩,
   ⟨sw [up 9, (F.TS_STS_STATE, 0, 3), (F.TS_CTL_ENABLE, 0, 1), (F.TB_STS_MODE, 0, 1)], by decide⟩⟩

/-- Every clause of LineReferenceAndEnsembleCommands applies somewhere. -/
theorem test_meets_LineReferenceAndEnsembleCommands :
    (∃ k : Fin 16, ∃ side : Side, ∃ s : State, s.dev.domOn rowAT = true ∧ s.dev.esmcServes k = true ∧ s.dev.rd F.TS_LREF_CTL_SIDE k = b2n (decide (side = .b))) ∧
    (∃ k : Fin 16, ∃ s : State, s.dev.domOn rowAT = true ∧ s.dev.esmcServes k = true) ∧
    (∃ k : Fin 16, ∃ s : State, s.dev.slotOk k = true ∧ (s.dev.slot k).course = s.dev.slotCourse k ∧ (s.dev.slot k).wtr = true) ∧
    (∃ s : State, s.dev.domOn rowAT = true) ∧
    (∃ s : State, s.dev.domOn rowAT = true) ∧
    (∃ s : State, s.dev.engState = 1 ∧ s.dev.eng.lockRun = some true ∧ s.dev.engOn = true ∧ s.dev.refQual (s.dev.rd F.TS_STS_ACTREF) = true) ∧
    (∃ s : State, s.dev.engState = 2) ∧
    (∃ k : Fin 16, ∃ s : State, s.dev.engState = 2 ∧ s.dev.on F.TS_LREF_STS_QUAL k = true) ∧
    (∃ s : State, s.dev.engState = 2) ∧
    (∃ s : State, s.dev.engState ≠ 2) ∧
    (∃ tp : Fin 64, ∃ id : Fin 4096, ∃ s : State, id.val = 0x040 + tp.val ∧ s.dev.rd F.UD_IDENT_KIND id = 1) ∧
    (∃ n : Fin 512, ∃ id : Fin 4096, ∃ s : State, id.val = 0x200 + n.val ∧ s.dev.rd F.UD_IDENT_KIND id = 2) ∧
    (∃ id : Fin 4096, ∃ s : State, s.dev.rd F.UD_IDENT_KIND id = 6) ∧
    (∃ id : Fin 4096, ∃ st : Nat, ∃ s : State, s.dev.rd F.UD_IDENT_KIND id = 7 ∧ st = s.dev.rd F.PW_DOM_STATE (s.dev.rd F.UD_INDEX_INDEX id)) :=
  ⟨⟨2, .a, sw [up 9, (F.TS_LREF_STS_QL, 2, 9), (F.TS_SVC_STS_KIND, 0, 2), up 10, (F.UD_STATE_KSTATE, 0x080, 2), (F.CS_CTX_SVC, 0, 0x710), (F.UD_IDENT_KIND, 0x710, 9)], by decide⟩,
   ⟨2, sw [up 9, (F.TS_LREF_STS_QL, 2, 9), (F.TS_SVC_STS_KIND, 0, 2), up 10, (F.UD_STATE_KSTATE, 0x080, 2), (F.CS_CTX_SVC, 0, 0x710), (F.UD_IDENT_KIND, 0x710, 9)], by decide⟩,
   ⟨0, sw ([up 9, ck 0 4, lk 0 2, lk 64 2, (F.CS_CTL_TIMING, 0, 1), (F.TS_LREF_CTL_EN, 0, 1)] ++ c0 1 0) (fun d => d.modSlot 0 (fun x => { x with freqOk := true, wtr := true, course := some 0 })), by decide⟩,
   ⟨sw [up 9], by decide⟩,
   ⟨sw [up 9], by decide⟩,
   ⟨sw [up 9, (F.TS_STS_STATE, 0, 1), (F.TS_CTL_ENABLE, 0, 1), (F.TB_STS_MODE, 0, 1), (F.TS_STS_ACTREF, 0, 1), (F.TS_CTL_PPS_EN, 0, 1), (F.TS_STS_PPSQ, 0, 1)] (fun d => d.modEng (fun e => { e with lockRun := some true })), by decide⟩,
   ⟨sw [up 9, (F.TS_STS_STATE, 0, 2)], by decide⟩,
   ⟨3, sw [up 9, (F.TS_STS_STATE, 0, 2), (F.TS_LREF_STS_QUAL, 3, 1)], by decide⟩,
   ⟨sw [up 9, (F.TS_STS_STATE, 0, 2), (F.TS_LREF_STS_MEMBER, 3, 1), (F.TS_LREF_STS_MEMBER, 4, 1)], by decide⟩,
   ⟨sw [], by decide⟩,
   ⟨3, 0x43, sw [lk 3 4], by decide⟩,
   ⟨0, 0x200, sw ([ck 0 4, lk 0 2, lk 64 2] ++ c0 1 0), by decide⟩,
   ⟨0x700, sw [(F.UD_IDENT_KIND, 0x700, 6)], by decide⟩,
   ⟨0x0CA, 2, sw [up 10], by decide⟩⟩

/-- Every clause of TimeOutputsAndServices applies somewhere. -/
theorem test_meets_TimeOutputsAndServices :
    (∃ s : State, s.dev.domOn rowAT = true ∧ s.dev.rd F.TS_OUT_CTL_PPS_W ≠ 0 ∧ s.dev.eng.ppsOut = false ∧ (s.dev.on F.TS_OUT_CTL_SQ && s.dev.outSquelch) = false) ∧
    (∃ s : State, s.dev.on F.TS_OUT_CTL_SQ = true ∧ s.dev.outSquelch = true) ∧
    (∃ s : State, s.dev.on F.TS_OUT_CTL_SQ = true ∧ s.dev.outSquelch = true) ∧
    (∃ s : State, s.dev.domOn rowAT = true ∧ s.dev.eng.todDue = true ∧ s.dev.on F.TS_OUT_CTL_TOD_EN = true ∧ (s.dev.on F.TS_OUT_CTL_SQ && s.dev.outSquelch) = false) ∧
    (∃ s : State, s.dev.domOn rowAT = true) ∧
    (∃ k : Fin 8, ∃ s : State, s.dev.domOn rowAT = true ∧ s.dev.svcRuns k = true) ∧
    (∃ n : Fin 512, ∃ k : Nat, ∃ m : Nat, ∃ s : State, s.dev.boundService n = some k ∧ s.dev.rd F.TS_SVC_STS_KIND k = 2 ∧ s.dev.svcRuns k = true ∧ (m = (if s.dev.rd F.CS_CTL_ROLE n = 1 ∧ 0x200 ≤ s.dev.rd F.CS_SEL_ACTIVE n then s.dev.rd F.CS_SEL_ACTIVE n - 0x200 else n.val))) :=
  ⟨⟨sw [up 9, (F.TS_STS_STATE, 0, 2)] (fun d => { d with tb := { acc := 7 * 65536000000000 } }), by decide⟩,
   ⟨sw [], by decide⟩,
   ⟨sw [], by decide⟩,
   ⟨sw [up 9, (F.TS_STS_STATE, 0, 2), (F.TS_OUT_CTL_TOD_EN, 0, 1)] (fun d => d.modEng (fun e => { e with todDue := true, ppsOutSec := 9 })), by decide⟩,
   ⟨sw [up 9], by decide⟩,
   ⟨0, sw [up 9, (F.TS_SVC_STS_KIND, 0, 1), up 10, (F.UD_STATE_KSTATE, 0x080, 2)], by decide⟩,
   ⟨0, 0, 0, sw [up 9, (F.TS_SVC_STS_KIND, 0, 2), up 10, (F.UD_STATE_KSTATE, 0x080, 2), (F.CS_CTX_SVC, 0, 0x710), (F.UD_IDENT_KIND, 0x710, 9)], by decide⟩⟩

/-- Every clause of QueuePortCommands applies somewhere. -/
theorem test_meets_QueuePortCommands :
    (∃ who : Fin 320, ∃ q : Fin 16384, ∃ data : List (BitVec 8), ∃ s : State, ((64 ≤ who.val ∨ s.dev.domOn (rowL who) = true)) ∧ s.dev.queueReady who = true ∧ data.length ≠ 0 ∧ data.length ≤ 16384 ∧ s.dev.on F.PU_QCFG_EN q = true ∧ s.dev.rd F.PU_QSTS_KSTATE q = 2 ∧ s.dev.enqAllowed q ((data.length + 511) / 512) = 0) ∧
    (∃ who : Fin 320, ∃ q : Fin 16384, ∃ data : List (BitVec 8), ∃ s : State, ∃ a : Nat, ((64 ≤ who.val ∨ s.dev.domOn (rowL who) = true)) ∧ s.dev.queueReady who = true ∧ data.length ≠ 0 ∧ data.length ≤ 16384 ∧ s.dev.on F.PU_QCFG_EN q = true ∧ s.dev.rd F.PU_QSTS_KSTATE q = 2 ∧ s.dev.enqAllowed q ((data.length + 511) / 512) = a ∧ a ≠ 0) ∧
    (∃ who : Fin 320, ∃ port : Fin 4, ∃ q : Fin 16384, ∃ data : List (BitVec 8), ∃ pte : List EccSeen, ∃ s : State, ∃ c : Instr, ((64 ≤ who.val ∨ s.dev.domOn (rowL who) = true)) ∧ s.dev.queueReady who = true ∧ data.length ≠ 0 ∧ data.length ≤ 16384 ∧ (c = .enq who port q data pte ∨ c = .queueStatus who port q) ∧ s.dev.on F.PU_QCFG_EN q = false) ∧
    (∃ who : Fin 320, ∃ port : Fin 4, ∃ q : Fin 16384, ∃ data : List (BitVec 8), ∃ pte : List EccSeen, ∃ s : State, ∃ c : Instr, ((64 ≤ who.val ∨ s.dev.domOn (rowL who) = true)) ∧ s.dev.queueReady who = true ∧ data.length ≠ 0 ∧ data.length ≤ 16384 ∧ (c = .enq who port q data pte ∨ c = .queueStatus who port q) ∧ s.dev.on F.PU_QCFG_EN q = true ∧ s.dev.rd F.PU_QSTS_KSTATE q = 4) ∧
    (∃ who : Fin 320, ∃ grp : Bool, ∃ tgt : Fin 16384, ∃ s : State, ((64 ≤ who.val ∨ s.dev.domOn (rowL who) = true)) ∧ s.dev.queueReady who = true ∧ s.dev.queueDenied grp tgt who = none ∧ s.dev.targetQueue grp tgt who = none) ∧
    (∃ who : Fin 320, ∃ grp : Bool, ∃ tgt : Fin 16384, ∃ s : State, ∃ q : Nat, ∃ sc : NMap SchedX, ((64 ≤ who.val ∨ s.dev.domOn (rowL who) = true)) ∧ s.dev.queueReady who = true ∧ s.dev.queueDenied grp tgt who = none ∧ s.dev.targetQueue grp tgt who = some (q, sc) ∧ s.dev.rd F.PU_QSTS_KSTATE q ≠ 4 ∧ s.dev.mt.ops = []) ∧
    (∃ who : Fin 320, ∃ grp : Bool, ∃ tgt : Fin 16384, ∃ s : State, ((64 ≤ who.val ∨ s.dev.domOn (rowL who) = true)) ∧ s.dev.queueReady who = true ∧ s.dev.queueDenied grp tgt who = none) ∧
    (∃ who : Fin 320, ∃ q : Fin 16384, ∃ s : State, ((64 ≤ who.val ∨ s.dev.domOn (rowL who) = true)) ∧ s.dev.queueReady who = true ∧ s.dev.on F.PU_QCFG_EN q = true ∧ s.dev.rd F.PU_QSTS_KSTATE q ≠ 4) ∧
    (∃ who : Fin 320, ∃ port : Fin 4, ∃ grp : Bool, ∃ q : Fin 16384, ∃ data : List (BitVec 8), ∃ pte : List EccSeen, ∃ seen : List EccSeen, ∃ s : State, ∃ c : Instr, c ∈ [Instr.enq who port q data pte, .deq who port grp q pte seen, .notify who port grp q, .queueStatus who port q] ∧ who.val < 64 ∧ s.dev.domOn (rowL who) = false) ∧
    (∃ who : Fin 320, ∃ port : Fin 4, ∃ grp : Bool, ∃ q : Fin 16384, ∃ data : List (BitVec 8), ∃ pte : List EccSeen, ∃ seen : List EccSeen, ∃ s : State, ∃ c : Instr, c ∈ [Instr.enq who port q data pte, .deq who port grp q pte seen, .notify who port grp q, .queueStatus who port q] ∧ ((64 ≤ who.val ∨ s.dev.domOn (rowL who) = true)) ∧ s.dev.queueReady who = false) ∧
    (∃ q : Fin 16384, ∃ s : State, s.dev.rd F.PU_QSTS_KSTATE q = 5) :=
  ⟨⟨64, 5, [1, 2, 3], sw [up 74, (F.PU_QCFG_EN, 5, 1), (F.PU_QCFG_GROUP, 5, 1024), (F.PU_QSTS_KSTATE, 5, 2)] (fun d => d.modPu (fun p => { p with free := [(7, 9)] })), by decide⟩,
   ⟨64, 5, [1, 2, 3], sw [up 74, (F.PU_QCFG_EN, 5, 1), (F.PU_QCFG_GROUP, 5, 1024), (F.PU_QSTS_KSTATE, 5, 2)], 3, by decide⟩,
   ⟨64, 0, 5, [1, 2, 3], [], sw [up 74], .enq 64 0 5 [1, 2, 3] [], by decide⟩,
   ⟨64, 0, 5, [1, 2, 3], [], sw [up 74, (F.PU_QCFG_EN, 5, 1), (F.PU_QCFG_GROUP, 5, 1024), (F.PU_QSTS_KSTATE, 5, 4)], .queueStatus 64 0 5, by decide⟩,
   ⟨192, false, 5, sw [up 74, (F.PU_QCFG_EN, 5, 1), (F.PU_QLIM_CONS, 5, 0x40), (F.PU_QSTS_KSTATE, 5, 1)], by decide⟩,
   ⟨192, false, 5, insState, 5, [], by decide⟩,
   ⟨192, false, 5, insState, by decide⟩,
   ⟨64, 5, insState, by decide⟩,
   ⟨0, 0, false, 5, [1], [], [], sw [], .enq 0 0 5 [1] [], by decide⟩,
   ⟨64, 0, false, 5, [1], [], [], sw [], .enq 64 0 5 [1] [], by decide⟩,
   ⟨5, sw [(F.PU_QSTS_KSTATE, 5, 5), (F.PU_QCFG_GROUP, 5, 1024), (F.PU_QDEPTH_DEPTH, 5, 3)], by decide⟩⟩

/-- Every clause of RegionMessageAndGutterCommands applies somewhere. -/
theorem test_meets_RegionMessageAndGutterCommands :
    (∃ r : Fin 64, ∃ s : State, s.dev.domOn (rowL r) = true ∧ (s.dev.fbx r).msgLost = false) ∧
    (∃ r : Fin 64, ∃ s : State, s.dev.domOn (rowL r) = true ∧ (s.dev.fbx r).msgLost = false) ∧
    (∃ r : Fin 64, ∃ s : State, s.dev.domOn (rowL r) = false) ∧
    (∃ r : Fin 64, ∃ s : State, s.dev.domOn (rowL r) = false) ∧
    (∃ r : Fin 64, ∃ s : State, s.dev.domOn (rowL r) = false) ∧
    (∃ r : Fin 64, ∃ p : Bool, ∃ c : Fin 64, ∃ s : State, s.dev.domOn (rowL r) = true ∧ s.dev.rd F.FB_CFG_SELMODE r = 2 ∧ s.dev.domOn rowC = true ∧ (s.dev.fbx r).msgLost = false ∧ (s.dev.fbx r).bist = false ∧ (s.dev.residentSlot r ⟨p, c⟩).isSome = true) ∧
    (∃ r : Fin 64, ∃ s : State, s.dev.domOn (rowL r) = true ∧ s.dev.rd F.FB_CFG_SELMODE r ≠ 2 ∧ (s.dev.fbx r).msgLost = false ∧ (s.dev.fbx r).bist = false) ∧
    (∃ r : Fin 64, ∃ s : State, s.dev.domOn (rowL r) = true ∧ s.dev.on F.PW_DOM_VWAIT (rowL r) = false) ∧
    (∃ tp : Fin 64, ∃ side : Side, ∃ took : Nat, ∃ l : Nat, ∃ s : State, l = laneIx tp side ∧ s.dev.gutActive l = true ∧ s.dev.gutLive l = true ∧ ((∀ r, s.dev.gutRegion l = some r → (s.dev.fbx r).sel = none)) ∧ ((s.dev.gutter l).inb.drop took).length < 32) ∧
    (∃ tp : Fin 64, ∃ side : Side, ∃ took : Nat, ∃ l : Nat, ∃ r : Nat, ∃ s : State, l = laneIx tp side ∧ s.dev.gutActive l = true ∧ s.dev.gutLive l = true ∧ s.dev.gutRegion l = some r ∧ (s.dev.fbx r).sel = none ∧ 32 ≤ ((s.dev.gutter l).inb.drop took).length) ∧
    (∃ tp : Fin 64, ∃ side : Side, ∃ l : Nat, ∃ s : State, l = laneIx tp side ∧ s.dev.gutActive l = true ∧ s.dev.gutLive l = true ∧ ((∀ r, s.dev.gutRegion (laneOpp l) = some r → (s.dev.fbx r).sel = none)) ∧ (s.dev.gutter l).outWait = none) ∧
    (∃ tp : Fin 64, ∃ side : Side, ∃ l : Nat, ∃ r : Nat, ∃ s : State, l = laneIx tp side ∧ s.dev.gutRegion l = some r ∧ s.dev.gutActive l = true ∧ (s.dev.gutter l).outb = []) :=
  ⟨⟨0, sw [up 10], by decide⟩,
   ⟨0, sw [up 10], by decide⟩,
   ⟨0, sw [up 11], by decide⟩,
   ⟨0, sw [up 11], by decide⟩,
   ⟨0, sw [up 11], by decide⟩,
   ⟨0, false, 3, sw [up 10, up 75, (F.FB_CFG_SELMODE, 0, 2), (F.FB_SLOT_KIND, 3, 1)], by decide⟩,
   ⟨0, sw [up 10], by decide⟩,
   ⟨0, sw [up 10, (F.FB_PACE_FLOOR, 0, 0x200)], by decide⟩,
   ⟨0, .a, 0, 0, sw ([ck 0 4, lk 0 2, lk 64 2, up 13, (F.CS_CTL_VIA_FABRIC, 0, 1), (F.FB_GUTMAP_MAP, 12, 1)] ++ c0 2 0), by decide⟩,
   ⟨0, .a, 0, 0, 3, sw ([ck 0 4, lk 0 2, lk 64 2, up 13, (F.CS_CTL_VIA_FABRIC, 0, 1), (F.FB_GUTMAP_MAP, 12, 1)] ++ c0 2 0) (fun d => d.modGut 0 (fun x => { x with inb := List.replicate 32 { data := 5, ctl := 0, bnd := false, err := false } })), by decide⟩,
   ⟨0, .a, 0, sw ([ck 0 4, lk 0 2, lk 64 2, up 13, (F.CS_CTL_VIA_FABRIC, 0, 1), (F.FB_GUTMAP_MAP, 12, 1)] ++ c0 2 0), by decide⟩,
   ⟨0, .a, 0, 3, sw ([ck 0 4, lk 0 2, lk 64 2, up 13, (F.CS_CTL_VIA_FABRIC, 0, 1), (F.FB_GUTMAP_MAP, 12, 1)] ++ c0 2 0), by decide⟩⟩

/-- Every clause of ContextAndPageCommands applies somewhere. -/
theorem test_meets_ContextAndPageCommands :
    (∃ r : Fin 64, ∃ x : SelX, ∃ k : Nat, ∃ s : State, (s.dev.fbx r).sel = some x ∧ s.dev.residentSlot r x.ctx = some k ∧ s.dev.selDue x = true ∧ s.dev.domOn rowC = true ∧ s.dev.domOn (rowL r) = true) ∧
    (∃ r : Fin 64, ∃ g : PagingX, ∃ s : State, (s.dev.fbx r).paging = some g ∧ (s.dev.fbx r).sel = none ∧ s.dev.mt.bad = [] ∧ s.dev.mt.ops = [] ∧ s.dev.mt.waits = [] ∧ (s.dev.fbx r).retry = false) ∧
    (∃ r : Fin 64, ∃ g : PagingX, ∃ s : State, (s.dev.fbx r).paging = some g ∧ (s.dev.fbx r).sel = none ∧ s.dev.mt.bad = [] ∧ s.dev.mt.ops = [] ∧ s.dev.mt.waits = [] ∧ (s.dev.fbx r).retry = false) ∧
    (∃ r : Fin 64, ∃ x : SelX, ∃ s : State, ∃ d1 : Dev, (s.dev.fbx r).retry = true ∧ (s.dev.fbx r).sel = some x ∧ x.ctx.paged = true ∧ s.dev.residentSlot r x.ctx = none ∧ (s.dev.fbx r).paging = none ∧ s.dev.domOn rowC = true ∧ s.dev.startPageIn r x.ctx.num false = some d1) ∧
    (∃ r : Fin 64, ∃ p : Fin 64, ∃ s : State, ∃ d1 : Dev, s.dev.domOn (rowL r) = true ∧ s.dev.on F.FB_PGSTS_BUSY r = false ∧ bit s.dev.img.paged p = true ∧ s.dev.residentSlot r ⟨true, p⟩ = none ∧ s.dev.domOn rowC = true ∧ (s.dev.fbx r).paging = none ∧ s.dev.startPageIn r p true = some d1) ∧
    (∃ r : Fin 64, ∃ p : Fin 64, ∃ k : Nat, ∃ s : State, s.dev.domOn (rowL r) = true ∧ s.dev.on F.FB_PGSTS_BUSY r = false ∧ bit s.dev.img.paged p = true ∧ s.dev.residentSlot r ⟨true, p⟩ = some k) ∧
    (∃ r : Fin 64, ∃ p : Fin 64, ∃ k : Nat, ∃ s : State, s.dev.domOn (rowL r) = true ∧ s.dev.on F.FB_PGSTS_BUSY r = false ∧ bit s.dev.img.paged p = true ∧ s.dev.residentSlot r ⟨true, p⟩ = some k) ∧
    (∃ r : Fin 64, ∃ p : Fin 64, ∃ k : Nat, ∃ s : State, s.dev.domOn (rowL r) = true ∧ s.dev.on F.FB_PGSTS_BUSY r = false ∧ bit s.dev.img.paged p = true ∧ s.dev.residentSlot r ⟨true, p⟩ = some k ∧ s.dev.on F.FB_SLOT_ACTIVE (8 * r + k) = false ∧ (s.dev.fbx r).sel = none) :=
  ⟨⟨0, { ctx := ⟨false, 3⟩ }, 3, sw [up 10, up 75, (F.FB_CFG_SELMODE, 0, 1), (F.FB_SLOT_KIND, 3, 1)] (fun d => d.modFb 0 (fun x => { x with sel := some { ctx := ⟨false, 3⟩ } })), by decide⟩,
   ⟨0, { pnum := 4, frame := 2 }, sw [up 10, up 75, (F.FB_STS_PGBUSY, 0, 1), (F.FB_SLOT_KIND, 2, 2), (F.FB_CFG_FRAMES, 0, 4)] (fun d => d.modFb 0 (fun x => { x with paging := some { pnum := 4, frame := 2 } })), by decide⟩,
   ⟨0, { pnum := 4, frame := 2 }, sw [up 10, up 75, (F.FB_STS_PGBUSY, 0, 1), (F.FB_SLOT_KIND, 2, 2), (F.FB_CFG_FRAMES, 0, 4)] (fun d => d.modFb 0 (fun x => { x with paging := some { pnum := 4, frame := 2 } })), by decide⟩,
   ⟨0, { ctx := ⟨true, 4⟩ }, retryState, (retryState.dev.startPageIn 0 4 false).getD {}, by decide⟩,
   ⟨0, 4, { retryState with dev := retryState.dev.modFb 0 (fun x => { x with retry := false, sel := none }) }, ({ retryState with dev := retryState.dev.modFb 0 (fun x => { x with retry := false, sel := none }) }.dev.startPageIn 0 4 true).getD {}, by decide⟩,
   ⟨0, 4, 2, pagedState, by decide⟩,
   ⟨0, 4, 2, pagedState, by decide⟩,
   ⟨0, 4, 2, pagedState, by decide⟩⟩

/-- Every clause of SparPortCommands applies somewhere. -/
theorem test_meets_SparPortCommands :
    (∃ p : SparPort, ∃ tag : Fin 64, ∃ addr : BitVec 29, ∃ mask : BitVec 32, ∃ data : BitVec 256, ∃ beats : List WriteBeat, ∃ s : State, ∃ c : Instr, ∃ kind : Nat, s.dev.sparExists p tag = true ∧ s.dev.domOn rowM = true ∧ s.dev.mt.ops = [] ∧ s.dev.mt.waits = [] ∧ ((p.master.val < 64 → (s.dev.fbx p.master).paging = none ∧ (s.dev.fbx p.master).quiet = false)) ∧ s.dev.on F.MT_STS_WIPING = false ∧ (((c = .sparReadWord p tag addr ∧ kind = 0) ∨ (c = .sparWriteWord p tag addr mask data ∧ kind = 1) ∨ (c = .sparReadBlock p tag addr ∧ kind = 2) ∨ (c = .sparWriteBlock p tag addr beats ∧ kind = 3)))) ∧
    (∃ p : SparPort, ∃ tag : Fin 64, ∃ addr : BitVec 29, ∃ mask : BitVec 32, ∃ data : BitVec 256, ∃ beats : List WriteBeat, ∃ s : State, ∃ c : Instr, s.dev.sparExists p tag = true ∧ s.dev.domOn rowM = false ∧ c ∈ [Instr.sparReadWord p tag addr, .sparWriteWord p tag addr mask data, .sparReadBlock p tag addr, .sparWriteBlock p tag addr beats]) ∧
    (∃ p : SparPort, ∃ tag : Fin 64, ∃ addr : BitVec 29, ∃ mask : BitVec 32, ∃ data : BitVec 256, ∃ beats : List WriteBeat, ∃ s : State, ∃ c : Instr, s.dev.sparExists p tag = false ∧ c ∈ [Instr.sparReadWord p tag addr, .sparWriteWord p tag addr mask data, .sparReadBlock p tag addr, .sparWriteBlock p tag addr beats]) ∧
    (∃ p : SparPort, ∃ tag : Fin 64, ∃ o : Op, ∃ s : State, s.dev.mt.ops = [o] ∧ o.master = p.master ∧ o.port = p.port ∧ o.tag = tag ∧ o.badResp = none ∧ o.waitReq = false ∧ o.waitResp = false ∧ o.served = none ∧ s.dev.mt.waits = [] ∧ ((64 ≤ p.master.val ∨ s.dev.domOn (rowL p.master) = true)) ∧ o.denied = true) ∧
    (∃ p : SparPort, ∃ tag : Fin 64, ∃ o : Op, ∃ s : State, s.dev.mt.ops = [o] ∧ o.master = p.master ∧ o.port = p.port ∧ o.tag = tag ∧ o.badResp = none ∧ o.waitReq = false ∧ o.waitResp = false ∧ o.served = none ∧ s.dev.mt.waits = [] ∧ ((64 ≤ p.master.val ∨ s.dev.domOn (rowL p.master) = true)) ∧ o.denied = false ∧ o.badReq = false ∧ o.kind = 0 ∧ s.dev.mt.bad = []) ∧
    (∃ p : SparPort, ∃ tag : Fin 64, ∃ o : Op, ∃ s : State, ∃ v : BitVec 256, State.wf s ∧ s.dev.mt.ops = [o] ∧ o.master = p.master ∧ o.port = p.port ∧ o.tag = tag ∧ o.badResp = none ∧ o.waitReq = false ∧ o.waitResp = false ∧ o.served = none ∧ s.dev.mt.waits = [] ∧ ((64 ≤ p.master.val ∨ s.dev.domOn (rowL p.master) = true)) ∧ o.denied = false ∧ o.badReq = false ∧ o.kind = 1 ∧ o.view = 0 ∧ o.beats = [(2 ^ 32 - 1, v.toNat)]) ∧
    (∃ o : Op, ∃ s : State, s.dev.mt.waits = [o] ∧ s.dev.mayAck o = true ∧ s.dev.mt.ops = []) :=
  ⟨⟨⟨66, 0⟩, 0, 0x1000, 0, 0, [], sw [up 74], .sparReadWord ⟨66, 0⟩ 0 0x1000, 0, ⟨by decide, by decide, by decide, by decide, by decide, by decide, .inl ⟨rfl, rfl⟩⟩⟩,
   ⟨⟨66, 0⟩, 0, 0x1000, 0, 0, [], sw [], .sparReadWord ⟨66, 0⟩ 0 0x1000, by decide⟩,
   ⟨⟨66, 7⟩, 63, 0x1000, 0, 0, [], sw [up 74], .sparReadWord ⟨66, 7⟩ 63 0x1000, by decide⟩,
   ⟨⟨66, 0⟩, 0, { op66 with denied := true }, sw [up 74] (fun d => d.modMt (fun m => { m with ops := [{ op66 with denied := true }] })), by decide⟩,
   ⟨⟨66, 0⟩, 0, { op66 with kind := 0, beats := [] }, sw [up 74] (fun d => d.modMt (fun m => { m with ops := [{ op66 with kind := 0, beats := [] }] })), by decide⟩,
   ⟨⟨66, 0⟩, 0, op66, sw [up 74] (fun d => d.modMt (fun m => { m with ops := [op66] })), 77, by unfold State.wf; decide⟩,
   ⟨op66, sw [up 74] (fun d => d.modMt (fun m => { m with waits := [op66] })), by decide⟩⟩

/-- Every clause of ScrubWindowAndGuardCommands applies somewhere. -/
theorem test_meets_ScrubWindowAndGuardCommands :
    (∃ s : State, s.dev.rd F.MT_CTL_SCRUB_INT ≠ 0 ∧ s.dev.domOn rowM = true ∧ s.dev.mt.bad = []) ∧
    (∃ s : State, s.dev.rd F.MT_CTL_SCRUB_INT ≠ 0 ∧ s.dev.domOn rowM = true ∧ s.dev.mt.bad = []) ∧
    (∃ s : State, s.dev.rd F.MT_CTL_SCRUB_INT ≠ 0 ∧ s.dev.domOn rowM = true ∧ s.dev.mt.bad = []) ∧
    (∃ a : BitVec 20, a.toNat % 4 ≠ 0) ∧
    (∃ a : BitVec 20, a.toNat % 4 ≠ 0) ∧
    (∃ a : BitVec 20, ∃ s : State, a.toNat % 4 = 0 ∧ s.dev.domOn rowM = false) ∧
    (∃ a : BitVec 20, ∃ s : State, a.toNat % 4 = 0 ∧ s.dev.domOn rowM = false) ∧
    (∃ a : BitVec 20, ∃ s : State, State.wf s ∧ a.toNat % 4 = 0 ∧ s.dev.domOn rowM = true ∧ s.dev.mt.ops = [] ∧ s.dev.mt.waits = [] ∧ s.dev.mt.bad = [] ∧ s.dev.rd F.MT_WINBASE_VIEW = 0 ∧ s.dev.windowAddr a.toNat < 0x7C00000) ∧
    (∃ a : BitVec 20, ∃ s : State, State.wf s ∧ a.toNat % 4 = 0 ∧ s.dev.domOn rowM = true ∧ s.dev.mt.ops = [] ∧ s.dev.mt.waits = [] ∧ s.dev.mt.bad = [] ∧ s.dev.rd F.MT_WINBASE_VIEW = 0 ∧ s.dev.windowAddr a.toNat < 0x7C00000) ∧
    (∃ b : GuardedBlock, ∃ crc : BitVec 32, ∃ s : State, s.dev.mt.guards.find? (guardKey b) = none ∧ guardOk b crc = false) ∧
    (∃ b : GuardedBlock, ∃ crc : BitVec 32, ∃ s : State, s.dev.mt.guards.find? (guardKey b) = none ∧ guardOk b crc = true ∧ ((∃ u bs, b = .record u bs) ∨ (∃ n r bs, b = .message n r bs) ∨ (∃ r bs, b = .config r bs) ∨ (∃ r n bs, b = .pageIn r n bs))) ∧
    (∃ b : GuardedBlock, ∃ crc : BitVec 32, ∃ s : State, ∃ p : SparPort, ∃ tag : Fin 64, ∃ op : Fin 4, ∃ a : BitVec 24, ∃ beats : List WriteBeat, s.dev.mt.guards.find? (guardKey b) = none ∧ guardOk b crc = true ∧ b = .request p tag op a beats) ∧
    (∃ b : GuardedBlock, ∃ crc : BitVec 32, ∃ s : State, ∃ tp : Fin 64, ∃ side : Side, ∃ w : GutterWord, s.dev.mt.guards.find? (guardKey b) = none ∧ guardOk b crc = true ∧ b = .gutterIn tp side w ∧ s.dev.gutActive (laneIx tp side) = true ∧ (s.dev.gutter (laneIx tp side)).inb.length < 32) ∧
    (∃ p : SparPort, ∃ tag : Fin 64, ∃ op : Fin 4, ∃ a : BitVec 24, ∃ beats : List WriteBeat, ∃ b : GuardedBlock, ∃ n : Fin 858, ∃ crc : BitVec 32, ∃ g : GuardX, ∃ s : State, b = .request p tag op a beats ∧ guardNumber b = n ∧ s.dev.mt.guards.find? (guardKey b) = some g ∧ guardOk b crc = true) ∧
    (∃ p : SparPort, ∃ tag : Fin 64, ∃ op : Fin 4, ∃ a : BitVec 24, ∃ beats : List WriteBeat, ∃ b : GuardedBlock, ∃ n : Fin 858, ∃ crc : BitVec 32, ∃ g : GuardX, ∃ s : State, b = .request p tag op a beats ∧ guardNumber b = n ∧ s.dev.mt.guards.find? (guardKey b) = some g ∧ guardOk b crc = false ∧ g.fails < 3) ∧
    (∃ p : SparPort, ∃ tag : Fin 64, ∃ op : Fin 4, ∃ a : BitVec 24, ∃ beats : List WriteBeat, ∃ b : GuardedBlock, ∃ n : Fin 858, ∃ crc : BitVec 32, ∃ g : GuardX, ∃ s : State, b = .request p tag op a beats ∧ guardNumber b = n ∧ s.dev.mt.guards.find? (guardKey b) = some g ∧ guardOk b crc = false ∧ g.fails = 3) ∧
    (∃ s : State, s.dev.on F.MT_STS_COMPAT_PEND = true ∧ (s.dev.mt.ops.any (fun o => decide (o.seq < s.dev.mt.compatSeq) && ! o.denied && ! o.badReq) = false)) :=
  ⟨⟨sw [up 74, (F.MT_CTL_SCRUB_INT, 0, 1)], by decide⟩,
   ⟨sw [up 74, (F.MT_CTL_SCRUB_INT, 0, 1)], by decide⟩,
   ⟨sw [up 74, (F.MT_CTL_SCRUB_INT, 0, 1)], by decide⟩,
   ⟨1, by decide⟩,
   ⟨2, by decide⟩,
   ⟨4, sw [], by decide⟩,
   ⟨4, sw [], by decide⟩,
   ⟨4, sw [up 74], by unfold State.wf; decide⟩,
   ⟨4, sw [up 74], by unfold State.wf; decide⟩,
   ⟨gblock, crcOf gblock + 1, sw [], by decide⟩,
   ⟨.config 3 [1, 2], crcOf (.config 3 [1, 2]), sw [], ⟨by decide, by decide, .inr (.inr (.inl ⟨3, [1, 2], rfl⟩))⟩⟩,
   ⟨gblock, crcOf gblock, sw [up 74] (fun d => d.modMt (fun m => { m with ops := [{ op66 with waitReq := true }] })), ⟨66, 0⟩, 0, 0, 5, [], by decide⟩,
   ⟨.gutterIn 0 .a gword, crcOf (.gutterIn 0 .a gword), gutState, 0, .a, gword, by decide⟩,
   ⟨⟨66, 0⟩, 0, 0, 5, [], gblock, 852, crcOf gblock, { fails := 1, block := gblock }, failed 1, by decide⟩,
   ⟨⟨66, 0⟩, 0, 0, 5, [], gblock, 852, crcOf gblock + 1, { fails := 2, block := gblock }, failed 2, by decide⟩,
   ⟨⟨66, 0⟩, 0, 0, 5, [], gblock, 852, crcOf gblock + 1, { fails := 3, block := gblock }, failed 3, by decide⟩,
   ⟨sw [(F.MT_STS_COMPAT_PEND, 0, 1)] (fun d => d.modMt (fun m => { m with compat := true })), by decide⟩⟩

/-- Every clause of TransactionSlotCommands applies somewhere. -/
theorem test_meets_TransactionSlotCommands :
    (∃ who : Initiator, ∃ k : Nat, ∃ s : State, s.dev.pw.good = true ∧ ((who = .host → s.dev.ulState = 2)) ∧ s.dev.openSlot who = some k) ∧
    (∃ s : State, s.dev.pw.good = false) ∧
    (∃ s : State, s.dev.pw.good = true ∧ s.dev.ulState ≠ 2) ∧
    (∃ s : State, s.dev.pw.good = true ∧ s.dev.ulState = 2 ∧ s.dev.openSlot .host = none) ∧
    (∃ who : Initiator, ∃ k : Fin 16, ∃ a : BitVec 24, ∃ m : BitVec 32, ∃ r : Reg, ∃ i : Nat, ∃ s : State, (slotsOf who).contains k.val = true ∧ s.dev.rd F.TG_SLOT_STS_STATE k = 1 ∧ (s.dev.gateSlot k).staged = [] ∧ s.dev.stagedReg [] (a.toNat / 4 * 4) = some (r, i) ∧ r.block ≠ .dm ∧ mergeBits 0 m.toNat (s.dev.commitMask r i) = m.toNat) ∧
    (∃ k : Fin 16, ∃ n : Fin 512, ∃ a : BitVec 24, ∃ v : BitVec 32, ∃ m : BitVec 32, ∃ c : Instr, c ∈ [Instr.gateStage .host k a v m, .commitImmediate .host k, .commitBoundary .host k n, .commitMarker .host k n, .gateAbort .host k] ∧ (slotsOf .host).contains k.val = false) ∧
    (∃ k : Fin 16, ∃ n : Fin 512, ∃ a : BitVec 24, ∃ v : BitVec 32, ∃ m : BitVec 32, ∃ s : State, ∃ c : Instr, c ∈ [Instr.gateStage .host k a v m, .commitImmediate .host k, .commitBoundary .host k n, .commitMarker .host k n] ∧ (slotsOf .host).contains k.val = true ∧ s.dev.rd F.TG_SLOT_STS_STATE k ≠ 1) ∧
    (∃ k : Fin 16, ∃ s : State, ∃ c : Instr, c = .gateAbort .host k ∧ (slotsOf .host).contains k.val = true ∧ s.dev.rd F.TG_SLOT_STS_STATE k ≠ 1 ∧ s.dev.rd F.TG_SLOT_STS_STATE k ≠ 2) ∧
    (∃ k : Fin 16, ∃ a : BitVec 24, ∃ s : State, (slotsOf .host).contains k.val = true ∧ s.dev.rd F.TG_SLOT_STS_STATE k = 1 ∧ s.dev.stagedReg (s.dev.gateSlot k).staged (a.toNat / 4 * 4) = none) ∧
    (∃ k : Fin 16, ∃ a : BitVec 24, ∃ m : BitVec 32, ∃ s : State, ∃ r : Reg, ∃ i : Nat, (slotsOf .host).contains k.val = true ∧ s.dev.rd F.TG_SLOT_STS_STATE k = 1 ∧ s.dev.stagedReg (s.dev.gateSlot k).staged (a.toNat / 4 * 4) = some (r, i) ∧ r.block ≠ .dm ∧ mergeBits 0 m.toNat (s.dev.commitMask r i) = m.toNat ∧ 256 ≤ (s.dev.gateSlot k).staged.length ∧ ((s.dev.gateSlot k).staged.any (fun w => decide (w.addr = a.toNat / 4 * 4)) = false)) ∧
    (∃ who : Initiator, ∃ k : Fin 16, ∃ n : Fin 512, ∃ c : Instr, ∃ mode : Nat, ∃ course : Nat, ∃ s : State, (slotsOf who).contains k.val = true ∧ s.dev.rd F.TG_SLOT_STS_STATE k = 1 ∧ (((c = .commitImmediate who k ∧ mode = 0 ∧ course = 0) ∨ (c = .commitBoundary who k n ∧ mode = 1 ∧ course = n.val) ∨ (c = .commitMarker who k n ∧ mode = 2 ∧ course = n.val)))) ∧
    (∃ who : Initiator, ∃ k : Fin 16, ∃ s : State, (slotsOf who).contains k.val = true ∧ (s.dev.rd F.TG_SLOT_STS_STATE k = 1 ∨ s.dev.rd F.TG_SLOT_STS_STATE k = 2)) :=
  ⟨⟨.host, 9, keyed [(F.TG_UL_STS_STATE, 0, 2)], by decide⟩,
   ⟨raw [], by decide⟩,
   ⟨keyed [], by decide⟩,
   ⟨keyed ([(F.TG_UL_STS_STATE, 0, 2)] ++ (List.range 7).map (fun k => (F.TG_SLOT_STS_STATE, k + 9, 1))), by decide⟩,
   ⟨.host, 9, 0x300060, 0x7FF0001, .FB_WIN_BASE, 0, keyed [(F.TG_UL_STS_STATE, 0, 2), (F.TG_SLOT_STS_STATE, 9, 1), up 10], by decide⟩,
   ⟨8, 3, 0x300060, 1, 1, .commitBoundary .host 8 3, by decide⟩,
   ⟨15, 3, 0x300060, 1, 1, keyed [], .commitMarker .host 15 3, by decide⟩,
   ⟨15, keyed [], .gateAbort .host 15, by decide⟩,
   ⟨9, 0xFFFFFC, keyed [(F.TG_SLOT_STS_STATE, 9, 1)], by decide⟩,
   ⟨9, 0x300060, 1, keyed [(F.TG_SLOT_STS_STATE, 9, 1)] (fun d => d.modGate 9 (fun _ => { staged := List.replicate 256 { addr := 0, reg := .MG_SCRATCH, i := 0, data := 0, mask := 0 } })), .FB_WIN_BASE, 0, by decide⟩,
   ⟨.host, 9, 5, .commitBoundary .host 9 5, 1, 5, keyed [(F.TG_SLOT_STS_STATE, 9, 1)], ⟨by decide, by decide, .inr (.inl ⟨rfl, rfl, rfl⟩)⟩⟩,
   ⟨.host, 9, keyed [(F.TG_SLOT_STS_STATE, 9, 1)], by decide⟩⟩

/-- Every clause of CommitInstants applies somewhere. -/
theorem test_meets_CommitInstants :
    (∃ k : Fin 16, ∃ s : State, s.dev.commitDue k = false) ∧
    (∃ k : Fin 16, ∃ s : State, ∃ a : Nat, s.dev.commitDue k = true ∧ ((∀ j, j < k.val → s.dev.commitDue j = false)) ∧ s.dev.commitWaits (s.dev.stagedOf k) = [] ∧ 8 ≤ k.val ∧ s.dev.conflictOf k = some a) ∧
    (∃ k : Fin 16, ∃ s : State, ∃ a : Nat, s.dev.commitDue k = true ∧ ((∀ j, j < k.val → s.dev.commitDue j = false)) ∧ s.dev.commitWaits (s.dev.stagedOf k) = [] ∧ 8 ≤ k.val ∧ s.dev.conflictOf k = none ∧ s.dev.valueAbort k (s.dev.stagedOf k) = some a) ∧
    (∃ k : Fin 16, ∃ s : State, s.dev.commitDue k = true ∧ ((∀ j, j < k.val → s.dev.commitDue j = false)) ∧ s.dev.commitWaits (s.dev.stagedOf k) = [] ∧ s.dev.conflictOf k = none ∧ s.dev.valueAbort k (s.dev.stagedOf k) = none ∧ s.dev.quotaAbort (s.dev.stagedOf k) = true) ∧
    (∃ k : Fin 16, ∃ s : State, s.dev.commitDue k = true ∧ ((∀ j, j < k.val → s.dev.commitDue j = false)) ∧ s.dev.commitWaits (s.dev.stagedOf k) = [] ∧ s.dev.conflictOf k = none ∧ s.dev.valueAbort k (s.dev.stagedOf k) = none ∧ s.dev.quotaAbort (s.dev.stagedOf k) = false) ∧
    (∃ k : Fin 16, ∃ s : State, ∃ w : StagedWrite, s.dev.commitDue k = true ∧ ((∀ j, j < k.val → s.dev.commitDue j = false)) ∧ s.dev.commitWaits (s.dev.stagedOf k) = [] ∧ s.dev.stagedOf k = [w] ∧ w.reg = .FB_WIN_BASE ∧ ((regDomain w.reg w.i = 0 ∨ s.dev.domOn (regDomain w.reg w.i) = true)) ∧ s.dev.conflictOf k = none ∧ s.dev.valueAbort k [w] = none ∧ s.dev.quotaAbort [w] = false) ∧
    (∃ k : Fin 16, ∃ s : State, s.dev.rd F.TG_SLOT_STS_STATE k = 2 ∧ s.dev.rd F.TG_SLOT_STS_MODE k ≠ 0 ∧ s.dev.commitDue k = false ∧ 8 ≤ k.val) ∧
    (∃ k : Fin 16, ∃ s : State, ((s.dev.rd F.TG_SLOT_STS_STATE k ≠ 2 ∨ s.dev.rd F.TG_SLOT_STS_MODE k = 0 ∨ s.dev.commitDue k = true))) :=
  ⟨⟨3, sw [], by decide⟩,
   ⟨9, commitState 9 [winWrite] [up 10] (fun d => { d with watched := [{ reg := .FB_WIN_BASE, i := 0, slot := 9, pos := 0, hit := true }] }), 0x300060, by decide⟩,
   ⟨9, commitState 9 [{ addr := 0x180000, reg := .CS_CTL, i := 0, data := 6, mask := 6 }] [], 0x180000, by decide⟩,
   ⟨9, commitState 9 [{ addr := 0x414004, reg := .PU_GMIN, i := 0, data := 5, mask := 0x7FFFF }] [up 74, (F.PU_GCFG_EN, 0, 1), (F.PU_GCFG_PARENT, 0, 1024)], by decide⟩,
   ⟨9, commitState 9 [winWrite] [up 10], by decide⟩,
   ⟨9, commitState 9 [winWrite] [up 10], winWrite, by decide⟩,
   ⟨9, commitState 9 [winWrite] [up 10, ck 0 4, (F.TG_SLOT_STS_MODE, 9, 1)], by decide⟩,
   ⟨9, sw [], .inl (by decide)⟩⟩

/-- Every clause of SealRecordCommands applies somewhere. -/
theorem test_meets_SealRecordCommands :
    (∃ s : State, s.dev.dm.running = true) ∧
    (∃ s : State, s.dev.dm.running = false) ∧
    (∃ s : State, ((s.dev.dm.recs = [] ∨ s.dev.domOn rowM = false ∨ s.dev.on F.MT_STS_WIPING = true))) ∧
    (∃ s : State, s.dev.dm.recs ≠ [] ∧ s.dev.domOn rowM = true ∧ s.dev.on F.MT_STS_WIPING = false ∧ s.dev.dm.retry = false) ∧
    (∃ s : State, s.dev.dm.recs ≠ [] ∧ s.dev.domOn rowM = true ∧ s.dev.on F.MT_STS_WIPING = false ∧ s.dev.dm.retry = true) ∧
    (∃ r : List Byte, ∃ rs : List (List Byte), ∃ s : State, State.wf s ∧ s.dev.dm.recs = r :: rs ∧ r.length = 512 ∧ s.dev.domOn rowM = true ∧ s.dev.mt.ops = [] ∧ s.dev.on F.MT_STS_WIPING = false) ∧
    (∃ s : State, s.dev.domOn rowD = false) ∧
    (∃ q : BitVec 32, ∃ s : State, s.dev.domOn rowD = true ∧ ((s.dev.dm.shown = false ∨ q.toNat < s.dev.rd F.DM_SEQ_OLD_OLD ∨ s.dev.rd F.DM_SEQ_NEW_NEW < q.toNat ∨ s.dev.domOn rowM = false))) ∧
    (∃ q : BitVec 32, ∃ s : State, s.dev.domOn rowD = true ∧ s.dev.domOn rowM = true ∧ s.dev.dm.shown = true ∧ s.dev.mt.bad = [] ∧ s.dev.mt.ops = [] ∧ s.dev.rd F.DM_SEQ_OLD_OLD ≤ q.toNat ∧ q.toNat ≤ s.dev.rd F.DM_SEQ_NEW_NEW) ∧
    (∃ s : State, s.dev.on F.DM_RSTS_BUSY = false) ∧
    (∃ b : List Byte, ∃ s : State, s.dev.on F.DM_RSTS_BUSY = true ∧ s.dev.dm.copy = some b) ∧
    (∃ s : State, s.dev.on F.DM_RSTS_BUSY = true ∧ s.dev.dm.copy = none) :=
  ⟨⟨sw [(F.DM_CFG_NMETER, 0, 1)] (fun d => d.modDm (fun m => { m with running := true, ring := true })), by decide⟩,
   ⟨sw [], by decide⟩,
   ⟨sw [], .inl (by decide)⟩,
   ⟨sw [up 74] (fun d => d.modDm (fun m => { m with recs := [List.replicate 512 0] })), by decide⟩,
   ⟨sw [up 74] (fun d => d.modDm (fun m => { m with recs := [List.replicate 512 0], retry := true })), by decide⟩,
   ⟨List.replicate 512 7, [], sw [up 74, (F.DM_CFG_RINGSZ, 0, 8)] (fun d => d.modDm (fun m => { m with recs := [List.replicate 512 7] })), by unfold State.wf; decide +kernel⟩,
   ⟨sw [], by decide⟩,
   ⟨3, sw [up 76], by decide⟩,
   ⟨3, sw [up 74, up 76, (F.DM_SEQ_NEW_NEW, 0, 5), (F.DM_CFG_RINGSZ, 0, 8)] (fun d => d.modDm (fun m => { m with shown := true })), by decide⟩,
   ⟨sw [], by decide⟩,
   ⟨List.replicate 512 7, sw [(F.DM_RSTS_BUSY, 0, 1)] (fun d => d.modDm (fun m => { m with copy := some (List.replicate 512 7) })), by decide⟩,
   ⟨sw [(F.DM_RSTS_BUSY, 0, 1)], by decide⟩⟩

/-- Every clause of TamperAndWipeCommands applies somewhere. -/
theorem test_meets_TamperAndWipeCommands :
    (∃ c : Instr, ∃ src : Nat, ∃ s : State, (((c = .tamperNConfirm ∧ src = 0 ∧ s.dev.on F.DM_CFG_TMPEN = true) ∨ (c = .eavesSupplyGlitch ∧ src = 1))) ∧ s.dev.pw.good = true ∧ s.dev.fuse.life ≠ 0 ∧ s.dev.fuse.life ≠ 4 ∧ s.dev.on F.PW_STS_BUSY = false ∧ s.dev.rd F.PW_STS_DEV = 1 ∧ s.dev.fuse.tamper.at src 0 + s.dev.dm.latch.at src 0 < 255) ∧
    (∃ c : Instr, ∃ src : Nat, ∃ s : State, (((c = .tamperNConfirm ∧ src = 0 ∧ s.dev.on F.DM_CFG_TMPEN = true) ∨ (c = .eavesSupplyGlitch ∧ src = 1))) ∧ s.dev.fuse.life ≠ 0 ∧ s.dev.fuse.life ≠ 4 ∧ s.dev.restful ∧ 2 ≤ s.dev.rd F.PW_STS_DEV ∧ s.dev.rd F.PW_STS_DEV ≤ 5) ∧
    (∃ c : Instr, ∃ s : State, c ∈ [Instr.tamperNConfirm, .eavesSupplyGlitch] ∧ (((c = .tamperNConfirm ∧ s.dev.on F.DM_CFG_TMPEN = false) ∨ (c = .eavesSupplyGlitch ∧ s.dev.pw.good = false) ∨ s.dev.fuse.life = 0 ∨ s.dev.fuse.life = 4))) ∧
    (∃ s : State, s.dev.pw.good = false) ∧
    (∃ v : BitVec 12, ∃ s : State, s.dev.pw.good = true ∧ (¬ (v.toInt < -400 ∨ 1000 < v.toInt))) ∧
    (∃ t : Fin 4, ∃ v : BitVec 12, ∃ s : State, s.dev.pw.good = true ∧ ((v.toInt < -400 ∨ 1000 < v.toInt)) ∧ bit s.dev.dm.hot t = false) ∧
    (∃ t : Fin 4, ∃ v : BitVec 12, ∃ s : State, s.dev.pw.good = true ∧ ((v.toInt < -400 ∨ 1000 < v.toInt)) ∧ bit s.dev.dm.hot t = true ∧ bit s.dev.dm.hotDone t = false ∧ s.dev.fuse.life ≠ 0 ∧ s.dev.fuse.life ≠ 4 ∧ s.dev.on F.PW_STS_BUSY = false ∧ s.dev.rd F.PW_STS_DEV = 1 ∧ s.dev.fuse.tamper.at 2 0 + s.dev.dm.latch.at 2 0 < 255) ∧
    (∃ t : Fin 4, ∃ v : BitVec 12, ∃ s : State, s.dev.pw.good = true ∧ ((v.toInt < -400 ∨ 1000 < v.toInt)) ∧ bit s.dev.dm.hot t = true ∧ bit s.dev.dm.hotDone t = true) ∧
    (∃ s : State, s.dev.domOn rowC = false) ∧
    (∃ s : State, s.dev.domOn rowC = true) ∧
    (∃ s : State, s.dev.on F.MT_STS_WIPING = false) ∧
    (∃ s : State, s.dev.on F.MT_STS_WIPING = true ∧ s.dev.pw.resetDue = false ∧ State.wf s) ∧
    (∃ s : State, s.dev.on F.MT_STS_WIPING = true ∧ s.dev.pw.resetDue = true) :=
  ⟨⟨.eavesSupplyGlitch, 1, sw [up 74] (fun d => { d with fuse := { life := 1 } }), ⟨.inr ⟨rfl, rfl⟩, by decide⟩⟩,
   ⟨.eavesSupplyGlitch, 1, sw [up 74, (F.PW_STS_DEV, 0, 2)] (fun d => { d.modPw (fun p => { p with good := true }) with fuse := { life := 1 } }), by refine ⟨.inr ⟨rfl, rfl⟩, ?_⟩; unfold Dev.restful; decide⟩,
   ⟨.eavesSupplyGlitch, sw [], by decide⟩,
   ⟨raw [], by decide⟩,
   ⟨1000, sw [], by decide⟩,
   ⟨2, 1001, sw [], by decide⟩,
   ⟨2, 1001, sw [up 74] (fun d => { d.modDm (fun m => { m with hot := 4 }) with fuse := { life := 1 } }), by decide⟩,
   ⟨2, 1001, sw [] (fun d => d.modDm (fun m => { m with hot := 4, hotDone := 4 })), by decide⟩,
   ⟨sw [], by decide⟩,
   ⟨sw [up 75] (fun d => d.modDm (fun m => { m with latch := [(1, 3)] })), by decide⟩,
   ⟨sw [], by decide⟩,
   ⟨sw [up 74, (F.MT_STS_WIPING, 0, 1)], by unfold State.wf; decide⟩,
   ⟨sw [up 74, (F.MT_STS_WIPING, 0, 1)] (fun d => d.modPw (fun p => { p with resetDue := true })), by decide⟩⟩

/-- Every clause of CalibrationCommands applies somewhere. -/
theorem test_meets_CalibrationCommands :
    (∃ c : Instr, ∃ kind : Fin 8, ∃ target : Fin 256, ∃ nw : Bool, ∃ ap : Bool, ∃ rept : Fin 8, ∃ param : Fin 32, ∃ s : State, c ∈ [Instr.clMeasure kind target nw ap rept param, .clRead kind target param, .clWrite kind target param] ∧ s.dev.cal.phase ≠ .idle) ∧
    (∃ c : Instr, ∃ kind : Fin 8, ∃ target : Fin 256, ∃ nw : Bool, ∃ ap : Bool, ∃ rept : Fin 8, ∃ param : Fin 32, ∃ s : State, c ∈ [Instr.clMeasure kind target nw ap rept param, .clRead kind target param, .clWrite kind target param] ∧ s.dev.cal.phase = .idle ∧ calRangeOk kind target param = false) ∧
    (∃ kind : Fin 8, ∃ target : Fin 256, ∃ param : Fin 32, ∃ s : State, s.dev.cal.phase = .idle ∧ calRangeOk kind target param = true) ∧
    (∃ t : Fin 8, ∃ param : Fin 32, ∃ s : State, s.dev.cal.phase = .idle ∧ s.dev.calState 1 t param = true) ∧
    (∃ t : Fin 8, ∃ param : Fin 32, ∃ s : State, s.dev.cal.phase = .idle ∧ s.dev.calState 1 t param = false) ∧
    (∃ t : Fin 8, ∃ param : Fin 32, ∃ s : State, s.dev.cal.phase = .idle ∧ s.dev.calState 1 t param = true) ∧
    (∃ s : State, s.dev.cal.phase = .idle) ∧
    (∃ s : State, s.dev.cal.phase = .measure ∧ s.dev.cal.kind ≠ 2) ∧
    (∃ s : State, s.dev.cal.phase = .returning) ∧
    (∃ s : State, s.dev.cal.phase ≠ .claim) ∧
    (∃ s : State, s.dev.cal.phase = .claim ∧ s.dev.cal.kind = 2 ∧ s.dev.cal.target < 128 ∧ s.dev.cal.op = 1 ∧ s.dev.ks s.dev.cal.target = 2 ∧ s.dev.fsOwner (laneFs s.dev.cal.target) = 0 ∧ s.dev.on F.LN_FS_STS_FAULT (laneFs s.dev.cal.target) = false) :=
  ⟨⟨.clRead 1 0 0, 1, 0, false, false, 0, 0, sw [] (fun d => { d with cal := { phase := .measure } }), by decide⟩,
   ⟨.clRead 1 8 0, 1, 8, false, false, 0, 0, sw [], by decide⟩,
   ⟨1, 7, 0, sw [], by decide⟩,
   ⟨7, 0, cal1, by decide⟩,
   ⟨7, 0, sw [lk 56 1], by decide⟩,
   ⟨7, 0, cal1, by decide⟩,
   ⟨sw [], by decide⟩,
   ⟨sw [] (fun d => { d with cal := { phase := .measure, kind := 1 } }), by decide⟩,
   ⟨sw [] (fun d => { d with cal := { phase := .returning, kind := 2, op := 1, target := 0 } }), by decide⟩,
   ⟨sw [], by decide⟩,
   ⟨sw [lk 0 2] (fun d => { d with cal := { phase := .claim, op := 1, kind := 2, target := 0 } }), by decide⟩⟩

/-- Every clause of CalibrationRuns applies somewhere. -/
theorem test_meets_CalibrationRuns :
    (∃ s : State, s.dev.cal.phase ≠ .measure) ∧
    (∃ r : CalRun, ∃ s : State, s.dev.cal.phase = .measure ∧ (s.dev.calMonitors r).calCond r = (0, 0) ∧ r.before = true) ∧
    (∃ r : CalRun, ∃ s : State, s.dev.cal.phase = .measure ∧ (s.dev.calMonitors r).calCond r = (0, 0) ∧ r.before = false ∧ s.dev.cal.runs.length + 1 < s.dev.cal.runsWanted) ∧
    (∃ r : CalRun, ∃ s : State, ∃ rs : List (List Int), ∃ vs : List Int, s.dev.cal.phase = .measure ∧ (s.dev.calMonitors r).calCond r = (0, 0) ∧ r.before = false ∧ s.dev.cal.runsWanted ≤ s.dev.cal.runs.length + 1 ∧ s.dev.cal.kind = 1 ∧ rs = s.dev.cal.runs ++ [r.fields] ∧ vs = calResult 1 rs ∧ (widest 1 rs).1 ≤ 1 ∧ (List.zipWith calInRange (calFields 1) vs).all id = true) ∧
    (∃ r : CalRun, ∃ s : State, ∃ rs : List (List Int), s.dev.cal.phase = .measure ∧ (s.dev.calMonitors r).calCond r = (0, 0) ∧ r.before = false ∧ s.dev.cal.runsWanted ≤ s.dev.cal.runs.length + 1 ∧ s.dev.cal.kind = 1 ∧ rs = s.dev.cal.runs ++ [r.fields] ∧ 1 < (widest 1 rs).1) ∧
    (∃ r : CalRun, ∃ s : State, ∃ o : Nat, ∃ p : Nat, s.dev.cal.phase = .measure ∧ (s.dev.calMonitors r).calCond r = (o, p) ∧ o ≠ 0 ∧ p ≠ 1 ∧ s.dev.cal.kind ≠ 2) ∧
    (∃ r : CalRun, ∃ s : State, s.dev.cal.phase = .measure ∧ (s.dev.calMonitors r).calCond r = (2, 1) ∧ s.dev.cal.kind ≠ 2) :=
  ⟨⟨sw [], by decide⟩,
   ⟨{ run1 with before := true }, calRun 1 [], by decide⟩,
   ⟨run1, calRun 3 [[3, 4]], by decide⟩,
   ⟨run1, calRun 2 [[3, 4]], [[3, 4], [3, 4]], calResult 1 [[3, 4], [3, 4]], by decide⟩,
   ⟨run1, calRun 2 [[3, 9]], [[3, 9], [3, 4]], by decide⟩,
   ⟨{ run1 with vcal := 8999 }, calRun 2 [], 3, 4, by decide⟩,
   ⟨run1, { calRun 2 [] with dev := (calRun 2 []).dev.wr F.LN_STS_KSTATE 56 1 }, by decide⟩⟩

/-- Every clause of MemoryBistCommands applies somewhere. -/
theorem test_meets_MemoryBistCommands :
    (∃ c : Instr, ∃ b : Fin 512, ∃ col : Bool, ∃ ix : Fin 8192, ∃ s : State, c ∈ [Instr.mbistStart, .mbistStop, .repairApply b col ix, .repairClear b] ∧ s.dev.domOn rowM = false) ∧
    (∃ s : State, s.dev.domOn rowM = true ∧ s.dev.rd F.ST_MSTS_STATE ≠ 0) ∧
    (∃ s : State, s.dev.domOn rowM = true ∧ s.dev.rd F.ST_MSTS_STATE = 0) ∧
    (∃ s : State, s.dev.domOn rowM = true ∧ s.dev.rd F.ST_MSTS_STATE = 0) ∧
    (∃ b : Nat, ∃ s : State, s.dev.domOn rowM = true ∧ s.dev.rd F.ST_MSTS_STATE ≠ 0 ∧ s.dev.mb.under = some b) ∧
    (∃ s : State, s.dev.domOn rowM = true ∧ s.dev.rd F.ST_MSTS_STATE ≠ 0 ∧ s.dev.mb.under = none) ∧
    (∃ s : State, ((s.dev.rd F.ST_MSTS_STATE = 0 ∨ s.dev.mb.under.isSome = true ∨ s.dev.domOn rowM = false))) ∧
    (∃ b : Nat, ∃ s : State, s.dev.rd F.ST_MSTS_STATE ≠ 0 ∧ s.dev.mb.under = none ∧ s.dev.domOn rowM = true ∧ s.dev.mbNext = some b) ∧
    (∃ s : State, s.dev.rd F.ST_MSTS_STATE ≠ 0 ∧ s.dev.mb.under = none ∧ s.dev.domOn rowM = true ∧ s.dev.mbNext = none ∧ s.dev.on F.ST_MCMD_LOOP = false) ∧
    (∃ s : State, s.dev.rd F.ST_MSTS_STATE ≠ 0 ∧ s.dev.mb.under = none ∧ s.dev.domOn rowM = true ∧ s.dev.mbNext = none ∧ s.dev.on F.ST_MCMD_LOOP = true) ∧
    (∃ b : Nat, ∃ c : Nat, ∃ y : Bool, ∃ s : State, s.dev.mb.under = some b ∧ (y || s.dev.mb.touched) = true ∧ s.dev.mb.stop = false ∧ s.dev.mbNext = some c ∧ s.dev.mb.yields.at b 0 = 7) ∧
    (∃ s : State, s.dev.mb.under = none) ∧
    (∃ b : Nat, ∃ c : Nat, ∃ s : State, s.dev.mb.under = some b ∧ s.dev.mb.touched = false ∧ s.dev.mb.stop = false ∧ s.dev.mbNext = some c) ∧
    (∃ b : Nat, ∃ c : Nat, ∃ s : State, s.dev.mb.under = some b ∧ s.dev.mb.touched = false ∧ s.dev.mb.stop = false ∧ s.dev.mbNext = some c ∧ s.dev.on F.ST_MCMD_STOPFAIL = false ∧ s.dev.on F.ST_MFAIL_ADDR_VALID = false) ∧
    (∃ b : Nat, ∃ y : Nat, ∃ s : State, s.dev.mb.under = some b ∧ s.dev.mb.stop = false ∧ s.dev.mb.todo = [] ∧ s.dev.mb.ptr = some y ∧ s.dev.mb.yields.at b 0 = 0) ∧
    (∃ b : Nat, ∃ y : Nat, ∃ s : State, s.dev.mb.under = some b ∧ s.dev.mb.touched = true ∧ s.dev.mb.stop = false ∧ s.dev.mb.todo = [] ∧ s.dev.mb.ptr = some y ∧ s.dev.mb.yields.at b 0 = 0) :=
  ⟨⟨.mbistStop, 0, false, 0, sw [], by decide⟩,
   ⟨sw [up 74, (F.ST_MSTS_STATE, 0, 1)], by decide⟩,
   ⟨sw [up 74], by decide⟩,
   ⟨sw [up 74], by decide⟩,
   ⟨5, sw [up 74, (F.ST_MSTS_STATE, 0, 1)] (fun d => d.modMb (fun m => { m with under := some 5 })), by decide⟩,
   ⟨sw [up 74, (F.ST_MSTS_STATE, 0, 1)], by decide⟩,
   ⟨sw [], .inl (by decide)⟩,
   ⟨5, sw [up 74, (F.ST_MSTS_STATE, 0, 1)] (fun d => d.modMb (fun m => { m with todo := [5] })), by decide⟩,
   ⟨sw [up 74, (F.ST_MSTS_STATE, 0, 1)], by decide⟩,
   ⟨sw [up 74, (F.ST_MSTS_STATE, 0, 1), (F.ST_MCMD_LOOP, 0, 1)] (fun d => d.modMb (fun m => { m with failed := true })), by decide⟩,
   ⟨5, 6, true, sw [up 74, (F.ST_MSTS_STATE, 0, 1)] (fun d => d.modMb (fun m => { m with under := some 5, ptr := some 6, yields := [(5, 7)] })), by decide⟩,
   ⟨sw [], by decide⟩,
   ⟨5, 6, sw [up 74, (F.ST_MSTS_STATE, 0, 1)] (fun d => d.modMb (fun m => { m with under := some 5, ptr := some 6 })), by decide⟩,
   ⟨5, 6, sw [up 74, (F.ST_MSTS_STATE, 0, 1)] (fun d => d.modMb (fun m => { m with under := some 5, ptr := some 6 })), by decide⟩,
   ⟨5, 6, sw [up 74, (F.ST_MSTS_STATE, 0, 1)] (fun d => d.modMb (fun m => { m with under := some 5, ptr := some 6 })), by decide⟩,
   ⟨5, 6, sw [up 74, (F.ST_MSTS_STATE, 0, 1)] (fun d => d.modMb (fun m => { m with under := some 5, ptr := some 6, touched := true })), by decide⟩⟩

/-- Every clause of SoftRepairCommands applies somewhere. -/
theorem test_meets_SoftRepairCommands :
    (∃ s : State, s.dev.domOn rowM = true ∧ s.dev.on F.ST_MREP_STS_BUSY = true) ∧
    (∃ s : State, s.dev.domOn rowM = true ∧ s.dev.on F.ST_MREP_STS_BUSY = false) ∧
    (∃ s : State, s.dev.mb.copy = none) ∧
    (∃ b : Nat, ∃ col : Bool, ∃ ix : Nat, ∃ s : State, s.dev.mb.copy = some (b, col, ix)) ∧
    (∃ s : State, s.dev.domOn rowM = true ∧ s.dev.on F.ST_MREP_STS_BUSY = true) ∧
    (∃ b : Fin 512, ∃ s : State, s.dev.domOn rowM = true ∧ s.dev.on F.ST_MREP_STS_BUSY = false ∧ s.dev.mb.soft.at b [] = []) ∧
    (∃ b : Fin 512, ∃ row : Fin 8192, ∃ s : State, s.dev.domOn rowM = true ∧ s.dev.on F.ST_MREP_STS_BUSY = false ∧ State.wf s ∧ s.dev.mb.soft.at b [] = [(false, row.val)]) :=
  ⟨⟨sw [up 74, (F.ST_MREP_STS_BUSY, 0, 1)], by decide⟩,
   ⟨sw [up 74], by decide⟩,
   ⟨sw [], by decide⟩,
   ⟨1, true, 3, sw [up 74, (F.ST_MREP_STS_BUSY, 0, 1)] (fun d => d.modMb (fun m => { m with copy := some (1, true, 3) })), by decide⟩,
   ⟨sw [up 74, (F.ST_MREP_STS_BUSY, 0, 1)], by decide⟩,
   ⟨1, sw [up 74], by decide⟩,
   ⟨1, 3, sw [up 74] (fun d => d.modMb (fun m => { m with soft := [(1, [(false, 3)])] })), by unfold State.wf; decide⟩⟩

/-- Every clause of LogicBistCommands applies somewhere. -/
theorem test_meets_LogicBistCommands :
    (∃ r : Fin 64, ∃ n : Fin 32, ∃ c : Instr, ∃ s : State, c ∈ [Instr.lbistStart r n, .lbistStop] ∧ s.dev.domOn rowM = false) ∧
    (∃ r : Fin 64, ∃ n : Fin 32, ∃ s : State, s.dev.domOn rowM = true ∧ ((s.dev.on F.ST_LSTS_BUSY = true ∨ s.dev.domOn (rowL r) = false ∨ n.val < 10 ∨ 20 < n.val ∨ (s.dev.rd F.UD_STATE_KSTATE (0x080 + r) ≠ 1 ∧ s.dev.rd F.UD_STATE_KSTATE (0x080 + r) ≠ 2)))) ∧
    (∃ r : Fin 64, ∃ n : Fin 32, ∃ s : State, s.dev.domOn rowM = true ∧ s.dev.on F.ST_LSTS_BUSY = false ∧ s.dev.domOn (rowL r) = true ∧ ((s.dev.rd F.UD_STATE_KSTATE (0x080 + r) = 1 ∨ s.dev.rd F.UD_STATE_KSTATE (0x080 + r) = 2)) ∧ 10 ≤ n.val ∧ n.val ≤ 20) ∧
    (∃ s : State, s.dev.domOn rowM = true ∧ s.dev.lbRegion = none) ∧
    (∃ r : Nat, ∃ s : State, s.dev.domOn rowM = true ∧ s.dev.lbRegion = some r ∧ (s.dev.fbx r).bist = true) ∧
    (∃ c : Instr, ∃ sig : BitVec 32, ∃ n : BitVec 21, ∃ s : State, c ∈ [Instr.lbistEnd sig n, .lbistWatchdog sig n] ∧ s.dev.lbRegion = none) ∧
    (∃ c : Instr, ∃ sig : BitVec 32, ∃ n : BitVec 21, ∃ s : State, ∃ r : Nat, c ∈ [Instr.lbistEnd sig n, .lbistWatchdog sig n] ∧ s.dev.lbRegion = some r) :=
  ⟨⟨0, 10, .lbistStop, sw [], by decide⟩,
   ⟨0, 9, sw [up 74, up 10], by decide⟩,
   ⟨0, 20, sw [up 74, up 10, (F.UD_STATE_KSTATE, 0x080, 2)], by decide⟩,
   ⟨sw [up 74], by decide⟩,
   ⟨0, sw [up 74, up 10, (F.ST_LSTS_BUSY, 0, 1)] (fun d => d.modFb 0 (fun x => { x with bist := true })), by decide⟩,
   ⟨.lbistEnd 5 1024, 5, 1024, sw [], by decide⟩,
   ⟨.lbistEnd 5 1024, 5, 1024, sw [up 74, up 10, (F.ST_LSTS_BUSY, 0, 1)] (fun d => d.modFb 0 (fun x => { x with bist := true })), 0, by decide⟩⟩

/-- Every clause of LaneTestCommands applies somewhere. -/
theorem test_meets_LaneTestCommands :
    (∃ tp : Fin 64, ∃ side : Side, ∃ w : BitVec 32, ∃ c : Instr, ∃ s : State, c ∈ [Instr.laneTestStart tp side w, .laneTestStop tp side] ∧ s.dev.domOn (rowA (tp / 8)) = false) ∧
    (∃ tp : Fin 64, ∃ side : Side, ∃ w : BitVec 32, ∃ s : State, s.dev.domOn (rowA (tp / 8)) = true ∧ (s.dev.lane (laneIx tp side)).testing = false ∧ s.dev.ks (laneIx tp side) ≠ 0 ∧ ((s.dev.ks (laneIx tp side) = 7 → bits w.toNat F.LN_PT_CTL_LOOP.lo F.LN_PT_CTL_LOOP.w ≠ 2))) ∧
    (∃ tp : Fin 64, ∃ side : Side, ∃ w : BitVec 32, ∃ rate : Nat, ∃ l : Nat, ∃ s : State, l = laneIx tp side ∧ s.dev.domOn (rowA (tp / 8)) = true ∧ (s.dev.lane l).testing = false ∧ s.dev.ks l = 0 ∧ (rate = (match s.dev.laneCourse tp with | some n => s.dev.rd F.CS_RATE_RATE n | none => bits w.toNat F.LN_PT_CTL_RATE.lo F.LN_PT_CTL_RATE.w))) ∧
    (∃ tp : Fin 64, ∃ side : Side, ∃ s : State, s.dev.domOn (rowA (tp / 8)) = true ∧ (s.dev.lane (laneIx tp side)).testing = true) ∧
    (∃ tp : Fin 64, ∃ side : Side, ∃ s : State, (s.dev.lane (laneIx tp side)).testing = false) ∧
    (∃ tp : Fin 64, ∃ side : Side, ∃ s : State, (s.dev.lane (laneIx tp side)).testing = true ∧ s.dev.on F.LN_PT_CTL_CHK (laneIx tp side) = true) ∧
    (∃ tp : Fin 64, ∃ side : Side, ∃ s : State, (s.dev.lane (laneIx tp side)).testing = true ∧ s.dev.rd F.LN_PT_STS_STATE (laneIx tp side) = 2) ∧
    (∃ tp : Fin 64, ∃ side : Side, ∃ s : State, (s.dev.lane (laneIx tp side)).testing = true ∧ s.dev.rd F.LN_PT_STS_STATE (laneIx tp side) = 2) ∧
    (∃ tp : Fin 64, ∃ side : Side, ∃ s : State, (s.dev.lane (laneIx tp side)).testing = true ∧ s.dev.rd F.LN_PT_STS_STATE (laneIx tp side) = 2) ∧
    (∃ tp : Fin 64, ∃ side : Side, ∃ s : State, (s.dev.lane (laneIx tp side)).testing = true ∧ s.dev.rd F.LN_PT_CTL_LOOP (laneIx tp side) = 3) :=
  ⟨⟨0, .a, 1, .laneTestStop 0 .a, sw [], by decide⟩,
   ⟨0, .a, 1, sw [up 1, lk 0 2], by decide⟩,
   ⟨0, .a, 1, 0xE, 0, sw ([up 1, (F.CS_RATE_RATE, 0, 0xE), (F.LN_PLL_CTL_FAMILY, 0, 6)] ++ c0 1 0), by decide⟩,
   ⟨0, .a, sw [up 1, lk 0 8] (fun d => d.modLane 0 (fun x => { x with testing := true })), by decide⟩,
   ⟨0, .a, sw [], by decide⟩,
   ⟨0, .a, sw [up 1, lk 0 8, (F.LN_PT_STS_STATE, 0, 1), (F.LN_PT_CTL_CHK, 0, 1)] (fun d => d.modLane 0 (fun x => { x with testing := true })), by decide⟩,
   ⟨0, .a, sw [up 1, lk 0 8, (F.LN_PT_STS_STATE, 0, 2), (F.LN_PT_CTL_CHK, 0, 1)] (fun d => d.modLane 0 (fun x => { x with testing := true })), by decide⟩,
   ⟨0, .a, sw [up 1, lk 0 8, (F.LN_PT_STS_STATE, 0, 2), (F.LN_PT_CTL_CHK, 0, 1)] (fun d => d.modLane 0 (fun x => { x with testing := true })), by decide⟩,
   ⟨0, .a, sw [up 1, lk 0 8, (F.LN_PT_STS_STATE, 0, 2), (F.LN_PT_CTL_CHK, 0, 1)] (fun d => d.modLane 0 (fun x => { x with testing := true })), by decide⟩,
   ⟨0, .a, sw [up 1, lk 0 8, (F.LN_PT_CTL_LOOP, 0, 3), (F.LN_PT_CTL_CHK, 0, 1)] (fun d => d.modLane 0 (fun x => { x with testing := true })), by decide⟩⟩

/-- Every clause of TriggerAndSnapshotCommands applies somewhere. -/
theorem test_meets_TriggerAndSnapshotCommands :
    (∃ c : Instr, ∃ src : Nat, ∃ s : State, ((c = .snapInEdge true ∧ src = 1 ∧ s.dev.on F.SN_CTL_INPOL = false ∨ c = .snapInEdge false ∧ src = 1 ∧ s.dev.on F.SN_CTL_INPOL = true ∨ c = .snFire ∧ src = 2)) ∧ (bit (s.dev.rd F.SN_SRCEN_EN) (src - 1) = false ∨ s.dev.pw.good = false)) ∧
    (∃ c : Instr, ∃ src : Nat, ∃ s : State, ((c = .snapInEdge true ∧ src = 1 ∧ s.dev.on F.SN_CTL_INPOL = false ∨ c = .snapInEdge false ∧ src = 1 ∧ s.dev.on F.SN_CTL_INPOL = true ∨ c = .snFire ∧ src = 2)) ∧ s.dev.pw.good = true ∧ bit (s.dev.rd F.SN_SRCEN_EN) (src - 1) = true ∧ ((∀ t, s.dev.trig.last = some t → t + 16 ≤ s.dev.now))) ∧
    (∃ c : Instr, ∃ src : Nat, ∃ s : State, ∃ t : Nat, ((c = .snapInEdge true ∧ src = 1 ∧ s.dev.on F.SN_CTL_INPOL = false ∨ c = .snapInEdge false ∧ src = 1 ∧ s.dev.on F.SN_CTL_INPOL = true ∨ c = .snFire ∧ src = 2)) ∧ s.dev.pw.good = true ∧ bit (s.dev.rd F.SN_SRCEN_EN) (src - 1) = true ∧ s.dev.trig.last = some t ∧ t < s.dev.now ∧ s.dev.now < t + 16) ∧
    (∃ c : Instr, ∃ src : Nat, ∃ s : State, ((c = .snapInEdge true ∧ src = 1 ∧ s.dev.on F.SN_CTL_INPOL = false ∨ c = .snapInEdge false ∧ src = 1 ∧ s.dev.on F.SN_CTL_INPOL = true ∨ c = .snFire ∧ src = 2)) ∧ s.dev.pw.good = true ∧ bit (s.dev.rd F.SN_SRCEN_EN) (src - 1) = true ∧ s.dev.trig.last = some s.dev.now) ∧
    (∃ b : Bool, ∃ s : State, s.dev.on F.SN_CTL_INPOL = b) ∧
    (∃ s : State, ((s.dev.on F.SN_CTL_MATCH_EN = false ∨ s.dev.domOn rowAT = false ∨ s.dev.time < s.dev.matchTime))) ∧
    (∃ s : State, s.dev.on F.SN_CTL_MATCH_EN = true ∧ s.dev.domOn rowAT = true ∧ (s.dev.matchTime ≤ s.dev.time) ∧ s.dev.pw.good = true ∧ bit (s.dev.rd F.SN_SRCEN_EN) 2 = true ∧ ((∀ t, s.dev.trig.last = some t → t + 16 ≤ s.dev.now))) ∧
    (∃ id : Fin 4096, ∃ s : State, (s.dev.rd F.UD_IDENT_KIND id = 0 ∨ s.dev.pw.good = false)) ∧
    (∃ s : State, s.dev.pw.good = false) ∧
    (∃ id : Fin 4096, ∃ s : State, s.dev.pw.good = true ∧ s.dev.rd F.UD_IDENT_KIND id ≠ 0 ∧ s.dev.trig.last ≠ some s.dev.now) ∧
    (∃ id : Fin 4096, ∃ s : State, s.dev.pw.good = true ∧ s.dev.rd F.UD_IDENT_KIND id ≠ 0 ∧ s.dev.trig.last = some s.dev.now) ∧
    (∃ s : State, s.dev.pw.good = true ∧ s.dev.trig.last = some s.dev.now) ∧
    (∃ s : State, s.dev.pw.good = true ∧ s.dev.trig.last ≠ some s.dev.now) :=
  ⟨⟨.snFire, 2, sw [], by decide⟩,
   ⟨.snFire, 2, sw [up 9, (F.SN_SRCEN_EN, 0, 2), (F.UD_SNAP_ARMED, 0x43, 1), (F.SN_BSLOT_ARMED, 3, 1)] (fun d => { d with tb := { acc := 3 * 65536000000000 } }), ⟨.inr (.inr ⟨rfl, rfl⟩), by decide, by decide, by intro t h; cases h⟩⟩,
   ⟨.snFire, 2, sw [(F.SN_SRCEN_EN, 0, 2)] (fun d => { d with trig := { last := some 10 }, now := 25 }), 10, by decide⟩,
   ⟨.snFire, 2, sw [(F.SN_SRCEN_EN, 0, 2)] (fun d => { d with trig := { last := some 10 }, now := 10 }), by decide⟩,
   ⟨true, sw [(F.SN_CTL_INPOL, 0, 1)], by decide⟩,
   ⟨sw [], .inl (by decide)⟩,
   ⟨sw [up 9, (F.SN_CTL_MATCH_EN, 0, 1), (F.SN_SRCEN_EN, 0, 4)], ⟨by decide, by decide, by decide, by decide, by decide, by intro t h; cases h⟩⟩,
   ⟨0, sw [], by decide⟩,
   ⟨raw [], by decide⟩,
   ⟨0x43, sw [], by decide⟩,
   ⟨0x43, sw [] (fun d => { d with trig := { last := some 0 } }), by decide⟩,
   ⟨sw [] (fun d => { d with trig := { last := some 0 } }), by decide⟩,
   ⟨sw [], by decide⟩⟩

/-- Every clause of UnlockCommands applies somewhere. -/
theorem test_meets_UnlockCommands :
    (∃ c : Instr, ∃ s : State, c ∈ [Instr.challenge, .verify, .gkeyprog] ∧ s.dev.on F.TG_UL_STS_BUSY = true) ∧
    (∃ c : Instr, ∃ s : State, c ∈ [Instr.challenge, .verify] ∧ s.dev.on F.TG_UL_STS_BUSY = false ∧ s.dev.gateKeyBlank = true) ∧
    (∃ s : State, s.dev.on F.TG_UL_STS_BUSY = false ∧ s.dev.gateKeyBlank = false ∧ s.dev.mg.ulWait ≠ 0) ∧
    (∃ s : State, s.dev.on F.TG_UL_STS_BUSY = false ∧ s.dev.gateKeyBlank = false ∧ s.dev.mg.ulWait = 0) ∧
    (∃ s : State, s.dev.on F.TG_UL_STS_BUSY = false ∧ s.dev.gateKeyBlank = false ∧ s.dev.rd F.TG_UL_STS_STATE ≠ 1) ∧
    (∃ s : State, s.dev.on F.TG_UL_STS_BUSY = false ∧ s.dev.gateKeyBlank = false ∧ s.dev.rd F.TG_UL_STS_STATE = 1 ∧ s.dev.ulAnswer = s.dev.ulTag) ∧
    (∃ s : State, s.dev.on F.TG_UL_STS_BUSY = false ∧ s.dev.gateKeyBlank = false ∧ s.dev.rd F.TG_UL_STS_STATE = 1 ∧ s.dev.ulAnswer ≠ s.dev.ulTag) ∧
    (∃ c : Instr, ∃ s : State, ((c = .relock ∨ c = .unlockExpiry)) ∧ s.dev.ulState ≠ 2) ∧
    (∃ s : State, s.dev.mg.ulTimed = false) ∧
    (∃ c : Instr, ∃ s : State, ((c = .relock ∨ c = .unlockExpiry ∧ s.dev.mg.ulTimed = true)) ∧ s.dev.ulState = 2) ∧
    (∃ s : State, s.dev.ulState ≠ 1) ∧
    (∃ s : State, s.dev.ulState = 1) ∧
    (∃ s : State, s.dev.on F.TG_UL_STS_BUSY = false ∧ s.dev.gateKeyBlank = true) ∧
    (∃ s : State, s.dev.on F.TG_UL_STS_BUSY = false ∧ s.dev.gateKeyBlank = false) :=
  ⟨⟨.verify, sw [(F.TG_UL_STS_BUSY, 0, 1)], by decide⟩,
   ⟨.verify, sw [], by decide⟩,
   ⟨keyed [] (fun d => { d with mg := { ulWait := 5 } }), by decide⟩,
   ⟨keyed [], by decide⟩,
   ⟨keyed [], by decide⟩,
   ⟨keyed ([(F.TG_UL_STS_STATE, 0, 1)] ++ (List.range 4).map (fun j => (F.TG_UL_RESP_TAG, j, tagOf j))), by decide⟩,
   ⟨keyed [(F.TG_UL_STS_STATE, 0, 1)], by decide⟩,
   ⟨.relock, sw [], ⟨.inl rfl, by decide⟩⟩,
   ⟨sw [], by decide⟩,
   ⟨.relock, keyed [(F.TG_UL_STS_STATE, 0, 2), (F.TG_SLOT_STS_STATE, 9, 1), (F.TG_SLOT_STS_STATE, 3, 1)], ⟨.inl rfl, by decide⟩⟩,
   ⟨sw [], by decide⟩,
   ⟨keyed [(F.TG_UL_STS_STATE, 0, 1)], by decide⟩,
   ⟨sw [], by decide⟩,
   ⟨keyed [], by decide⟩⟩

/-- Every clause of TestPortInstructions applies somewhere. -/
theorem test_meets_TestPortInstructions :
    (∃ k : BitVec 8, k.toNat ∈ [0, 1, 2, 8, 9, 14, 15]) ∧
    (∃ k : BitVec 8, k.toNat ∉ [0, 1, 2, 8, 9, 14, 15]) ∧
    (∃ c : Instr, ∃ ir : Nat, ∃ by_ : Bool, ((c = .extest ∧ ir = 0 ∧ by_ = false) ∨ (c = .extestPulse ∧ ir = 8 ∧ by_ = false) ∨ (c = .extestTrain ∧ ir = 9 ∧ by_ = false) ∨ (c = .clamp ∧ ir = 14 ∧ by_ = true) ∨ (c = .highz ∧ ir = 15 ∧ by_ = true))) :=
  ⟨⟨14, by decide⟩,
   ⟨13, by decide⟩,
   ⟨.extest, 0, false, .inl ⟨rfl, rfl, rfl⟩⟩⟩

/-- Every clause of ImageReadingCommands applies somewhere. -/
theorem test_meets_ImageReadingCommands :
    (∃ s : State, ((s.dev.on F.CF_STS_LOADING = false ∨ s.dev.boot.applying = true ∨ (s.dev.boot.image ≠ 1 ∧ s.dev.boot.image ≠ 2)))) ∧
    (∃ n : Nat, ∃ rest : List Nat, ∃ s : State, s.dev.on F.CF_STS_LOADING = true ∧ s.dev.boot.applying = false ∧ ((s.dev.boot.image = 1 ∨ s.dev.boot.image = 2)) ∧ s.dev.boot.next = n :: rest) ∧
    (∃ s : State, s.dev.on F.CF_STS_LOADING = true ∧ s.dev.boot.applying = false ∧ ((s.dev.boot.image = 1 ∨ s.dev.boot.image = 2)) ∧ s.dev.boot.next = [] ∧ s.dev.on F.PW_STS_BUSY = false ∧ s.dev.rd F.PW_STS_PEND = 0) ∧
    (∃ s : State, ((s.dev.on F.CF_STS_LOADING = false ∨ s.dev.boot.applying = true ∨ s.dev.boot.image = 0))) ∧
    (∃ hb : List (BitVec 8), ∃ yb : YealmBytes, ∃ h : ImageHeader, ∃ y : Yealm, ∃ s : State, h = s.dev.boot.header.getD (readHeader (s.dev.boot.headerBytes hb)) ∧ y = readYealm (s.dev.boot.yealmBytes yb) ∧ s.dev.on F.CF_STS_LOADING = true ∧ s.dev.boot.applying = false ∧ s.dev.boot.image ≠ 0 ∧ s.dev.boot.short s.dev.boot.lead = true) ∧
    (∃ hb : List (BitVec 8), ∃ yb : YealmBytes, ∃ h : ImageHeader, ∃ y : Yealm, ∃ s : State, h = s.dev.boot.header.getD (readHeader (s.dev.boot.headerBytes hb)) ∧ y = readYealm (s.dev.boot.yealmBytes yb) ∧ s.dev.on F.CF_STS_LOADING = true ∧ s.dev.boot.applying = false ∧ s.dev.boot.image ≠ 0 ∧ s.dev.boot.short s.dev.boot.lead = false ∧ ((s.dev.boot.header = none → (headerCode h s.dev.imageRoom).1 = 0)) ∧ s.dev.boot.short (s.dev.boot.lead + yealmSize y) = true) ∧
    (∃ hb : List (BitVec 8), ∃ yb : YealmBytes, ∃ h : ImageHeader, ∃ y : Yealm, ∃ s : State, h = s.dev.boot.header.getD (readHeader (s.dev.boot.headerBytes hb)) ∧ y = readYealm (s.dev.boot.yealmBytes yb) ∧ s.dev.on F.CF_STS_LOADING = true ∧ s.dev.boot.applying = false ∧ s.dev.boot.image ≠ 0 ∧ s.dev.boot.short s.dev.boot.lead = false ∧ s.dev.boot.short (s.dev.boot.lead + yealmSize y) = false ∧ ((s.dev.boot.header = none → (headerCode h s.dev.imageRoom).1 = 0)) ∧ (yealmCode s.dev.boot.yealms y).1 = 0) ∧
    (∃ hb : List (BitVec 8), ∃ yb : YealmBytes, ∃ h : ImageHeader, ∃ y : Yealm, ∃ s : State, h = s.dev.boot.header.getD (readHeader (s.dev.boot.headerBytes hb)) ∧ y = readYealm (s.dev.boot.yealmBytes yb) ∧ s.dev.on F.CF_STS_LOADING = true ∧ s.dev.boot.applying = false ∧ s.dev.boot.image ≠ 0 ∧ s.dev.boot.next = [] ∧ s.dev.on F.PW_STS_BUSY = false ∧ s.dev.rd F.PW_STS_PEND = 0 ∧ s.dev.boot.short s.dev.boot.lead = false ∧ s.dev.boot.header = none ∧ (headerCode h s.dev.imageRoom).1 ≠ 0) ∧
    (∃ hb : List (BitVec 8), ∃ n : Nat, ∃ rest : List Nat, ∃ s : State, s.dev.on F.CF_STS_LOADING = true ∧ s.dev.boot.applying = false ∧ ((s.dev.boot.image = 1 ∨ s.dev.boot.image = 2)) ∧ s.dev.boot.next = n :: rest ∧ s.dev.boot.header = none ∧ (headerCode (readHeader hb) s.dev.imageRoom).1 ≠ 0) ∧
    (∃ yb : YealmBytes, ∃ n : Nat, ∃ rest : List Nat, ∃ s : State, ∃ g : ImageHeader, s.dev.on F.CF_STS_LOADING = true ∧ s.dev.boot.applying = false ∧ ((s.dev.boot.image = 1 ∨ s.dev.boot.image = 2)) ∧ s.dev.boot.next = n :: rest ∧ s.dev.boot.header = some g ∧ (yealmCode s.dev.boot.yealms (readYealm yb)).1 ≠ 0) ∧
    (∃ s : State, ((s.dev.boot.header = none ∨ s.dev.on F.CF_STS_LOADING = false ∨ s.dev.boot.applying = true ∨ s.dev.boot.short 256 = true))) ∧
    (∃ h : ImageHeader, ∃ n : Nat, ∃ rest : List Nat, ∃ s : State, s.dev.boot.header = some h ∧ s.dev.on F.CF_STS_LOADING = true ∧ s.dev.boot.applying = false ∧ ((s.dev.boot.image = 1 ∨ s.dev.boot.image = 2)) ∧ s.dev.boot.next = n :: rest ∧ (endCode h s.dev.boot.yealms s.dev.boot.offset).1 ≠ 0) ∧
    (∃ g : SigBytes, ∃ h : ImageHeader, ∃ n : Nat, ∃ rest : List Nat, ∃ s : State, s.dev.boot.header = some h ∧ s.dev.on F.CF_STS_LOADING = true ∧ s.dev.boot.applying = false ∧ ((s.dev.boot.image = 1 ∨ s.dev.boot.image = 2)) ∧ s.dev.boot.next = n :: rest ∧ (endCode h s.dev.boot.yealms s.dev.boot.offset).1 = 0 ∧ (s.dev.boot.sigCode (readSig g)).1 ≠ 0) ∧
    (∃ g : SigBytes, ∃ sg : SigBytes, ∃ h : ImageHeader, ∃ s : State, s.dev.boot.header = some h ∧ s.dev.on F.CF_STS_LOADING = true ∧ s.dev.boot.applying = false ∧ s.dev.boot.short 256 = false ∧ sg = (if s.dev.boot.image = 3 then { g with bytes := s.dev.boot.received.take 256 } else g) ∧ (endCode h s.dev.boot.yealms s.dev.boot.offset).1 = 0 ∧ (s.dev.boot.sigCode (readSig sg)).1 = 0 ∧ ruleBroken s.dev.boot.yealms = none ∧ ((∀ y, y ∈ s.dev.boot.yealms → ∀ z, Setting.dormer z ∉ y.settings)) ∧ s.dev.on F.PW_STS_BUSY = false ∧ s.dev.rd F.PW_STS_DEV = 1 ∧ s.dev.rd F.PW_STS_PEND = 0) ∧
    (∃ s : State, s.dev.boot.applying = false) ∧
    (∃ s : State, s.dev.boot.applying = true ∧ s.dev.boot.hand ≠ [] ∧ s.dev.on F.PW_STS_BUSY = false ∧ s.dev.rd F.PW_STS_DEV = 1 ∧ s.dev.rd F.PW_STS_PEND = 0) :=
  ⟨⟨sw [], .inl (by decide)⟩,
   ⟨2, [], loading [] [2], by decide⟩,
   ⟨loading [] [], by decide⟩,
   ⟨sw [], .inl (by decide)⟩,
   ⟨[], bareY 3, hOf [] (rcv []), yOf (bareY 3) (rcv []), rcv [], by decide⟩,
   ⟨[], bareY 3, hdr, yOf (bareY 3) rcvHdr, rcvHdr, by decide⟩,
   ⟨[], bareY 1, hdr, readYealm (bareY 1), loading [bare 3] [2], by decide⟩,
   ⟨[], bareY 3, hOf [] (loading [] []), readYealm (bareY 3), loading [] [], by decide⟩,
   ⟨[], 2, [], loading [] [2], by decide⟩,
   ⟨bareY 0x0D, 2, [], loading [bare 3] [2], hdr, by decide⟩,
   ⟨sw [], .inl (by decide)⟩,
   ⟨hdr, 2, [], loading [bare 3] [2], by decide⟩,
   ⟨sigY false, hdr, 2, [], loading [bare 3, bare 1, bare 6, bare 2] [2], by decide⟩,
   ⟨sigY true, sigY true, hdr, loading [bare 3, bare 1, bare 6, bare 2] [2], ⟨by decide, by decide, by decide, by decide, by decide, by decide, by decide, by decide +kernel, (by intro y hy z hz; rw [(by decide : ∀ y ∈ (loading [bare 3, bare 1, bare 6, bare 2] [2]).dev.boot.yealms, y.settings = []) y hy] at hz; cases hz), by decide, by decide, by decide⟩⟩,
   ⟨sw [], by decide⟩,
   ⟨sw [(F.CF_STS_LOADING, 0, 1), (F.PW_STS_DEV, 0, 1)] (fun d => d.modBoot (fun b => { b with applying := true, image := 1, hand := [(0, {})] })), by decide⟩⟩

/-- Every clause of LoadAndRecoveryCommands applies somewhere. -/
theorem test_meets_LoadAndRecoveryCommands :
    (∃ c : Instr, ∃ flash : Option FlashFound, ∃ s : State, ((c = .reload flash ∨ c = .recover)) ∧ ((s.dev.on F.CF_STS_LOADING = true ∨ s.dev.on F.CF_STS_FULL = true))) ∧
    (∃ f : FlashFound, ∃ s : State, s.dev.loadFree = true ∧ s.dev.loaderCan = true ∧ s.dev.rd F.CF_STS_BOOT_SEL < 2 ∧ flashUsable f = true) ∧
    (∃ s : State, s.dev.loadFree = true ∧ s.dev.loaderCan = true ∧ s.dev.rd F.CF_STS_BOOT_SEL < 2 ∧ s.dev.on F.PW_STS_BUSY = false ∧ s.dev.rd F.PW_STS_PEND = 0) ∧
    (∃ c : Instr, ∃ flash : Option FlashFound, ∃ s : State, ((c = .reload flash ∧ s.dev.rd F.CF_STS_BOOT_SEL ≠ 3) ∨ c = .recover) ∧ s.dev.loadFree = true ∧ s.dev.loaderCan = false ∧ s.dev.on F.PW_STS_BUSY = false ∧ s.dev.rd F.PW_STS_PEND = 0) ∧
    (∃ s : State, s.dev.loadFree = true ∧ s.dev.loaderCan = true) ∧
    (∃ s : State, s.dev.on F.CF_RCV_STS_ACTIVE = false) ∧
    (∃ s : State, s.dev.on F.CF_RCV_STS_ACTIVE = true ∧ s.dev.boot.next = [] ∧ s.dev.on F.PW_STS_BUSY = false ∧ s.dev.rd F.PW_STS_PEND = 0) ∧
    (∃ s : State, s.dev.on F.CF_RCV_STS_ACTIVE = false) ∧
    (∃ s : State, s.dev.on F.CF_RCV_STS_ACTIVE = true ∧ s.dev.boot.rcv.length < 1024) ∧
    (∃ s : State, s.dev.on F.CF_RCV_STS_ACTIVE = true ∧ 1024 ≤ s.dev.boot.rcv.length ∧ s.dev.boot.next = [] ∧ s.dev.on F.PW_STS_BUSY = false ∧ s.dev.rd F.PW_STS_PEND = 0) :=
  ⟨⟨.recover, none, sw [(F.CF_STS_FULL, 0, 1)], by decide⟩,
   ⟨{ mode := 1, freq := 0, density := 26 }, sw [up 74, up 75], by decide⟩,
   ⟨sw [up 74, up 75], by decide⟩,
   ⟨.recover, none, sw [], ⟨.inr rfl, by decide, by decide, by decide, by decide⟩⟩,
   ⟨sw [up 74, up 75], by decide⟩,
   ⟨sw [], by decide⟩,
   ⟨rcv [], by decide⟩,
   ⟨sw [], by decide⟩,
   ⟨rcv [1, 2], by decide⟩,
   ⟨rcv (List.replicate 1024 0), by decide⟩⟩

/-- Every clause of KeyCommands applies somewhere. -/
theorem test_meets_KeyCommands :
    (∃ k : Fin 4, ∃ c : Instr, ∃ op : Nat, ∃ s : State, ((c = .keyprog k ∧ op = 3 ∨ c = .keyrevoke k ∧ op = 4)) ∧ s.dev.ulState ≠ 2) ∧
    (∃ k : Fin 4, ∃ c : Instr, ∃ op : Nat, ∃ s : State, ((c = .keyprog k ∧ op = 3 ∨ c = .keyrevoke k ∧ op = 4)) ∧ s.dev.ulState = 2 ∧ ((s.dev.on F.CF_CMDSTS_BUSY = true ∨ s.dev.domOn rowC = false))) ∧
    (∃ k : Fin 4, ∃ c : Instr, ∃ op : Nat, ∃ s : State, ((c = .keyprog k ∧ op = 3 ∨ c = .keyrevoke k ∧ op = 4)) ∧ s.dev.ulState = 2 ∧ s.dev.on F.CF_CMDSTS_BUSY = false ∧ s.dev.domOn rowC = true ∧ op = 3 ∧ (((s.dev.fuse.imgKeys.find? k).isSome = true ∨ bit s.dev.fuse.imgRevoked k = true))) ∧
    (∃ k : Fin 4, ∃ c : Instr, ∃ op : Nat, ∃ s : State, ((c = .keyprog k ∧ op = 3 ∨ c = .keyrevoke k ∧ op = 4)) ∧ s.dev.ulState = 2 ∧ s.dev.on F.CF_CMDSTS_BUSY = false ∧ s.dev.domOn rowC = true ∧ ((op = 4 ∨ (s.dev.fuse.imgKeys.find? k = none ∧ bit s.dev.fuse.imgRevoked k = false)))) ∧
    (∃ s : State, s.dev.boot.key = none ∧ s.dev.mg.gkey = false) ∧
    (∃ op : Nat, ∃ slot : Nat, ∃ hash : Nat, ∃ s : State, s.dev.boot.key = some (op, slot, hash) ∧ s.dev.mg.gkey = false) ∧
    (∃ s : State, s.dev.boot.key = none ∧ s.dev.mg.gkey = true) :=
  ⟨⟨1, .keyprog 1, 3, sw [], by decide⟩,
   ⟨1, .keyprog 1, 3, keyed [(F.TG_UL_STS_STATE, 0, 2)], by decide⟩,
   ⟨1, .keyprog 1, 3, keyed [(F.TG_UL_STS_STATE, 0, 2), up 75] (fun d => { d with fuse := { d.fuse with imgRevoked := 2 } }), by decide⟩,
   ⟨1, .keyrevoke 1, 4, keyed [(F.TG_UL_STS_STATE, 0, 2), up 75], by decide⟩,
   ⟨sw [], by decide⟩,
   ⟨3, 1, 77, sw [up 75, (F.CF_CMDSTS_BUSY, 0, 1)] (fun d => d.modBoot (fun b => { b with key := some (3, 1, 77) })), by decide⟩,
   ⟨sw [up 75, (F.TG_UL_GKEY_KEY, 0, 5), (F.TG_UL_STS_BUSY, 0, 1)] (fun d => { d with mg := { gkey := true } }), by decide⟩⟩

/-- Every clause of PrivateTransfers applies somewhere. -/
theorem test_meets_PrivateTransfers :
    (∃ c : Instr, ∃ i3c : Bool, ∃ bs : List BusByte, ∃ full : List Nat, ∃ co : List Nat, ∃ fl : Option FlashFound, ∃ seen : List EccSeen, ∃ w : Nat, ∃ r : Nat, ∃ s : State, c ∈ [Instr.privateWrite i3c bs full fl seen, .privateRead i3c w r co seen] ∧ ((s.dev.pw.good = false ∨ (i3c = false ∧ s.dev.on F.MG_BUS_I3C = true)))) ∧
    (∃ i3c : Bool, ∃ a : Byte, ∃ b : Byte, ∃ c : Byte, ∃ d0 : Byte, ∃ d1 : Byte, ∃ d2 : Byte, ∃ d3 : Byte, ∃ fl : Option FlashFound, ∃ seen : List EccSeen, ∃ A : Nat, ∃ W : BitVec 32, ∃ s : State, ∃ s1 : State, ∃ t : State, s.dev.answers i3c = true ∧ 7 ≤ s.dev.rd F.MG_BUS_MWL ∧ c.toNat % 4 = 0 ∧ A = a.toNat * 65536 + b.toNat * 256 + c.toNat ∧ W.toNat = natLE [d0, d1, d2, d3] ∧ s1 = { s with dev := { s.dev.addressMatch with mg := { s.dev.addressMatch.mg with nack := false, curAddr := A } } } ∧ exec (.registerWrite (BitVec.ofNat 24 A) W fl seen) s1 = .next t) ∧
    (∃ rest : List BusByte, ∃ s : State, s.dev.pw.good = true ∧ s.dev.awake = true ∧ rest.length + 1 ≤ s.dev.rd F.MG_BUS_MWL) ∧
    (∃ i3c : Bool, ∃ a : Byte, ∃ b : Byte, ∃ c : Byte, ∃ d0 : Byte, ∃ d1 : Byte, ∃ d2 : Byte, ∃ d3 : Byte, ∃ extra : List BusByte, ∃ fl : Option FlashFound, ∃ seen : List EccSeen, ∃ A : Nat, ∃ W : BitVec 32, ∃ d : Dev, ∃ s : State, ∃ s1 : State, ∃ t : State, s.dev.answers i3c = true ∧ s.dev.rd F.MG_BUS_MWL = 7 ∧ extra ≠ [] ∧ c.toNat % 4 = 0 ∧ A = a.toNat * 65536 + b.toNat * 256 + c.toNat ∧ W.toNat = natLE [d0, d1, d2, d3] ∧ d = s.dev.addressMatch.busSts F.MG_BUSSTS_MWLOVF ∧ s1 = { s with dev := { d with mg := { d.mg with nack := ! i3c, curAddr := A } } } ∧ exec (.registerWrite (BitVec.ofNat 24 A) W fl seen) s1 = .next t) ∧
    (∃ i3c : Bool, ∃ r : Reg, ∃ i : Nat, ∃ s : State, s.dev.answers i3c = true ∧ s.dev.awake = true ∧ s.dev.regAt s.dev.mg.curAddr = some (r, i) ∧ s.dev.served (regDomain r i) = true ∧ (r.fields.all (fun f => decide (f.acc ≠ .RC)) = true) ∧ r ≠ .TG_SLOT_STS) ∧
    (∃ w : Nat, ∃ s : State, s.dev.pw.good = true ∧ s.dev.awake = true ∧ 0 < w) :=
  ⟨⟨.privateRead false 1 1 [] [], false, [], [], [], none, [], 1, 1, raw [], by decide⟩,
   ⟨true, 0, 0, 0x20, 1, 0, 0, 0, none, [], 0x20, 1, live [(F.PW_STS_DEV, 0, 1)], busState, next (.registerWrite (BitVec.ofNat 24 0x20) 1 none []) busState, ⟨by decide, by decide, by decide, by decide, by decide, rfl, rfl⟩⟩,
   ⟨[], live [(F.PW_STS_DEV, 0, 1)], by decide⟩,
   ⟨true, 0, 0, 0x20, 1, 0, 0, 0, [{ val := 9, parityOk := true }], none, [], 0x20, 1, ovfDev, live [(F.PW_STS_DEV, 0, 1), (F.MG_BUS_MWL, 0, 7)], ovfState, next (.registerWrite (BitVec.ofNat 24 0x20) 1 none []) ovfState, ⟨by decide, by decide, by decide, by decide, by decide, by decide, rfl, rfl, rfl⟩⟩,
   ⟨true, .MG_SCRATCH, 0, live [(F.PW_STS_DEV, 0, 1)] (fun d => { d with mg := { curAddr := 0x10 } }), by decide⟩,
   ⟨3, live [(F.PW_STS_DEV, 0, 1)], by decide⟩⟩

/-- Every clause of CommonCommandCodes applies somewhere. -/
theorem test_meets_CommonCommandCodes :
    (∃ c : Instr, ∃ dir : Bool, ∃ ei : Bool, ∃ n : BitVec 16, ∃ sa : BitVec 7, ∃ da : BitVec 7, ∃ ac : BitVec 8, ∃ s : State, s.dev.pw.good = false ∧ c ∈ [Instr.enec dir ei, .disec dir ei, .rstdaa, .entdaa da, .setmwl dir n, .setdasa sa da, .getmwl, .getpid, .getbcr, .getdcr, .getstatus, .rstact dir ac, .targetResetPattern]) ∧
    (∃ dir : Bool, ∃ s : State, s.dev.pw.good = true ∧ ((dir = true → s.dev.awake = true))) ∧
    (∃ dir : Bool, ∃ s : State, s.dev.pw.good = true ∧ ((dir = true → s.dev.awake = true))) ∧
    (∃ dir : Bool, ∃ s : State, s.dev.pw.good = true ∧ ((dir = true → s.dev.awake = true))) ∧
    (∃ dir : Bool, ∃ s : State, s.dev.pw.good = true ∧ ((dir = true → s.dev.awake = true))) ∧
    (∃ dir : Bool, ∃ s : State, s.dev.pw.good = true ∧ ((dir = true → s.dev.awake = true))) ∧
    (∃ dir : Bool, ∃ s : State, s.dev.pw.good = true ∧ ((dir = true → s.dev.awake = true))) ∧
    (∃ s : State, s.dev.pw.good = true) ∧
    (∃ s : State, s.dev.pw.good = true ∧ s.dev.on F.MG_BUS_I3C = true) ∧
    (∃ s : State, s.dev.pw.good = true ∧ s.dev.on F.MG_BUS_I3C = false) ∧
    (∃ sa : BitVec 7, ∃ s : State, ((s.dev.on F.MG_BUS_I3C = true ∨ sa.toNat ≠ s.dev.rd F.MG_BUS_SA))) ∧
    (∃ sa : BitVec 7, ∃ s : State, s.dev.pw.good = true ∧ s.dev.awake = true ∧ s.dev.on F.MG_BUS_I3C = false ∧ sa.toNat = s.dev.rd F.MG_BUS_SA) ∧
    (∃ c : Instr, ∃ l : List Byte, ∃ s : State, s.dev.pw.good = true ∧ s.dev.awake = true ∧ ((c = .getmwl ∧ l = bytesBE (s.dev.rd F.MG_BUS_MWL) 2 ∨ c = .getbcr ∧ l = [0x06] ∨ c = .getdcr ∧ l = [0x00] ∨ c = .getpid ∧ l = bytesBE (s.dev.rd F.MG_MFR_MIPI * 2 ^ 33 + 0x6408 * 2 ^ 16 + s.dev.rd F.CF_STS_ADDR_SEL * 2 ^ 12 + s.dev.rd F.MG_ID_REV) 6))) ∧
    (∃ s : State, s.dev.pw.good = true ∧ s.dev.awake = true) ∧
    (∃ c : Instr, ∃ s : State, c ∈ [Instr.getmwl, .getpid, .getbcr, .getdcr] ∧ s.dev.restful ∧ s.dev.on F.PW_WAKEEN_ADDR = true ∧ 2 ≤ s.dev.rd F.PW_STS_DEV ∧ s.dev.rd F.PW_STS_DEV ≤ 5) :=
  ⟨⟨.getpid, false, false, 0, 0, 0, 0, raw [], by decide⟩,
   ⟨true, live [(F.PW_STS_DEV, 0, 1)], by decide⟩,
   ⟨true, live [(F.PW_STS_DEV, 0, 1)], by decide⟩,
   ⟨true, live [(F.PW_STS_DEV, 0, 1)], by decide⟩,
   ⟨true, live [(F.PW_STS_DEV, 0, 1)], by decide⟩,
   ⟨true, live [(F.PW_STS_DEV, 0, 1)], by decide⟩,
   ⟨true, live [(F.PW_STS_DEV, 0, 1)], by decide⟩,
   ⟨live [(F.PW_STS_DEV, 0, 1), (F.MG_BUS_I3C, 0, 1)], by decide⟩,
   ⟨live [(F.PW_STS_DEV, 0, 1), (F.MG_BUS_I3C, 0, 1)], by decide⟩,
   ⟨live [(F.PW_STS_DEV, 0, 1)], by decide⟩,
   ⟨9, live [(F.PW_STS_DEV, 0, 1), (F.MG_BUS_I3C, 0, 1)], by decide⟩,
   ⟨0x40, live [(F.PW_STS_DEV, 0, 1), (F.MG_BUS_SA, 0, 0x40)], by decide⟩,
   ⟨.getbcr, [0x06], live [(F.PW_STS_DEV, 0, 1)], ⟨by decide, by decide, .inr (.inl ⟨rfl, rfl⟩)⟩⟩,
   ⟨live [(F.PW_STS_DEV, 0, 1), (F.MG_BUSSTS_PARITY, 0, 1)], by decide⟩,
   ⟨.getbcr, live [(F.PW_WAKEEN_ADDR, 0, 1), (F.PW_STS_DEV, 0, 2)], by unfold Dev.restful; decide⟩⟩

/-- Every clause of BusResetsAndInterrupts applies somewhere. -/
theorem test_meets_BusResetsAndInterrupts :
    (∃ s : State, s.dev.pw.good = true ∧ s.dev.mg.rstact = 1) ∧
    (∃ s : State, s.dev.pw.good = true ∧ s.dev.mg.rstact = 0) ∧
    (∃ c : Instr, ∃ s : State, ((c = .resetNLow ∨ c = .targetResetPattern ∧ s.dev.pw.good = true ∧ s.dev.mg.rstact = 2)) ∧ s.dev.on F.MT_STS_WIPING = false) ∧
    (∃ c : Instr, ∃ s : State, ((c = .resetNLow ∨ c = .targetResetPattern ∧ s.dev.pw.good = true ∧ s.dev.mg.rstact = 2)) ∧ s.dev.on F.MT_STS_WIPING = true) ∧
    (∃ s : State, ((s.dev.mg.ibi = 0 ∨ s.dev.on F.MG_BUS_ENINT = false ∨ s.dev.on F.MG_BUS_I3C = false))) ∧
    (∃ s : State, s.dev.mg.ibi ≠ 0 ∧ s.dev.on F.MG_BUS_ENINT = true ∧ s.dev.on F.MG_BUS_I3C = true) :=
  ⟨⟨live [(F.PW_STS_DEV, 0, 1)], by decide⟩,
   ⟨live [(F.PW_STS_DEV, 0, 1)] (fun d => { d with mg := { rstact := 0 } }), by decide⟩,
   ⟨.resetNLow, live [up 10], ⟨.inl rfl, by decide⟩⟩,
   ⟨.resetNLow, live [(F.MT_STS_WIPING, 0, 1)], ⟨.inl rfl, by decide⟩⟩,
   ⟨live [(F.PW_STS_DEV, 0, 1)], .inl (by decide)⟩,
   ⟨live [(F.PW_STS_DEV, 0, 1), (F.MG_BUS_ENINT, 0, 1), (F.MG_BUS_I3C, 0, 1)] (fun d => { d with mg := { ibi := 6 } }), by decide⟩⟩

/-- Every clause of ReservedBitsReadZero applies somewhere. -/
theorem test_meets_ReservedBitsReadZero :
    (∃ a : BitVec 24, ∃ r : Reg, ∃ i : Nat, ∃ s : State, s.dev.regAt (a.toNat / 4 * 4) = some (r, i)) :=
  ⟨0x20, .MG_ALERT, 0, live [], by decide⟩

/-- Every clause of IgnoredWrites applies somewhere. -/
theorem test_meets_IgnoredWrites :
    (∃ a : BitVec 24, ∃ r : Reg, ∃ i : Nat, ∃ s : State, s.dev.regAt (a.toNat / 4 * 4) = some (r, i) ∧ (r.fields.all (fun f => decide (f.acc = .RO ∨ f.acc = .RC)) = true)) ∧
    (∃ a : BitVec 24, ∃ r : Reg, ∃ i : Nat, ∃ s : State, s.dev.regAt (a.toNat / 4 * 4) = some (r, i) ∧ s.dev.served (regDomain r i) = true ∧ r ∈ [Reg.MG_FAULT_ID, .MG_BUSSTS, .PW_STS, .PW_HELD, .CF_STS, .ST_MSTS, .ST_MFAIL_ADDR, .ST_LSTS, .CL_STS, .UD_FAULT, .LN_PLL_STS, .LN_STS, .LN_PT_STS, .TB_STS, .FB_STS, .MT_STS, .MT_WINSTS, .MT_ECCLOG_ADDR, .MT_COLLIDE, .MT_POISON, .MT_CTL, .PU_PTSEL, .TSU_CTL]) :=
  ⟨⟨0x0, .MG_ID, 0, live [], by decide⟩,
   ⟨0x35, .MG_BUSSTS, 0, live [], by decide⟩⟩

/-- Every clause of AccessesToDomainsNotOn applies somewhere. -/
theorem test_meets_AccessesToDomainsNotOn :
    (∃ a : BitVec 24, ∃ r : Reg, ∃ i : Nat, ∃ s : State, s.dev.pw.good = true ∧ s.dev.regAt (a.toNat / 4 * 4) = some (r, i) ∧ regDomain r i ≠ 0 ∧ s.dev.domOn (regDomain r i) = false) ∧
    (∃ a : BitVec 24, ∃ r : Reg, ∃ i : Nat, ∃ s : State, s.dev.pw.good = true ∧ s.dev.regAt (a.toNat / 4 * 4) = some (r, i) ∧ regDomain r i ≠ 0 ∧ s.dev.domOn (regDomain r i) = false) ∧
    (∃ r : Reg, r.block ∈ [Block.mg, .pw, .cf, .tg, .sn, .cl, .ud, .cs]) ∧
    (∃ a : BitVec 24, ∃ r : Reg, ∃ i : Nat, ∃ s : State, s.dev.pw.good = true ∧ s.dev.regAt (a.toNat / 4 * 4) = some (r, i) ∧ regDomain r i = 0) :=
  ⟨⟨0x101000, .LN_STS, 0, live [], by decide⟩,
   ⟨0x101000, .LN_STS, 0, live [], by decide⟩,
   ⟨.MG_ID, by decide⟩,
   ⟨0x20, .MG_ALERT, 0, live [], by decide⟩⟩

/-- Every clause of RegisterAccesses applies somewhere. -/
theorem test_meets_RegisterAccesses :
    (∃ a : BitVec 24, ∃ r : Reg, ∃ i : Nat, ∃ s : State, s.dev.pw.good = true ∧ s.dev.regAt (a.toNat / 4 * 4) = some (r, i) ∧ s.dev.served (regDomain r i) = true ∧ r ∈ [Reg.MG_SCRATCH, .PW_HOLDREP, .PW_WAKEEN, .PW_NAPSET, .CF_KEYH, .TG_UL_REQ, .TG_ADDR, .TG_DATA, .TG_MASK, .SN_CTL, .SN_SRCEN, .SN_MATCH_S_LO, .SN_MATCH_S_HI, .SN_MATCH_NS, .SN_LOLMASK, .SN_SEL, .ST_MSTART, .ST_MEND, .CL_RES, .CL_PDT_SEL, .LN_IDLE_TQ, .LN_RX_FFE_SEL, .TSU_CTL, .TS_SERVO, .TS_PPS_IN, .TS_OUT_CTL, .TS_PPS_OFS, .TS_CLKOUT_CTL, .TS_CLKOUT_FREQ, .TS_CLS_KEY, .TS_CLS_ACT, .TS_IE_CTL, .MT_WINBASE, .PU_PTSEL]) ∧
    (∃ s : State, s.dev.pw.good = true) ∧
    (∃ a : BitVec 24, ∃ s : State, s.dev.pw.good = true ∧ inWindowSpace (a.toNat / 4 * 4) = false ∧ blockAt (a.toNat / 4 * 4) = none) ∧
    (∃ a : BitVec 24, ∃ s : State, s.dev.pw.good = true ∧ inWindowSpace (a.toNat / 4 * 4) = false ∧ blockAt (a.toNat / 4 * 4) = none) ∧
    (∃ a : BitVec 24, ∃ s : State, (blockAt (a.toNat / 4 * 4)).isSome = true ∧ s.dev.regAt (a.toNat / 4 * 4) = none ∧ s.dev.served (blockDomain (a.toNat / 4 * 4)) = true) ∧
    (∃ a : BitVec 24, ∃ s : State, (blockAt (a.toNat / 4 * 4)).isSome = true ∧ s.dev.regAt (a.toNat / 4 * 4) = none ∧ s.dev.served (blockDomain (a.toNat / 4 * 4)) = true) ∧
    (∃ a : BitVec 24, ∃ r : Reg, ∃ i : Nat, ∃ s : State, s.dev.pw.good = true ∧ s.dev.regAt (a.toNat / 4 * 4) = some (r, i) ∧ s.dev.served (regDomain r i) = true ∧ r ≠ .TG_SLOT_STS) ∧
    (∃ a : BitVec 24, ∃ i : Nat, ∃ s : State, s.dev.pw.good = true ∧ s.dev.regAt (a.toNat / 4 * 4) = some (.TG_SLOT_STS, i) ∧ s.dev.rd F.TG_SLOT_STS_STATE i = 3) :=
  ⟨⟨0x10, .MG_SCRATCH, 0, live [], by decide⟩,
   ⟨live [], by decide⟩,
   ⟨0xF00000, live [], by decide⟩,
   ⟨0xF00000, live [], by decide⟩,
   ⟨0xFF0, live [], by decide⟩,
   ⟨0xFF0, live [], by decide⟩,
   ⟨0x20, .MG_ALERT, 0, live [], by decide⟩,
   ⟨0x3040, 0, live [(F.TG_SLOT_STS_STATE, 0, 3)], by decide⟩⟩

/-- Every clause of CommandRegisters applies somewhere. -/
theorem test_meets_CommandRegisters :
    (∃ w : BitVec 32, ∃ s : State, s.dev.pw.good = true ∧ bits w.toNat 0 3 = 1) ∧
    (∃ w : BitVec 32, ∃ s : State, s.dev.pw.good = true ∧ bits w.toNat 0 3 = 1) ∧
    (∃ w : BitVec 32, ∃ s : State, s.dev.pw.good = true ∧ bits w.toNat 0 3 = 1) ∧
    (∃ w : BitVec 32, ∃ s : State, s.dev.pw.good = true ∧ bits w.toNat 0 3 = 2) ∧
    (∃ w : BitVec 32, ∃ s : State, s.dev.pw.good = true ∧ bits w.toNat 0 3 = 2) ∧
    (∃ w : BitVec 32, ∃ s : State, s.dev.pw.good = true ∧ bits w.toNat 0 3 = 3) ∧
    (∃ w : BitVec 32, ∃ s : State, s.dev.pw.good = true ∧ bits w.toNat 0 3 = 4) ∧
    (∃ w : BitVec 32, ∃ s : State, s.dev.pw.good = true ∧ bits w.toNat 0 3 = 4) ∧
    (∃ w : BitVec 32, ∃ s : State, s.dev.pw.good = true ∧ bits w.toNat 0 3 = 5) ∧
    (∃ w : BitVec 32, ∃ s : State, s.dev.pw.good = true ∧ bits w.toNat 0 1 = 1) ∧
    (∃ w : BitVec 32, ∃ s : State, s.dev.pw.good = true ∧ bits w.toNat 0 1 = 1) :=
  ⟨⟨1, live [], by decide⟩,
   ⟨1, live [], by decide⟩,
   ⟨1, live [], by decide⟩,
   ⟨2, live [], by decide⟩,
   ⟨2, live [], by decide⟩,
   ⟨3, live [], by decide⟩,
   ⟨4, live [], by decide⟩,
   ⟨4, live [], by decide⟩,
   ⟨5, live [], by decide⟩,
   ⟨1, live [], by decide⟩,
   ⟨1, live [], by decide⟩⟩

end Sys2Proof.Tests
end

section
/-! Host accesses to a register: which rule of RegAccess.lean an access comes under, what a word shows of its register's fields, and
what a write of a register without a rule of its own leaves alone. -/
namespace Sys2Proof.Machine

/-! ## Which rule an access comes under -/

theorem blockAt_of_inWindowSpace (a : Nat) (h : inWindowSpace a = true) : blockAt a = none := by
  simp only [inWindowSpace, decide_eq_true_eq] at h
  unfold blockAt
  iterate 17 rw [if_neg (by omega)]

theorem inWindowSpace_of_regAt (d : Dev) (a : Nat) (x : Reg × Nat) (h : d.regAt a = some x) : inWindowSpace a = false := by
  cases hw : inWindowSpace a with
  | false => rfl
  | true =>
    rw [Dev.regAt, blockAt_of_inWindowSpace a hw] at h
    cases h

/-- A host write that meets a register: nothing without power, else the register's rule, or OFFACC alone where its domain is not On. -/
theorem hostWrite_of_regAt (s : State) (a w : Nat) (fl : Option FlashFound) (seen : List EccSeen) (r : Reg) (i : Nat)
    (h : s.dev.regAt a = some (r, i)) :
    s.hostWrite a w fl seen =
      if s.dev.pw.good = false then s
      else if s.dev.served (regDomain r i) then s.regWrite r i w fl seen else s.on Dev.offAcc := by
  simp [State.hostWrite, inWindowSpace_of_regAt _ _ _ h, h]

/-- A host read that meets a register returns the register's word, or 0 without power or where its domain is not On. -/
theorem hostRead_of_regAt (s : State) (a : Nat) (coin : Bool) (seen : EccSeen) (r : Reg) (i : Nat) (h : s.dev.regAt a = some (r, i)) :
    (s.hostRead a coin seen).2 = if s.dev.pw.good = true ∧ s.dev.served (regDomain r i) = true then s.dev.word r i else 0 := by
  cases hg : s.dev.pw.good <;> cases hs : s.dev.served (regDomain r i) <;>
    simp [State.hostRead, inWindowSpace_of_regAt _ _ _ h, h, hg, hs]

/-! ## The word of a register -/

theorem bit_eq_testBit (v b : Nat) : bit v b = v.testBit b := by
  simp [bit, bits, Nat.testBit_eq_decide_div_mod_eq]

/-- The fields stand in rising order from bit `k` up, none over another, and end within 32 bits. -/
def LaidOut (k : Nat) : List Fld → Bool
  | [] => decide (k ≤ 32)
  | f :: fs => decide (k ≤ f.lo) && LaidOut (f.lo + f.w) fs

theorem fields_laidOut (r : Reg) : LaidOut 0 r.fields = true := by cases r <;> decide

/-- Adding a field's bits above the end of a word changes no bit outside the field. -/
theorem bit_add_field (a lo w x : Nat) (ha : a < 2 ^ lo) :
    a + x % 2 ^ w * 2 ^ lo < 2 ^ (lo + w) ∧ ∀ b, b < lo ∨ lo + w ≤ b → bit (a + x % 2 ^ w * 2 ^ lo) b = bit a b := by
  have hx : x % 2 ^ w < 2 ^ w := Nat.mod_lt _ (Nat.two_pow_pos w)
  rw [Nat.add_comm a, Nat.mul_comm]
  have hlt : 2 ^ lo * (x % 2 ^ w) + a < 2 ^ (lo + w) := by
    rw [Nat.pow_add]
    calc 2 ^ lo * (x % 2 ^ w) + a < 2 ^ lo * (x % 2 ^ w + 1) := by rw [Nat.mul_succ]; omega
      _ ≤ 2 ^ lo * 2 ^ w := Nat.mul_le_mul_left _ hx
  refine ⟨hlt, fun b hb => ?_⟩
  rw [bit_eq_testBit, bit_eq_testBit]
  rcases hb with hb | hb
  · rw [Nat.testBit_two_pow_mul_add _ ha, if_pos hb]
  · rw [Nat.testBit_lt_two_pow (Nat.lt_of_lt_of_le hlt (Nat.pow_le_pow_right (by omega) hb)),
      Nat.testBit_lt_two_pow (Nat.lt_of_lt_of_le ha (Nat.pow_le_pow_right (by omega) (by omega)))]

/-- The fold of `Dev.word`, on a word that ends below the fields left: it stays within 32 bits, and no bit outside those fields changes. -/
theorem word_foldl_of_laidOut (v : Fld → Nat) (fs : List Fld) (k a : Nat) (hl : LaidOut k fs = true) (ha : a < 2 ^ k) :
    fs.foldl (fun a f => if f.acc = .WO then a else a + v f % 2 ^ f.w * 2 ^ f.lo) a < 2 ^ 32 ∧
    ∀ b, (∀ f, f ∈ fs → b < f.lo ∨ f.lo + f.w ≤ b) →
      bit (fs.foldl (fun a f => if f.acc = .WO then a else a + v f % 2 ^ f.w * 2 ^ f.lo) a) b = bit a b := by
  induction fs generalizing k a with
  | nil => exact ⟨Nat.lt_of_lt_of_le ha (Nat.pow_le_pow_right (by omega) (by simpa [LaidOut] using hl)), fun _ _ => rfl⟩
  | cons f fs ih =>
    simp only [LaidOut, Bool.and_eq_true, decide_eq_true_eq] at hl
    obtain ⟨hk, hfs⟩ := hl
    have hlo : a < 2 ^ f.lo := Nat.lt_of_lt_of_le ha (Nat.pow_le_pow_right (by omega) hk)
    have hend : a < 2 ^ (f.lo + f.w) := Nat.lt_of_lt_of_le hlo (Nat.pow_le_pow_right (by omega) (by omega))
    obtain ⟨hsum, hsame⟩ := bit_add_field a f.lo f.w (v f) hlo
    rw [List.foldl_cons]
    split
    · obtain ⟨hlt, hbit⟩ := ih _ a hfs hend
      exact ⟨hlt, fun b hb => hbit b (fun g hg => hb g (List.mem_cons_of_mem _ hg))⟩
    · obtain ⟨hlt, hbit⟩ := ih _ _ hfs hsum
      exact ⟨hlt, fun b hb => (hbit b (fun g hg => hb g (List.mem_cons_of_mem _ hg))).trans (hsame b (hb f (List.mem_cons_self ..)))⟩

/-- A register's word has 32 bits, and 0 where no field stands. -/
theorem word_reserved (d : Dev) (r : Reg) (i : Nat) :
    d.word r i < 2 ^ 32 ∧ ∀ b, (∀ f, f ∈ r.fields → b < f.lo ∨ f.lo + f.w ≤ b) → bit (d.word r i) b = false := by
  obtain ⟨hlt, hbit⟩ := word_foldl_of_laidOut (fun f => d.fieldNow f i) r.fields 0 0 (fields_laidOut r) (by decide)
  exact ⟨hlt, fun b hb => (hbit b hb).trans (by simp [bit_eq_testBit])⟩

/-- Settles O48: the word that a read returns is the register's, or 0, and the fields of every register stand apart within 32 bits. -/
theorem reservedBitsReadZero : Obligations.ReservedBitsReadZero := by
  unfold Obligations.ReservedBitsReadZero
  intro a coin seen r i s hr
  refine ⟨_, _, rfl, rfl, ?_⟩
  rw [hostRead_of_regAt s _ coin seen r i hr]
  split
  · obtain ⟨hlt, hbit⟩ := word_reserved s.dev r i
    exact ⟨hlt, fun b _ hb => hbit b hb⟩
  · exact ⟨by decide, fun b _ _ => by simp [bit_eq_testBit]⟩

/-! ## Writes of registers without a rule of their own -/

/-- No rule but that of the access codes RW and W1C says what a word written to the register does. -/
def Reg.byFields (r : Reg) : Bool :=
  match r with
  | .DM_SEL | .ST_MREP_CMD | .PW_CTL | .PW_PADREL | .CF_CMD | .CF_RCV_DATA | .TG_CMD | .TG_UL_CMD | .TG_UL_RESP | .TG_UL_GKEY
  | .SN_FIRE | .SN_ARMALL | .SN_BSLOT | .UD_SNAP | .ST_MCMD | .ST_LCMD | .CL_CMD | .TB_CMD | .TS_CLS_CMD | .FB_PGCMD
  | .MG_ALERTEN | .PW_ACTSET | .PW_HVOTE | .PW_DOM | .PW_ETIM_CNT | .LN_CTL | .LN_TX_FFE | .LN_RX_EQ | .LN_RX_DFE
  | .LN_RX_FFE_DATA | .LN_PT_CTL | .TB_CTL | .TS_CTL | .TS_HOLD_CFG | .TS_LREF_CTL | .FB_PACE
  | .TB_ADJ | .TB_SET_S_LO | .TB_SET_S_HI | .TB_SET_NS | .TB_STEP_NS | .TB_STEP_FRAC => false
  | _ => true

theorem tbRegOf_of_byFields (r : Reg) (h : r.byFields = true) : tbRegOf r = none := by
  revert h; cases r <;> decide

theorem rwWrite_of_byFields (d : Dev) (r : Reg) (i w : Nat) (h : r.byFields = true) : d.rwWrite r i w = d.rwFields r i w := by
  unfold Dev.rwWrite
  split
  case h_17 => rw [tbRegOf_of_byFields r h]
  all_goals exact absurd h (by decide)

/-- The write of a register without a rule of its own: its RW fields take the word's bits, its W1C bits are cleared by 1s. -/
theorem regWrite_of_byFields (s : State) (r : Reg) (i w : Nat) (fl : Option FlashFound) (seen : List EccSeen) (h : r.byFields = true) :
    s.regWrite r i w fl seen = s.on (fun d => (d.rwFields r i w).w1cWrite r i w) := by
  unfold State.regWrite
  split
  case h_21 => simp only [Dev.fieldWrite, rwWrite_of_byFields _ r i w h]
  all_goals exact absurd h (by decide)

theorem Reg.byFields_of_readOnly (r : Reg) (h : r.fields.all (fun f => decide (f.acc = .RO ∨ f.acc = .RC)) = true) : r.byFields = true := by
  revert h; cases r <;> decide

/-- A field that is neither an RW nor a W1C field of the register reads as before. -/
theorem rd_fieldWrite (d : Dev) (r : Reg) (i w : Nat) (g : Fld) (j : Nat)
    (hg : ∀ f ∈ r.fields, f.acc = .RW ∨ f.acc = .W1C → g.key j ≠ f.key i) :
    ((d.rwFields r i w).w1cWrite r i w).rd g j = d.rd g j := by
  have hrw : (d.rwFields r i w).rd g j = d.rd g j := by
    refine List.foldlRecOn (motive := fun e : Dev => e.rd g j = d.rd g j) _ _ rfl (fun e he f hf => ?_)
    obtain ⟨hmem, hacc⟩ := List.mem_filter.mp hf
    exact (Dev.rd_wr_ne e f g i j _ (hg f hmem (.inl (of_decide_eq_true hacc)))).trans he
  refine List.foldlRecOn (motive := fun e : Dev => e.rd g j = d.rd g j) _ _ hrw (fun e he f hf => ?_)
  obtain ⟨hmem, hacc⟩ := List.mem_filter.mp hf
  dsimp only
  split
  · exact he
  · exact (Dev.rd_wr_ne e f g i j _ (hg f hmem (.inr (of_decide_eq_true hacc)))).trans he

/-- With neither an RW nor a W1C field, a register takes nothing of the word. -/
theorem fieldWrite_of_readOnly (d : Dev) (r : Reg) (i w : Nat) (h : ∀ f ∈ r.fields, f.acc = .RO ∨ f.acc = .RC) :
    (d.rwFields r i w).w1cWrite r i w = d := by
  have hnone (c : Acc) (hRO : c ≠ .RO) (hRC : c ≠ .RC) : r.fields.filter (fun f => decide (f.acc = c)) = [] :=
    List.filter_eq_nil_iff.mpr (fun f hf hc => by
      have hc : f.acc = c := of_decide_eq_true hc
      rcases h f hf with he | he
      · exact hRO (hc.symm.trans he)
      · exact hRC (hc.symm.trans he))
  simp [Dev.rwFields, Dev.w1cWrite, hnone .RW (by decide) (by decide), hnone .W1C (by decide) (by decide)]

/-- The first bit tells a register's fields apart. -/
theorem fields_lo_inj (r : Reg) : ∀ f ∈ r.fields, ∀ g ∈ r.fields, f.lo = g.lo → f = g := by cases r <;> decide

/-- An access to a domain that is not On shows in PW_STS.OFFACC and in no other field. -/
theorem rd_offAcc_of_ne (d : Dev) (f : Fld) (i : Nat) (h : f.key i ≠ F.PW_STS_OFFACC.key 0) : d.offAcc.rd f i = d.rd f i :=
  Dev.rd_wrc_ne d F.PW_STS_OFFACC f 0 i 1 h

theorem offAcc_hidden (d : Dev) : d.offAcc.fuse = d.fuse ∧ d.offAcc.jtag = d.jtag ∧ d.offAcc.mg = d.mg := by
  unfold Dev.offAcc Dev.wrc
  split <;> exact ⟨rfl, rfl, rfl⟩

/-- A write of a register whose fields are all read-only: nothing, or OFFACC where its domain is not On. -/
theorem hostWrite_readOnly (s : State) (a w : Nat) (fl : Option FlashFound) (seen : List EccSeen) (r : Reg) (i : Nat)
    (hr : s.dev.regAt a = some (r, i)) (hro : r.fields.all (fun f => decide (f.acc = .RO ∨ f.acc = .RC)) = true) :
    s.hostWrite a w fl seen = s ∨ s.dev.served (regDomain r i) = false ∧ s.hostWrite a w fl seen = s.on Dev.offAcc := by
  rw [hostWrite_of_regAt s a w fl seen r i hr]
  split
  · exact .inl rfl
  · split
    · rw [regWrite_of_byFields s r i w fl seen (r.byFields_of_readOnly hro), State.on,
        fieldWrite_of_readOnly s.dev r i w (by simpa using hro)]
      exact .inl rfl
    next hoff => exact .inr ⟨Bool.eq_false_iff.mpr hoff, rfl⟩

/-- A write of a register without a rule of its own reaches that register's RW and W1C fields alone, its domain being On. -/
theorem hostWrite_byFields (s : State) (a w : Nat) (fl : Option FlashFound) (seen : List EccSeen) (r : Reg) (i : Nat)
    (hr : s.dev.regAt a = some (r, i)) (hs : s.dev.served (regDomain r i) = true) (hb : r.byFields = true) :
    (s.hostWrite a w fl seen).mem = s.mem ∧ (s.hostWrite a w fl seen).pending = s.pending ∧
    ∀ (g : Fld) (j : Nat), (∀ f ∈ r.fields, f.acc = .RW ∨ f.acc = .W1C → g.key j ≠ f.key i) →
      (s.hostWrite a w fl seen).dev.rd g j = s.dev.rd g j := by
  rw [hostWrite_of_regAt s a w fl seen r i hr, if_pos hs, regWrite_of_byFields s r i w fl seen hb]
  split
  · exact ⟨rfl, rfl, fun _ _ _ => rfl⟩
  · exact ⟨rfl, rfl, fun g j hg => rd_fieldWrite s.dev r i w g j hg⟩

/-- Settles O49: a write of read-only fields comes down to nothing or to OFFACC, and the rule of the access codes writes RW and W1C
fields alone. -/
theorem ignoredWrites : Obligations.IgnoredWrites := by
  unfold Obligations.IgnoredWrites
  refine ⟨fun a w fl seen r i s hr hro => ⟨_, rfl, ?_⟩, fun a w fl seen r i s hr hs hlist => ⟨_, rfl, ?_⟩⟩
  · rcases hostWrite_readOnly s _ w.toNat fl seen r i hr hro with h | ⟨hoff, h⟩ <;> rw [h]
    · exact ⟨rfl, rfl, ⟨rfl, rfl, fun _ _ _ => rfl⟩, rfl, rfl, fun _ => rfl⟩
    · obtain ⟨hfuse, hjtag, hmg⟩ := offAcc_hidden s.dev
      exact ⟨rfl, rfl, ⟨hfuse, hjtag, fun f j hf => rd_offAcc_of_ne s.dev f j (by simpa using hf)⟩,
        rd_offAcc_of_ne s.dev _ 0 (by decide), hmg, fun hon => absurd hon (by simp [hoff])⟩
  · have hrule : r.byFields = true ∧ r ≠ .MG_ALERT := by
      clear hr hs; revert r; decide
    obtain ⟨hmem, hpend, hrd⟩ := hostWrite_byFields s _ w.toNat fl seen r i hr hs hrule.1
    refine ⟨hmem, hpend, hrd _ 0 (fun f hf _ he => ?_), fun g hg hacc => hrd g i (fun f hf hrw he => ?_)⟩
    · have hreg : Reg.MG_ALERT = f.reg := congrArg Key.reg he
      exact hrule.2 ((fields_reg r f hf).symm.trans hreg.symm)
    · have heq : g = f := fields_lo_inj r g hg f hf (congrArg Key.lo he)
      subst heq
      rcases hacc with hacc | hacc <;> rw [hacc] at hrw <;> exact absurd hrw (by decide)

end Sys2Proof.Machine
end

section
/-! Host accesses to a block whose domain is not On, and to a register of the Eaves domain (R322). -/
namespace Sys2Proof.Machine

/-! ## What an access does -/

/-- A host read that meets a register: nothing without power, else the register's word and what the read leaves of it, or OFFACC
alone where its domain is not On. -/
theorem hostRead_eq_of_regAt (s : State) (a : Nat) (coin : Bool) (seen : EccSeen) (r : Reg) (i : Nat) (h : s.dev.regAt a = some (r, i)) :
    s.hostRead a coin seen =
      if s.dev.pw.good = false then (s, 0)
      else if s.dev.served (regDomain r i) then (s.on (fun d => d.readEffect r i coin), s.dev.word r i) else (s.on Dev.offAcc, 0) := by
  simp [State.hostRead, inWindowSpace_of_regAt _ _ _ h, h]

theorem exec_registerWrite (a : BitVec 24) (w : BitVec 32) (fl : Option FlashFound) (seen : List EccSeen) (s : State) :
    exec (.registerWrite a w fl seen) s = .next (s.hostWrite (a.toNat / 4 * 4) w.toNat fl seen) := rfl

/-- COUNTER_READ answers what the host read leaves, with the word that it returns. -/
theorem exec_counterRead (a : BitVec 24) (coin : Bool) (seen : EccSeen) (s t : State) (v : Nat)
    (h : s.hostRead (a.toNat / 4 * 4) coin seen = (t, v)) :
    exec (.counterRead a coin seen) s = .next (t.on (fun d => d.modMg (fun m => { m with readWords := [v] }))) := by
  rw [show exec (.counterRead a coin seen) s = execCounterRead a coin seen s from rfl, execCounterRead, h]

/-! ## Domains -/

theorem served_eaves (d : Dev) : d.served 0 = true := rfl

theorem served_of_not_domOn (d : Dev) (row : Nat) (hrow : row ≠ 0) (hoff : d.domOn row = false) : d.served row = false := by
  simp [Dev.served, hrow, hoff]

/-- The blocks of the Eaves domain: R322 names UD_, CS_, TG_, SN_ and PW_; CF_ and CL_ are log 14's. -/
theorem regDomain_of_eavesBlock (r : Reg) (i : Nat) (h : r.block ∈ [Block.mg, .pw, .cf, .tg, .sn, .cl, .ud, .cs]) : regDomain r i = 0 := by
  simp only [List.mem_cons, List.not_mem_nil, or_false] at h
  rcases h with hb | hb | hb | hb | hb | hb | hb | hb <;> simp only [regDomain, hb]

/-! ## OFFACC -/

theorem on_offAcc (d : Dev) : d.offAcc.on F.PW_STS_OFFACC = true := by
  simp [Dev.on, Dev.offAcc]

theorem sameFields_offAcc (d : Dev) : Dev.SameFields [F.PW_STS_OFFACC.key 0] d d.offAcc := by
  obtain ⟨hfuse, hjtag, _⟩ := offAcc_hidden d
  exact ⟨hfuse, hjtag, fun f i hf => rd_offAcc_of_ne d f i (by simpa using hf)⟩

/-- Fields of two access codes stand at two places. -/
theorem key_ne_of_acc_ne (r : Reg) (f g : Fld) (i j : Nat) (hf : f ∈ r.fields) (hg : g ∈ g.reg.fields) (hacc : g.acc ≠ f.acc) :
    g.key j ≠ f.key i := by
  intro he
  have hreg : g.reg = r := (congrArg Key.reg he : g.reg = f.reg).trans (fields_reg r f hf)
  have hlo : g.lo = f.lo := congrArg Key.lo he
  exact hacc (congrArg Fld.acc (fields_lo_inj r g (hreg ▸ hg) f hf hlo))

/-- A read changes RC fields and the state of a transaction slot, no other field (R68, R261). -/
theorem rd_readEffect_of_ne (d : Dev) (r : Reg) (i : Nat) (coin : Bool) (g : Fld) (j : Nat)
    (hg : g ∈ g.reg.fields) (hacc : g.acc ≠ .RC) (hslot : g.key j ≠ F.TG_SLOT_STS_STATE.key i) :
    (d.readEffect r i coin).rd g j = d.rd g j := by
  have hrc : ((r.fields.filter (fun f => decide (f.acc = .RC))).foldl (fun d f => d.wrc f i (b2n coin)) d).rd g j = d.rd g j := by
    refine List.foldlRecOn (motive := fun e : Dev => e.rd g j = d.rd g j) _ _ rfl (fun e he f hf => ?_)
    obtain ⟨hmem, hRC⟩ := List.mem_filter.mp hf
    have hne : g.acc ≠ f.acc := fun h => hacc (h.trans (of_decide_eq_true hRC))
    exact (Dev.rd_wrc_ne e f g i j _ (key_ne_of_acc_ne r f g i j hmem hg hne)).trans he
  unfold Dev.readEffect
  dsimp only
  split
  · exact (Dev.rd_wr_ne _ F.TG_SLOT_STS_STATE g i j 0 hslot).trans hrc
  · exact hrc

/-- Being W1C, OFFACC is cleared by no read. -/
theorem on_offacc_readEffect (d : Dev) (r : Reg) (i : Nat) (coin : Bool) :
    (d.readEffect r i coin).on F.PW_STS_OFFACC = d.on F.PW_STS_OFFACC := by
  have hslot : F.PW_STS_OFFACC.key 0 ≠ F.TG_SLOT_STS_STATE.key i := by
    intro he
    have hreg : Reg.PW_STS = Reg.TG_SLOT_STS := congrArg Key.reg he
    exact absurd hreg (by decide)
  rw [Dev.on, Dev.on, rd_readEffect_of_ne d r i coin F.PW_STS_OFFACC 0 (by decide) (by decide) hslot]

/-! ## R322 -/

theorem registerWrite_not_served (a : BitVec 24) (w : BitVec 32) (fl : Option FlashFound) (seen : List EccSeen) (r : Reg) (i : Nat) (s : State)
    (hgood : s.dev.pw.good = true) (hr : s.dev.regAt (a.toNat / 4 * 4) = some (r, i)) (hs : s.dev.served (regDomain r i) = false) :
    RunsOn (.registerWrite a w fl seen) s [F.PW_STS_OFFACC.key 0] (fun e => e.on F.PW_STS_OFFACC = true ∧ e.mg = s.dev.mg) := by
  have hw : s.hostWrite (a.toNat / 4 * 4) w.toNat fl seen = s.on Dev.offAcc := by
    simp [hostWrite_of_regAt s _ w.toNat fl seen r i hr, hgood, hs]
  obtain ⟨_, _, hmg⟩ := offAcc_hidden s.dev
  exact ⟨s.on Dev.offAcc, by rw [exec_registerWrite, hw], rfl, rfl, sameFields_offAcc s.dev, on_offAcc s.dev, hmg⟩

theorem counterRead_not_served (a : BitVec 24) (coin : Bool) (seen : EccSeen) (r : Reg) (i : Nat) (s : State)
    (hgood : s.dev.pw.good = true) (hr : s.dev.regAt (a.toNat / 4 * 4) = some (r, i)) (hs : s.dev.served (regDomain r i) = false) :
    RunsOn (.counterRead a coin seen) s [F.PW_STS_OFFACC.key 0] (fun e => e.on F.PW_STS_OFFACC = true ∧ e.mg.readWords = [0]) := by
  have hread : s.hostRead (a.toNat / 4 * 4) coin seen = (s.on Dev.offAcc, 0) := by
    simp [hostRead_eq_of_regAt s _ coin seen r i hr, hgood, hs]
  exact ⟨_, exec_counterRead a coin seen s _ _ hread, rfl, rfl, sameFields_offAcc s.dev, on_offAcc s.dev, rfl⟩

/-- A served register's read returns its word and leaves OFFACC as it was. -/
theorem counterRead_served (a : BitVec 24) (coin : Bool) (seen : EccSeen) (r : Reg) (i : Nat) (s : State)
    (hgood : s.dev.pw.good = true) (hr : s.dev.regAt (a.toNat / 4 * 4) = some (r, i)) (hs : s.dev.served (regDomain r i) = true) :
    ∃ t, exec (.counterRead a coin seen) s = .next t ∧ t.mem = s.mem ∧ t.pending = s.pending ∧
      t.dev.mg.readWords = [s.dev.word r i] ∧ t.dev.on F.PW_STS_OFFACC = s.dev.on F.PW_STS_OFFACC := by
  have hread : s.hostRead (a.toNat / 4 * 4) coin seen = (s.on (fun d => d.readEffect r i coin), s.dev.word r i) := by
    simp [hostRead_eq_of_regAt s _ coin seen r i hr, hgood, hs]
  exact ⟨_, exec_counterRead a coin seen s _ _ hread, rfl, rfl, rfl, on_offacc_readEffect s.dev r i coin⟩

/-- Settles O50: outside Eaves a domain that is not On serves no access, which OFFACC alone shows; a read of an Eaves register is
served, and touches RC fields and transaction slots alone. -/
theorem accessesToDomainsNotOn : Obligations.AccessesToDomainsNotOn := by
  unfold Obligations.AccessesToDomainsNotOn
  refine ⟨fun a w fl seen coin e1 r i s hgood hr hrow hoff => ?_, regDomain_of_eavesBlock, fun a coin e1 r i s hgood hr hrow => ?_⟩
  · have hs : s.dev.served (regDomain r i) = false := served_of_not_domOn s.dev _ hrow hoff
    exact ⟨registerWrite_not_served a w fl seen r i s hgood hr hs, counterRead_not_served a coin e1 r i s hgood hr hs⟩
  · have hs : s.dev.served (regDomain r i) = true := hrow ▸ served_eaves s.dev
    exact counterRead_served a coin e1 r i s hgood hr hs

end Sys2Proof.Machine
end
